-- ==== Sys2Proof/Word.lean ====
section
/-!
DEFINITION. The word types of the 80386 (00_scope.md R15) and the operand widths an instruction can have
(30_encoding.md R256).
-/
namespace Sys2Proof

/-- A byte, bits 7..0 (R15). -/
abbrev Byte := BitVec 8

/-- A word ("слово"), bits 15..0 (R15): a selector, a port number, a 16-bit operand. -/
abbrev Word16 := BitVec 16

/-- A double word, bits 31..0 (R15): a register, an offset, a linear or physical address. -/
abbrev Word32 := BitVec 32

/-- The operand and address sizes `osz` and `asz`: 16 or 32 bits (R256). -/
inductive Size where
  | s16
  | s32
deriving DecidableEq, Repr

/-- The width n of an operand: 8, 16 or 32 bits (R256, R264). -/
inductive Width where
  | w8
  | w16
  | w32
deriving DecidableEq, Repr

/-- The number of bits of a width. -/
abbrev Width.bits : Width → Nat
  | .w8 => 8
  | .w16 => 16
  | .w32 => 32

/-- The number of bytes of a width. -/
abbrev Width.bytes : Width → Nat
  | .w8 => 1
  | .w16 => 2
  | .w32 => 4

/-- The width of an `osz`-bit operand ("v" in R256). -/
abbrev Size.width : Size → Width
  | .s16 => .w16
  | .s32 => .w32

/-- The number of bits of a size. -/
abbrev Size.bits : Size → Nat
  | .s16 => 16
  | .s32 => 32

/-- The number of bytes of a size. -/
abbrev Size.bytes : Size → Nat
  | .s16 => 2
  | .s32 => 4

/-- The other size, what the prefixes 66 and 67 toggle to (R256). -/
abbrev Size.other : Size → Size
  | .s16 => .s32
  | .s32 => .s16

end Sys2Proof
end

