-- ==== Sys2Proof/Syntax.lean ====
section
/-!
DEFINITION. The instructions of the 80386: the 481 rows of opcode_table.json (30_encoding.md R290)
with their operands as the encoding gives them (R258 to R268). A form's name is its operand letters in the notation of
R270; a constructor's docstring gives the opcode bytes and the rules.
-/
namespace Sys2Proof

/-- The segment registers by their encoding numbers 0 to 5 (R259). -/
inductive SReg where
  | es
  | cs
  | ss
  | ds
  | fs
  | gs
deriving DecidableEq, Repr

/-- The base combinations of 16-bit addressing, `rm` = 0 to 7 (R260). -/
inductive Base16 where
  | bxSi
  | bxDi
  | bpSi
  | bpDi
  | si
  | di
  | bp
  | bx
deriving DecidableEq, Repr

/-- The displacement of a 16-bit addressing form with a base (R260). -/
inductive Disp16 where
  | none
  | d8 (d : Byte)
  | d16 (d : Word16)
deriving DecidableEq, Repr

/-- The displacement of a 32-bit addressing form with a base (R261). -/
inductive Disp32 where
  | none
  | d8 (d : Byte)
  | d32 (d : Word32)
deriving DecidableEq, Repr

/-- A memory operand as ModRM, SIB and displacement give it (R260, R261). `sib` has the scale field, the index register
(4: no index) and a base register; `sibDirect` is the SIB form without a base (base = 5 with mod = 0). -/
inductive MemOp where
  | direct16 (d : Word16)
  | based16 (b : Base16) (d : Disp16)
  | direct32 (d : Word32)
  | based32 (b : Fin 8) (d : Disp32)
  | sib (scale : Fin 4) (index base : Fin 8) (d : Disp32)
  | sibDirect (scale : Fin 4) (index : Fin 8) (d : Word32)
deriving DecidableEq, Repr

/-- The r/m operand: the register numbered `rm`, or memory (R258). -/
inductive RM where
  | reg (r : Fin 8)
  | mem (m : MemOp)
deriving DecidableEq, Repr

/-- An immediate, displacement or offset whose width the operand or address size gives (R265 to R267). -/
inductive ImmV where
  | w (v : Word16)
  | d (v : Word32)
deriving DecidableEq, Repr

/-- A far pointer in the instruction stream, `ptr16:v` (R268). -/
structure FarPtr where
  sel : Word16
  off : ImmV
deriving DecidableEq, Repr


/-- The operand forms of the eight two-operand operations (R270, R272). -/
inductive AluForm where
  | ebGb (rm : RM) (r : Fin 8)
  | evGv (rm : RM) (r : Fin 8)
  | gbEb (r : Fin 8) (rm : RM)
  | gvEv (r : Fin 8) (rm : RM)
  | alIb (imm : Byte)
  | eaxIv (imm : ImmV)
  | ebIb (rm : RM) (imm : Byte)
  | evIv (rm : RM) (imm : ImmV)
  | evIbs (rm : RM) (imm : Byte)
deriving DecidableEq, Repr

/-- The operand forms of INC and DEC. -/
inductive IncForm where
  | r (r : Fin 8)
  | eb (rm : RM)
  | ev (rm : RM)
deriving DecidableEq, Repr

/-- The operand forms of PUSH (R471 to R473). -/
inductive PushForm where
  | r (r : Fin 8)
  | iv (imm : ImmV)
  | ibs (imm : Byte)
  | ev (rm : RM)
deriving DecidableEq, Repr

/-- The operand forms of POP (R475). -/
inductive PopForm where
  | r (r : Fin 8)
  | ev (rm : RM)
deriving DecidableEq, Repr

/-- The operand forms of IMUL (R393, R394). -/
inductive ImulForm where
  | gvEvIv (r : Fin 8) (rm : RM) (imm : ImmV)
  | gvEvIbs (r : Fin 8) (rm : RM) (imm : Byte)
  | eb (rm : RM)
  | ev (rm : RM)
  | gvEv (r : Fin 8) (rm : RM)
deriving DecidableEq, Repr

/-- The two displacement widths of a conditional jump (R493). -/
inductive JccForm where
  | jb (imm : Byte)
  | jv (imm : ImmV)
deriving DecidableEq, Repr

/-- The operand forms of TEST (R345). -/
inductive TestForm where
  | ebGb (rm : RM) (r : Fin 8)
  | evGv (rm : RM) (r : Fin 8)
  | alIb (imm : Byte)
  | eaxIv (imm : ImmV)
  | ebIb (rm : RM) (imm : Byte)
  | evIv (rm : RM) (imm : ImmV)
deriving DecidableEq, Repr

/-- The operand forms of XCHG (R316). -/
inductive XchgForm where
  | ebGb (rm : RM) (r : Fin 8)
  | evGv (rm : RM) (r : Fin 8)
  | eaxR (r : Fin 8)
deriving DecidableEq, Repr

/-- The operand forms of MOV (R301 to R305, R560 to R562). -/
inductive MovForm where
  | ebGb (rm : RM) (r : Fin 8)
  | evGv (rm : RM) (r : Fin 8)
  | gbEb (r : Fin 8) (rm : RM)
  | gvEv (r : Fin 8) (rm : RM)
  | ewSw (rm : RM) (sr : SReg)
  | swEw (sr : SReg) (rm : RM)
  | alOb (off : ImmV)
  | eaxOv (off : ImmV)
  | obAl (off : ImmV)
  | ovEax (off : ImmV)
  | r8Ib (r : Fin 8) (imm : Byte)
  | rIv (r : Fin 8) (imm : ImmV)
  | ebIb (rm : RM) (imm : Byte)
  | evIv (rm : RM) (imm : ImmV)
  | r32Cr (r : Fin 8) (n : Fin 8)
  | r32Dr (r : Fin 8) (n : Fin 8)
  | crR32 (n : Fin 8) (r : Fin 8)
  | drR32 (n : Fin 8) (r : Fin 8)
  | r32Tr (r : Fin 8) (n : Fin 8)
  | trR32 (n : Fin 8) (r : Fin 8)
deriving DecidableEq, Repr

/-- The operand forms of CALL (R496, R500). -/
inductive CallForm where
  | farAp (p : FarPtr)
  | jv (imm : ImmV)
  | ev (rm : RM)
  | farMp (m : MemOp)
deriving DecidableEq, Repr

/-- The operand forms of shifts and rotates (R272). -/
inductive ShiftForm where
  | ebIb (rm : RM) (imm : Byte)
  | evIb (rm : RM) (imm : Byte)
  | eb1 (rm : RM)
  | ev1 (rm : RM)
  | ebCl (rm : RM)
  | evCl (rm : RM)
deriving DecidableEq, Repr

/-- The forms of RET (R498, R500). -/
inductive RetForm where
  | nearIw (imm : Word16)
  | near
  | farIw (imm : Word16)
  | far
deriving DecidableEq, Repr

/-- The operand forms of the coprocessor arithmetic (R602). -/
inductive FArithForm where
  | m32 (m : MemOp)
  | stSti (i : Fin 8)
  | m64 (m : MemOp)
  | stiSt (i : Fin 8)
deriving DecidableEq, Repr

/-- The operand forms of FCOM and FCOMP (R602). -/
inductive FComForm where
  | m32 (m : MemOp)
  | stSti (i : Fin 8)
  | m64 (m : MemOp)
deriving DecidableEq, Repr

/-- The operand forms of FLD and FSTP (R602). -/
inductive FLoadForm where
  | m32 (m : MemOp)
  | sti (i : Fin 8)
  | m80 (m : MemOp)
  | m64 (m : MemOp)
deriving DecidableEq, Repr

/-- The ESC memory forms that no instruction uses (R602). -/
inductive ReservedForm where
  | d9M1 (m : MemOp)
  | dbM1 (m : MemOp)
  | dbM4 (m : MemOp)
  | dbM6 (m : MemOp)
  | ddM1 (m : MemOp)
  | ddM5 (m : MemOp)
  | dfM1 (m : MemOp)
deriving DecidableEq, Repr

/-- The operand forms of FST (R602). -/
inductive FStoreForm where
  | m32 (m : MemOp)
  | m64 (m : MemOp)
  | sti (i : Fin 8)
deriving DecidableEq, Repr

/-- The operand forms of the coprocessor integer operations (R602). -/
inductive FIntForm where
  | m32 (m : MemOp)
  | m16 (m : MemOp)
deriving DecidableEq, Repr

/-- The operand forms of FILD and FISTP (R602). -/
inductive FIntLoadForm where
  | m32 (m : MemOp)
  | m16 (m : MemOp)
  | m64 (m : MemOp)
deriving DecidableEq, Repr

/-- The forms of IN (R580, R581). -/
inductive InForm where
  | alIb (imm : Byte)
  | eaxIb (imm : Byte)
  | alDx
  | eaxDx
deriving DecidableEq, Repr

/-- The forms of OUT (R582, R583). -/
inductive OutForm where
  | ibAl (imm : Byte)
  | ibEax (imm : Byte)
  | dxAl
  | dxEax
deriving DecidableEq, Repr

/-- The operand forms of JMP (R491, R492, R500). -/
inductive JmpForm where
  | jv (imm : ImmV)
  | farAp (p : FarPtr)
  | jb (imm : Byte)
  | ev (rm : RM)
  | farMp (m : MemOp)
deriving DecidableEq, Repr

/-- A byte or an osz-bit r/m operand. -/
inductive UnaryForm where
  | eb (rm : RM)
  | ev (rm : RM)
deriving DecidableEq, Repr

/-- The operand forms of the bit instructions (R451 to R454). -/
inductive BitForm where
  | evGv (rm : RM) (r : Fin 8)
  | evIb (rm : RM) (imm : Byte)
deriving DecidableEq, Repr

/-- The counts of SHLD and SHRD (R368, R369). -/
inductive ShdForm where
  | evGvIb (rm : RM) (r : Fin 8) (imm : Byte)
  | evGvCl (rm : RM) (r : Fin 8)
deriving DecidableEq, Repr

/-- The source widths of MOVZX and MOVSX (R308, R309). -/
inductive MovxForm where
  | gvEb (r : Fin 8) (rm : RM)
  | gvEw (r : Fin 8) (rm : RM)
deriving DecidableEq, Repr

/-- The instructions, one constructor per mnemonic of opcode_table.json; the rows of a mnemonic with several are the
constructors of its operand-form type (log entry 27). The prefix bytes come last. -/
inductive Instr where
    /-- ADD: 00, 01, 02, 03, 04, 05, 80 /0, 81 /0, 83 /0 (R382) -/
  | add (f : AluForm)
    /-- OR: 08, 09, 0A, 0B, 0C, 0D, 80 /1, 81 /1, 83 /1 (R342) -/
  | or (f : AluForm)
    /-- ADC: 10, 11, 12, 13, 14, 15, 80 /2, 81 /2, 83 /2 (R383) -/
  | adc (f : AluForm)
    /-- SBB: 18, 19, 1A, 1B, 1C, 1D, 80 /3, 81 /3, 83 /3 (R385) -/
  | sbb (f : AluForm)
    /-- AND: 20, 21, 22, 23, 24, 25, 80 /4, 81 /4, 83 /4 (R341) -/
  | and (f : AluForm)
    /-- SUB: 28, 29, 2A, 2B, 2C, 2D, 80 /5, 81 /5, 83 /5 (R384) -/
  | sub (f : AluForm)
    /-- XOR: 30, 31, 32, 33, 34, 35, 80 /6, 81 /6, 83 /6 (R343) -/
  | xor (f : AluForm)
    /-- CMP: 38, 39, 3A, 3B, 3C, 3D, 80 /7, 81 /7, 83 /7 (R386) -/
  | cmp (f : AluForm)
    /-- PUSH_ES: 06 (R474) -/
  | pushEs
    /-- POP_ES: 07 (R476) -/
  | popEs
    /-- PUSH_CS: 0E (R474) -/
  | pushCs
    /-- PUSH_SS: 16 (R474) -/
  | pushSs
    /-- POP_SS: 17 (R476) -/
  | popSs
    /-- PUSH_DS: 1E (R474) -/
  | pushDs
    /-- POP_DS: 1F (R476) -/
  | popDs
    /-- DAA: 27 (R400) -/
  | daa
    /-- DAS: 2F (R401) -/
  | das
    /-- AAA: 37 (R402) -/
  | aaa
    /-- AAS: 3F (R403) -/
  | aas
    /-- INC: 40, FE /0, FF /0 (R387) -/
  | inc (f : IncForm)
    /-- DEC: 48, FE /1, FF /1 (R388) -/
  | dec (f : IncForm)
    /-- PUSH: 50, 68, 6A, FF /6 (R471, R473, R472) -/
  | push (f : PushForm)
    /-- POP: 58, 8F /0 (R475) -/
  | pop (f : PopForm)
    /-- PUSHA_PUSHAD: 60 (R477) -/
  | pusha
    /-- POPA_POPAD: 61 (R478) -/
  | popa
    /-- BOUND: 62 (R519) -/
  | bound (r : Fin 8) (m : MemOp)
    /-- ARPL: 63 (R570) -/
  | arpl (rm : RM) (r : Fin 8)
    /-- IMUL: 69, 6B, F6 /5, F7 /5, 0F AF (R394, R393) -/
  | imul (f : ImulForm)
    /-- INSB: 6C (R430) -/
  | insb
    /-- INSW_INSD: 6D (R430) -/
  | inswD
    /-- OUTSB: 6E (R431) -/
  | outsb
    /-- OUTSW_OUTSD: 6F (R431) -/
  | outswD
    /-- JO: 70, 0F 80 (R493) -/
  | jo (f : JccForm)
    /-- JNO: 71, 0F 81 (R493) -/
  | jno (f : JccForm)
    /-- JB_JNAE_JC: 72, 0F 82 (R493) -/
  | jb (f : JccForm)
    /-- JAE_JNB_JNC: 73, 0F 83 (R493) -/
  | jae (f : JccForm)
    /-- JE_JZ: 74, 0F 84 (R493) -/
  | je (f : JccForm)
    /-- JNE_JNZ: 75, 0F 85 (R493) -/
  | jne (f : JccForm)
    /-- JBE_JNA: 76, 0F 86 (R493) -/
  | jbe (f : JccForm)
    /-- JA_JNBE: 77, 0F 87 (R493) -/
  | ja (f : JccForm)
    /-- JS: 78, 0F 88 (R493) -/
  | js (f : JccForm)
    /-- JNS: 79, 0F 89 (R493) -/
  | jns (f : JccForm)
    /-- JP_JPE: 7A, 0F 8A (R493) -/
  | jp (f : JccForm)
    /-- JNP_JPO: 7B, 0F 8B (R493) -/
  | jnp (f : JccForm)
    /-- JL_JNGE: 7C, 0F 8C (R493) -/
  | jl (f : JccForm)
    /-- JGE_JNL: 7D, 0F 8D (R493) -/
  | jge (f : JccForm)
    /-- JLE_JNG: 7E, 0F 8E (R493) -/
  | jle (f : JccForm)
    /-- JG_JNLE: 7F, 0F 8F (R493) -/
  | jg (f : JccForm)
    /-- TEST: 84, 85, A8, A9, F6 /0, F7 /0 (R345) -/
  | test (f : TestForm)
    /-- XCHG: 86, 87, 90 (R316) -/
  | xchg (f : XchgForm)
    /-- MOV: 88, 89, 8A, 8B, 8C, 8E, A0, A1, A2, A3, B0, B8, C6 /0, C7 /0, 0F 20, 0F 21, 0F 22, 0F 23, 0F 24, 0F 26
  (R301, R305, R304, R303, R302, R560, R561, R562) -/
  | mov (f : MovForm)
    /-- LEA: 8D (R312) -/
  | lea (r : Fin 8) (m : MemOp)
    /-- NOP: 90 (R545) -/
  | nop
    /-- CBW_CWDE: 98 (R310) -/
  | cbwCwde
    /-- CWD_CDQ: 99 (R311) -/
  | cwdCdq
    /-- CALL: 9A, E8, FF /2, FF /3 (R500, R496) -/
  | call (f : CallForm)
    /-- WAIT_FWAIT: 9B (R608) -/
  | wait
    /-- PUSHF_PUSHFD: 9C (R480) -/
  | pushf
    /-- POPF_POPFD: 9D (R481) -/
  | popf
    /-- SAHF: 9E (R541) -/
  | sahf
    /-- LAHF: 9F (R540) -/
  | lahf
    /-- MOVSB: A4 (R421) -/
  | movsb
    /-- MOVSW_MOVSD: A5 (R421) -/
  | movswD
    /-- CMPSB: A6 (R422) -/
  | cmpsb
    /-- CMPSW_CMPSD: A7 (R422) -/
  | cmpswD
    /-- STOSB: AA (R425) -/
  | stosb
    /-- STOSW_STOSD: AB (R425) -/
  | stoswD
    /-- LODSB: AC (R424) -/
  | lodsb
    /-- LODSW_LODSD: AD (R424) -/
  | lodswD
    /-- SCASB: AE (R423) -/
  | scasb
    /-- SCASW_SCASD: AF (R423) -/
  | scaswD
    /-- ROL: C0 /0, C1 /0, D0 /0, D1 /0, D2 /0, D3 /0 (R364) -/
  | rol (f : ShiftForm)
    /-- ROR: C0 /1, C1 /1, D0 /1, D1 /1, D2 /1, D3 /1 (R365) -/
  | ror (f : ShiftForm)
    /-- RCL: C0 /2, C1 /2, D0 /2, D1 /2, D2 /2, D3 /2 (R366) -/
  | rcl (f : ShiftForm)
    /-- RCR: C0 /3, C1 /3, D0 /3, D1 /3, D2 /3, D3 /3 (R367) -/
  | rcr (f : ShiftForm)
    /-- SHL_SAL: C0 /4, C1 /4, D0 /4, D1 /4, D2 /4, D3 /4 (R361) -/
  | shl (f : ShiftForm)
    /-- SHR: C0 /5, C1 /5, D0 /5, D1 /5, D2 /5, D3 /5 (R362) -/
  | shr (f : ShiftForm)
    /-- SAR: C0 /7, C1 /7, D0 /7, D1 /7, D2 /7, D3 /7 (R363) -/
  | sar (f : ShiftForm)
    /-- RET: C2, C3, CA, CB (R498, R500) -/
  | ret (f : RetForm)
    /-- LES: C4 (R313) -/
  | les (r : Fin 8) (m : MemOp)
    /-- LDS: C5 (R313) -/
  | lds (r : Fin 8) (m : MemOp)
    /-- ENTER: C8 (R483) -/
  | enter (imm : Word16) (imm2 : Byte)
    /-- LEAVE: C9 (R484) -/
  | leave
    /-- INT_3: CC (R510) -/
  | int3
    /-- INT: CD (R510) -/
  | int (imm : Byte)
    /-- INTO: CE (R518) -/
  | into
    /-- IRET_IRETD: CF (R511) -/
  | iret
    /-- AAM: D4 (R404) -/
  | aam (imm : Byte)
    /-- AAD: D5 (R405) -/
  | aad (imm : Byte)
    /-- XLAT_XLATB: D7 (R314) -/
  | xlat
    /-- FADD: D8 /0, D8 /0, DC /0, DC /0 (R602) -/
  | fadd (f : FArithForm)
    /-- FMUL: D8 /1, D8 /1, DC /1, DC /1 (R602) -/
  | fmul (f : FArithForm)
    /-- FCOM: D8 /2, D8 /2, DC /2 (R602) -/
  | fcom (f : FComForm)
    /-- FCOMP: D8 /3, D8 /3, DC /3 (R602) -/
  | fcomp (f : FComForm)
    /-- FSUB: D8 /4, D8 /4, DC /4, DC /5 (R602) -/
  | fsub (f : FArithForm)
    /-- FSUBR: D8 /5, D8 /5, DC /5, DC /4 (R602) -/
  | fsubr (f : FArithForm)
    /-- FDIV: D8 /6, D8 /6, DC /6, DC /7 (R602) -/
  | fdiv (f : FArithForm)
    /-- FDIVR: D8 /7, D8 /7, DC /7, DC /6 (R602) -/
  | fdivr (f : FArithForm)
    /-- FLD: D9 /0, D9 /0, DB /5, DD /0 (R602) -/
  | fld (f : FLoadForm)
    /-- ESC__reserved_memory_form: D9 /1, DB /1, DB /4, DB /6, DD /1, DD /5, DF /1 (R602) -/
  | escReserved (f : ReservedForm)
    /-- FST: D9 /2, DD /2, DD /2 (R602) -/
  | fst (f : FStoreForm)
    /-- FSTP: D9 /3, DB /7, DD /3, DD /3 (R602) -/
  | fstp (f : FLoadForm)
    /-- FLDENV: D9 /4 (R602) -/
  | fldenv (m : MemOp)
    /-- FLDCW: D9 /5 (R602) -/
  | fldcw (m : MemOp)
    /-- FNSTENV: D9 /6 (R602) -/
  | fnstenv (m : MemOp)
    /-- FNSTCW: D9 /7 (R602) -/
  | fnstcw (m : MemOp)
    /-- FXCH: D9 /1 (R602) -/
  | fxch (i : Fin 8)
    /-- FNOP: D9 /2 (R602) -/
  | fnop (i : Fin 8)
    /-- ESC_D9_D8+i: D9 /3 (R602) -/
  | escD9D8 (i : Fin 8)
    /-- FCHS_FABS_FTST_FXAM: D9 /4 (R602) -/
  | fchsGroup (i : Fin 8)
    /-- FLD1_FLDL2T_FLDL2E_FLDPI_FLDLG2_FLDLN2_FLDZ: D9 /5 (R602) -/
  | fld1Group (i : Fin 8)
    /-- F2XM1_FYL2X_FPTAN_FPATAN_FXTRACT_FPREM1_FDECSTP_FINCSTP: D9 /6 (R602) -/
  | f2xm1Group (i : Fin 8)
    /-- FPREM_FYL2XP1_FSQRT_FSINCOS_FRNDINT_FSCALE_FSIN_FCOS: D9 /7 (R602) -/
  | fpremGroup (i : Fin 8)
    /-- FIADD: DA /0, DE /0 (R602) -/
  | fiadd (f : FIntForm)
    /-- FIMUL: DA /1, DE /1 (R602) -/
  | fimul (f : FIntForm)
    /-- FICOM: DA /2, DE /2 (R602) -/
  | ficom (f : FIntForm)
    /-- FICOMP: DA /3, DE /3 (R602) -/
  | ficomp (f : FIntForm)
    /-- FISUB: DA /4, DE /4 (R602) -/
  | fisub (f : FIntForm)
    /-- FISUBR: DA /5, DE /5 (R602) -/
  | fisubr (f : FIntForm)
    /-- FIDIV: DA /6, DE /6 (R602) -/
  | fidiv (f : FIntForm)
    /-- FIDIVR: DA /7, DE /7 (R602) -/
  | fidivr (f : FIntForm)
    /-- ESC_DA_C0+i: DA /0 (R602) -/
  | escDaC0 (i : Fin 8)
    /-- ESC_DA_C8+i: DA /1 (R602) -/
  | escDaC8 (i : Fin 8)
    /-- ESC_DA_D0+i: DA /2 (R602) -/
  | escDaD0 (i : Fin 8)
    /-- ESC_DA_D8+i: DA /3 (R602) -/
  | escDaD8 (i : Fin 8)
    /-- ESC_DA_E0+i: DA /4 (R602) -/
  | escDaE0 (i : Fin 8)
    /-- FUCOMPP: DA /5 (R602) -/
  | fucompp (i : Fin 8)
    /-- ESC_DA_F0+i: DA /6 (R602) -/
  | escDaF0 (i : Fin 8)
    /-- ESC_DA_F8+i: DA /7 (R602) -/
  | escDaF8 (i : Fin 8)
    /-- FILD: DB /0, DF /0, DF /5 (R602) -/
  | fild (f : FIntLoadForm)
    /-- FIST: DB /2, DF /2 (R602) -/
  | fist (f : FIntForm)
    /-- FISTP: DB /3, DF /3, DF /7 (R602) -/
  | fistp (f : FIntLoadForm)
    /-- ESC_DB_C0+i: DB /0 (R602) -/
  | escDbC0 (i : Fin 8)
    /-- ESC_DB_C8+i: DB /1 (R602) -/
  | escDbC8 (i : Fin 8)
    /-- ESC_DB_D0+i: DB /2 (R602) -/
  | escDbD0 (i : Fin 8)
    /-- ESC_DB_D8+i: DB /3 (R602) -/
  | escDbD8 (i : Fin 8)
    /-- FENI_FDISI_FNCLEX_FNINIT_FSETPM: DB /4 (R602) -/
  | feniGroup (i : Fin 8)
    /-- ESC_DB_E8+i: DB /5 (R602) -/
  | escDbE8 (i : Fin 8)
    /-- ESC_DB_F0+i: DB /6 (R602) -/
  | escDbF0 (i : Fin 8)
    /-- ESC_DB_F8+i: DB /7 (R602) -/
  | escDbF8 (i : Fin 8)
    /-- ESC_DC_D0+i: DC /2 (R602) -/
  | escDcD0 (i : Fin 8)
    /-- ESC_DC_D8+i: DC /3 (R602) -/
  | escDcD8 (i : Fin 8)
    /-- FRSTOR: DD /4 (R602) -/
  | frstor (m : MemOp)
    /-- FNSAVE: DD /6 (R602) -/
  | fnsave (m : MemOp)
    /-- FNSTSW: DD /7 (R602) -/
  | fnstsw (m : MemOp)
    /-- FFREE: DD /0 (R602) -/
  | ffree (i : Fin 8)
    /-- ESC_DD_C8+i: DD /1 (R602) -/
  | escDdC8 (i : Fin 8)
    /-- FUCOM: DD /4 (R602) -/
  | fucom (i : Fin 8)
    /-- FUCOMP: DD /5 (R602) -/
  | fucomp (i : Fin 8)
    /-- ESC_DD_F0+i: DD /6 (R602) -/
  | escDdF0 (i : Fin 8)
    /-- ESC_DD_F8+i: DD /7 (R602) -/
  | escDdF8 (i : Fin 8)
    /-- FADDP: DE /0 (R602) -/
  | faddp (i : Fin 8)
    /-- FMULP: DE /1 (R602) -/
  | fmulp (i : Fin 8)
    /-- ESC_DE_D0+i: DE /2 (R602) -/
  | escDeD0 (i : Fin 8)
    /-- FCOMPP: DE /3 (R602) -/
  | fcompp (i : Fin 8)
    /-- FSUBRP: DE /4 (R602) -/
  | fsubrp (i : Fin 8)
    /-- FSUBP: DE /5 (R602) -/
  | fsubp (i : Fin 8)
    /-- FDIVRP: DE /6 (R602) -/
  | fdivrp (i : Fin 8)
    /-- FDIVP: DE /7 (R602) -/
  | fdivp (i : Fin 8)
    /-- FBLD: DF /4 (R602) -/
  | fbld (m : MemOp)
    /-- FBSTP: DF /6 (R602) -/
  | fbstp (m : MemOp)
    /-- ESC_DF_C0+i: DF /0 (R602) -/
  | escDfC0 (i : Fin 8)
    /-- ESC_DF_C8+i: DF /1 (R602) -/
  | escDfC8 (i : Fin 8)
    /-- ESC_DF_D0+i: DF /2 (R602) -/
  | escDfD0 (i : Fin 8)
    /-- ESC_DF_D8+i: DF /3 (R602) -/
  | escDfD8 (i : Fin 8)
    /-- FNSTSW_AX: DF /4 (R602) -/
  | fnstswAx (i : Fin 8)
    /-- ESC_DF_E8+i: DF /5 (R602) -/
  | escDfE8 (i : Fin 8)
    /-- ESC_DF_F0+i: DF /6 (R602) -/
  | escDfF0 (i : Fin 8)
    /-- ESC_DF_F8+i: DF /7 (R602) -/
  | escDfF8 (i : Fin 8)
    /-- LOOPNE_LOOPNZ: E0 (R495) -/
  | loopne (imm : Byte)
    /-- LOOPE_LOOPZ: E1 (R495) -/
  | loope (imm : Byte)
    /-- LOOP: E2 (R495) -/
  | loop (imm : Byte)
    /-- JCXZ_JECXZ: E3 (R494) -/
  | jcxz (imm : Byte)
    /-- IN: E4, E5, EC, ED (R580, R581) -/
  | inPort (f : InForm)
    /-- OUT: E6, E7, EE, EF (R582, R583) -/
  | outPort (f : OutForm)
    /-- JMP: E9, EA, EB, FF /4, FF /5 (R491, R500, R492) -/
  | jmp (f : JmpForm)
    /-- HLT: F4 (R574) -/
  | hlt
    /-- CMC: F5 (R532) -/
  | cmc
    /-- NOT: F6 /2, F7 /2 (R344) -/
  | not (f : UnaryForm)
    /-- NEG: F6 /3, F7 /3 (R389) -/
  | neg (f : UnaryForm)
    /-- MUL: F6 /4, F7 /4 (R392) -/
  | mul (f : UnaryForm)
    /-- DIV: F6 /6, F7 /6 (R396) -/
  | div (f : UnaryForm)
    /-- IDIV: F6 /7, F7 /7 (R397) -/
  | idiv (f : UnaryForm)
    /-- CLC: F8 (R530) -/
  | clc
    /-- STC: F9 (R531) -/
  | stc
    /-- CLI: FA (R536) -/
  | cli
    /-- STI: FB (R537) -/
  | sti
    /-- CLD: FC (R534) -/
  | cld
    /-- STD: FD (R535) -/
  | std
    /-- SLDT: 0F 00 /0 (R555) -/
  | sldt (rm : RM)
    /-- STR: 0F 00 /1 (R557) -/
  | str (rm : RM)
    /-- LLDT: 0F 00 /2 (R554) -/
  | lldt (rm : RM)
    /-- LTR: 0F 00 /3 (R556) -/
  | ltr (rm : RM)
    /-- VERR: 0F 00 /4 (R568) -/
  | verr (rm : RM)
    /-- VERW: 0F 00 /5 (R569) -/
  | verw (rm : RM)
    /-- SGDT: 0F 01 /0 (R552) -/
  | sgdt (m : MemOp)
    /-- SIDT: 0F 01 /1 (R553) -/
  | sidt (m : MemOp)
    /-- LGDT: 0F 01 /2 (R550) -/
  | lgdt (m : MemOp)
    /-- LIDT: 0F 01 /3 (R551) -/
  | lidt (m : MemOp)
    /-- SMSW: 0F 01 /4 (R564) -/
  | smsw (rm : RM)
    /-- LMSW: 0F 01 /6 (R563) -/
  | lmsw (rm : RM)
    /-- LAR: 0F 02 (R566) -/
  | lar (r : Fin 8) (rm : RM)
    /-- LSL: 0F 03 (R567) -/
  | lsl (r : Fin 8) (rm : RM)
    /-- CLTS: 0F 06 (R565) -/
  | clts
    /-- SETO: 0F 90 (R543) -/
  | seto (rm : RM)
    /-- SETNO: 0F 91 (R543) -/
  | setno (rm : RM)
    /-- SETB_SETNAE_SETC: 0F 92 (R543) -/
  | setb (rm : RM)
    /-- SETAE_SETNB_SETNC: 0F 93 (R543) -/
  | setae (rm : RM)
    /-- SETE_SETZ: 0F 94 (R543) -/
  | sete (rm : RM)
    /-- SETNE_SETNZ: 0F 95 (R543) -/
  | setne (rm : RM)
    /-- SETBE_SETNA: 0F 96 (R543) -/
  | setbe (rm : RM)
    /-- SETA_SETNBE: 0F 97 (R543) -/
  | seta (rm : RM)
    /-- SETS: 0F 98 (R543) -/
  | sets (rm : RM)
    /-- SETNS: 0F 99 (R543) -/
  | setns (rm : RM)
    /-- SETP_SETPE: 0F 9A (R543) -/
  | setp (rm : RM)
    /-- SETNP_SETPO: 0F 9B (R543) -/
  | setnp (rm : RM)
    /-- SETL_SETNGE: 0F 9C (R543) -/
  | setl (rm : RM)
    /-- SETGE_SETNL: 0F 9D (R543) -/
  | setge (rm : RM)
    /-- SETLE_SETNG: 0F 9E (R543) -/
  | setle (rm : RM)
    /-- SETG_SETNLE: 0F 9F (R543) -/
  | setg (rm : RM)
    /-- PUSH_FS: 0F A0 (R474) -/
  | pushFs
    /-- POP_FS: 0F A1 (R476) -/
  | popFs
    /-- PUSH_GS: 0F A8 (R474) -/
  | pushGs
    /-- POP_GS: 0F A9 (R476) -/
  | popGs
    /-- BT: 0F A3, 0F BA /4 (R451) -/
  | bt (f : BitForm)
    /-- SHLD: 0F A4, 0F A5 (R368) -/
  | shld (f : ShdForm)
    /-- XBTS: 0F A6 (R460) -/
  | xbts (r : Fin 8) (rm : RM)
    /-- IBTS: 0F A7 (R460) -/
  | ibts (rm : RM) (r : Fin 8)
    /-- BTS: 0F AB, 0F BA /5 (R452) -/
  | bts (f : BitForm)
    /-- SHRD: 0F AC, 0F AD (R369) -/
  | shrd (f : ShdForm)
    /-- LSS: 0F B2 (R313) -/
  | lss (r : Fin 8) (m : MemOp)
    /-- BTR: 0F B3, 0F BA /6 (R453) -/
  | btr (f : BitForm)
    /-- LFS: 0F B4 (R313) -/
  | lfs (r : Fin 8) (m : MemOp)
    /-- LGS: 0F B5 (R313) -/
  | lgs (r : Fin 8) (m : MemOp)
    /-- MOVZX: 0F B6, 0F B7 (R308) -/
  | movzx (f : MovxForm)
    /-- BTC: 0F BA /7, 0F BB (R454) -/
  | btc (f : BitForm)
    /-- BSF: 0F BC (R456) -/
  | bsf (r : Fin 8) (rm : RM)
    /-- BSR: 0F BD (R457) -/
  | bsr (r : Fin 8) (rm : RM)
    /-- MOVSX: 0F BE, 0F BF (R309) -/
  | movsx (f : MovxForm)
    /-- prefix_ES: 26 (R254) -/
  | prefixEs
    /-- prefix_CS: 2E (R254) -/
  | prefixCs
    /-- prefix_SS: 36 (R254) -/
  | prefixSs
    /-- prefix_DS: 3E (R254) -/
  | prefixDs
    /-- prefix_FS: 64 (R254) -/
  | prefixFs
    /-- prefix_GS: 65 (R254) -/
  | prefixGs
    /-- prefix_operand-size: 66 (R254) -/
  | prefixOpsize
    /-- prefix_address-size: 67 (R254) -/
  | prefixAdsize
    /-- prefix_LOCK: F0 (R254) -/
  | prefixLock
    /-- prefix_REPNE_REPNZ: F2 (R254) -/
  | prefixRepne
    /-- prefix_REP_REPE_REPZ: F3 (R254) -/
  | prefixRep
deriving DecidableEq, Repr

end Sys2Proof
end

