-- ==== Sys2Proof/WellFormed.lean ====
section
/-!
DEFINITION. The instructions an encoding gives in a segment of given operand and address size: every operand in the form
and width R258 to R268 give it.
-/
namespace Sys2Proof

/-- An `iv`, `Jv` or offset operand has the width the size attribute says (R265 to R267). -/
def ImmV.wellFormed : Size → ImmV → Bool
  | .s16, .w _ => true
  | .s32, .d _ => true
  | _, _ => false

/-- The displacement 0 of a BP base is always written: mod = 0, rm = 6 is the direct form (R260). -/
def Disp16.wellFormed (b : Base16) : Disp16 → Bool
  | .none => b != .bp
  | _ => true

/-- The displacement of an EBP base is always written: mod = 0, rm = 5 is the direct form (R261). -/
def Disp32.wellFormed (b : Fin 8) : Disp32 → Bool
  | .none => b != 5
  | _ => true

/-- A memory operand is one of the forms of the address size (R260, R261); ESP as a base needs a SIB byte. -/
def MemOp.wellFormed : Size → MemOp → Bool
  | .s16, .direct16 _ => true
  | .s16, .based16 b d => d.wellFormed b
  | .s32, .direct32 _ => true
  | .s32, .based32 b d => b != 4 && d.wellFormed b
  | .s32, .sib _ _ b d => d.wellFormed b
  | .s32, .sibDirect _ _ _ => true
  | _, _ => false

/-- A register, or a well-formed memory operand (R258). -/
def RM.wellFormed (asz : Size) : RM → Bool
  | .reg _ => true
  | .mem m => m.wellFormed asz

/-- A far pointer's offset has the width of the operand size (R268). -/
def FarPtr.wellFormed (osz : Size) (p : FarPtr) : Bool := p.off.wellFormed osz

/-- MOV to CS is not an instruction (R259). -/
def SReg.loadable : SReg → Bool
  | .cs => false
  | _ => true


def AluForm.wellFormed (osz asz : Size) : AluForm → Bool
  | .ebGb rm _ => rm.wellFormed asz
  | .evGv rm _ => rm.wellFormed asz
  | .gbEb _ rm => rm.wellFormed asz
  | .gvEv _ rm => rm.wellFormed asz
  | .alIb _ => true
  | .eaxIv imm => imm.wellFormed osz
  | .ebIb rm _ => rm.wellFormed asz
  | .evIv rm imm => rm.wellFormed asz && imm.wellFormed osz
  | .evIbs rm _ => rm.wellFormed asz

def IncForm.wellFormed (asz : Size) : IncForm → Bool
  | .r _ => true
  | .eb rm => rm.wellFormed asz
  | .ev rm => rm.wellFormed asz

def PushForm.wellFormed (osz asz : Size) : PushForm → Bool
  | .r _ => true
  | .iv imm => imm.wellFormed osz
  | .ibs _ => true
  | .ev rm => rm.wellFormed asz

def PopForm.wellFormed (asz : Size) : PopForm → Bool
  | .r _ => true
  | .ev rm => rm.wellFormed asz

def ImulForm.wellFormed (osz asz : Size) : ImulForm → Bool
  | .gvEvIv _ rm imm => rm.wellFormed asz && imm.wellFormed osz
  | .gvEvIbs _ rm _ => rm.wellFormed asz
  | .eb rm => rm.wellFormed asz
  | .ev rm => rm.wellFormed asz
  | .gvEv _ rm => rm.wellFormed asz

def JccForm.wellFormed (osz : Size) : JccForm → Bool
  | .jb _ => true
  | .jv imm => imm.wellFormed osz

def TestForm.wellFormed (osz asz : Size) : TestForm → Bool
  | .ebGb rm _ => rm.wellFormed asz
  | .evGv rm _ => rm.wellFormed asz
  | .alIb _ => true
  | .eaxIv imm => imm.wellFormed osz
  | .ebIb rm _ => rm.wellFormed asz
  | .evIv rm imm => rm.wellFormed asz && imm.wellFormed osz

def XchgForm.wellFormed (asz : Size) : XchgForm → Bool
  | .ebGb rm _ => rm.wellFormed asz
  | .evGv rm _ => rm.wellFormed asz
  | .eaxR r => r != 0

/-- The control registers that exist: CR0, CR2, CR3 (R49, D9). -/
def namesCr (n : Fin 8) : Bool := n == 0 || n == 2 || n == 3

/-- The debug registers that exist: DR0 to DR3, DR6, DR7 (R55, D9). -/
def namesDr (n : Fin 8) : Bool := n != 4 && n != 5

/-- The test registers that exist: TR6 and TR7 (R56, R259). -/
def namesTr (n : Fin 8) : Bool := n == 6 || n == 7

def MovForm.wellFormed (osz asz : Size) : MovForm → Bool
  | .ebGb rm _ => rm.wellFormed asz
  | .evGv rm _ => rm.wellFormed asz
  | .gbEb _ rm => rm.wellFormed asz
  | .gvEv _ rm => rm.wellFormed asz
  | .ewSw rm _ => rm.wellFormed asz
  | .swEw sr rm => sr.loadable && rm.wellFormed asz
  | .alOb off => off.wellFormed asz
  | .eaxOv off => off.wellFormed asz
  | .obAl off => off.wellFormed asz
  | .ovEax off => off.wellFormed asz
  | .r8Ib _ _ => true
  | .rIv _ imm => imm.wellFormed osz
  | .ebIb rm _ => rm.wellFormed asz
  | .evIv rm imm => rm.wellFormed asz && imm.wellFormed osz
  | .r32Cr _ n => namesCr n
  | .r32Dr _ n => namesDr n
  | .crR32 n _ => namesCr n
  | .drR32 n _ => namesDr n
  | .r32Tr _ n => namesTr n
  | .trR32 n _ => namesTr n

def CallForm.wellFormed (osz asz : Size) : CallForm → Bool
  | .farAp p => p.wellFormed osz
  | .jv imm => imm.wellFormed osz
  | .ev rm => rm.wellFormed asz
  | .farMp m => m.wellFormed asz

def ShiftForm.wellFormed (asz : Size) : ShiftForm → Bool
  | .ebIb rm _ => rm.wellFormed asz
  | .evIb rm _ => rm.wellFormed asz
  | .eb1 rm => rm.wellFormed asz
  | .ev1 rm => rm.wellFormed asz
  | .ebCl rm => rm.wellFormed asz
  | .evCl rm => rm.wellFormed asz

def FArithForm.wellFormed (asz : Size) : FArithForm → Bool
  | .m32 m => m.wellFormed asz
  | .stSti _ => true
  | .m64 m => m.wellFormed asz
  | .stiSt _ => true

def FComForm.wellFormed (asz : Size) : FComForm → Bool
  | .m32 m => m.wellFormed asz
  | .stSti _ => true
  | .m64 m => m.wellFormed asz

def FLoadForm.wellFormed (asz : Size) : FLoadForm → Bool
  | .m32 m => m.wellFormed asz
  | .sti _ => true
  | .m80 m => m.wellFormed asz
  | .m64 m => m.wellFormed asz

def ReservedForm.wellFormed (asz : Size) : ReservedForm → Bool
  | .d9M1 m => m.wellFormed asz
  | .dbM1 m => m.wellFormed asz
  | .dbM4 m => m.wellFormed asz
  | .dbM6 m => m.wellFormed asz
  | .ddM1 m => m.wellFormed asz
  | .ddM5 m => m.wellFormed asz
  | .dfM1 m => m.wellFormed asz

def FStoreForm.wellFormed (asz : Size) : FStoreForm → Bool
  | .m32 m => m.wellFormed asz
  | .m64 m => m.wellFormed asz
  | .sti _ => true

def FIntForm.wellFormed (asz : Size) : FIntForm → Bool
  | .m32 m => m.wellFormed asz
  | .m16 m => m.wellFormed asz

def FIntLoadForm.wellFormed (asz : Size) : FIntLoadForm → Bool
  | .m32 m => m.wellFormed asz
  | .m16 m => m.wellFormed asz
  | .m64 m => m.wellFormed asz

def JmpForm.wellFormed (osz asz : Size) : JmpForm → Bool
  | .jv imm => imm.wellFormed osz
  | .farAp p => p.wellFormed osz
  | .jb _ => true
  | .ev rm => rm.wellFormed asz
  | .farMp m => m.wellFormed asz

def UnaryForm.wellFormed (asz : Size) : UnaryForm → Bool
  | .eb rm => rm.wellFormed asz
  | .ev rm => rm.wellFormed asz

def BitForm.wellFormed (asz : Size) : BitForm → Bool
  | .evGv rm _ => rm.wellFormed asz
  | .evIb rm _ => rm.wellFormed asz

def ShdForm.wellFormed (asz : Size) : ShdForm → Bool
  | .evGvIb rm _ _ => rm.wellFormed asz
  | .evGvCl rm _ => rm.wellFormed asz

def MovxForm.wellFormed (asz : Size) : MovxForm → Bool
  | .gvEb _ rm => rm.wellFormed asz
  | .gvEw _ rm => rm.wellFormed asz

/-- Every operand of `i` is one the encoding can give under operand size `osz` and address size `asz`. -/
def Instr.wellFormed (osz asz : Size) : Instr → Bool
  | .add f => f.wellFormed osz asz
  | .or f => f.wellFormed osz asz
  | .adc f => f.wellFormed osz asz
  | .sbb f => f.wellFormed osz asz
  | .and f => f.wellFormed osz asz
  | .sub f => f.wellFormed osz asz
  | .xor f => f.wellFormed osz asz
  | .cmp f => f.wellFormed osz asz
  | .pushEs => true
  | .popEs => true
  | .pushCs => true
  | .pushSs => true
  | .popSs => true
  | .pushDs => true
  | .popDs => true
  | .daa => true
  | .das => true
  | .aaa => true
  | .aas => true
  | .inc f => f.wellFormed asz
  | .dec f => f.wellFormed asz
  | .push f => f.wellFormed osz asz
  | .pop f => f.wellFormed asz
  | .pusha => true
  | .popa => true
  | .bound _ m => m.wellFormed asz
  | .arpl rm _ => rm.wellFormed asz
  | .imul f => f.wellFormed osz asz
  | .insb => true
  | .inswD => true
  | .outsb => true
  | .outswD => true
  | .jo f => f.wellFormed osz
  | .jno f => f.wellFormed osz
  | .jb f => f.wellFormed osz
  | .jae f => f.wellFormed osz
  | .je f => f.wellFormed osz
  | .jne f => f.wellFormed osz
  | .jbe f => f.wellFormed osz
  | .ja f => f.wellFormed osz
  | .js f => f.wellFormed osz
  | .jns f => f.wellFormed osz
  | .jp f => f.wellFormed osz
  | .jnp f => f.wellFormed osz
  | .jl f => f.wellFormed osz
  | .jge f => f.wellFormed osz
  | .jle f => f.wellFormed osz
  | .jg f => f.wellFormed osz
  | .test f => f.wellFormed osz asz
  | .xchg f => f.wellFormed asz
  | .mov f => f.wellFormed osz asz
  | .lea _ m => m.wellFormed asz
  | .nop => true
  | .cbwCwde => true
  | .cwdCdq => true
  | .call f => f.wellFormed osz asz
  | .wait => true
  | .pushf => true
  | .popf => true
  | .sahf => true
  | .lahf => true
  | .movsb => true
  | .movswD => true
  | .cmpsb => true
  | .cmpswD => true
  | .stosb => true
  | .stoswD => true
  | .lodsb => true
  | .lodswD => true
  | .scasb => true
  | .scaswD => true
  | .rol f => f.wellFormed asz
  | .ror f => f.wellFormed asz
  | .rcl f => f.wellFormed asz
  | .rcr f => f.wellFormed asz
  | .shl f => f.wellFormed asz
  | .shr f => f.wellFormed asz
  | .sar f => f.wellFormed asz
  | .ret _ => true
  | .les _ m => m.wellFormed asz
  | .lds _ m => m.wellFormed asz
  | .enter _ _ => true
  | .leave => true
  | .int3 => true
  | .int _ => true
  | .into => true
  | .iret => true
  | .aam _ => true
  | .aad _ => true
  | .xlat => true
  | .fadd f => f.wellFormed asz
  | .fmul f => f.wellFormed asz
  | .fcom f => f.wellFormed asz
  | .fcomp f => f.wellFormed asz
  | .fsub f => f.wellFormed asz
  | .fsubr f => f.wellFormed asz
  | .fdiv f => f.wellFormed asz
  | .fdivr f => f.wellFormed asz
  | .fld f => f.wellFormed asz
  | .escReserved f => f.wellFormed asz
  | .fst f => f.wellFormed asz
  | .fstp f => f.wellFormed asz
  | .fldenv m => m.wellFormed asz
  | .fldcw m => m.wellFormed asz
  | .fnstenv m => m.wellFormed asz
  | .fnstcw m => m.wellFormed asz
  | .fxch _ => true
  | .fnop _ => true
  | .escD9D8 _ => true
  | .fchsGroup _ => true
  | .fld1Group _ => true
  | .f2xm1Group _ => true
  | .fpremGroup _ => true
  | .fiadd f => f.wellFormed asz
  | .fimul f => f.wellFormed asz
  | .ficom f => f.wellFormed asz
  | .ficomp f => f.wellFormed asz
  | .fisub f => f.wellFormed asz
  | .fisubr f => f.wellFormed asz
  | .fidiv f => f.wellFormed asz
  | .fidivr f => f.wellFormed asz
  | .escDaC0 _ => true
  | .escDaC8 _ => true
  | .escDaD0 _ => true
  | .escDaD8 _ => true
  | .escDaE0 _ => true
  | .fucompp _ => true
  | .escDaF0 _ => true
  | .escDaF8 _ => true
  | .fild f => f.wellFormed asz
  | .fist f => f.wellFormed asz
  | .fistp f => f.wellFormed asz
  | .escDbC0 _ => true
  | .escDbC8 _ => true
  | .escDbD0 _ => true
  | .escDbD8 _ => true
  | .feniGroup _ => true
  | .escDbE8 _ => true
  | .escDbF0 _ => true
  | .escDbF8 _ => true
  | .escDcD0 _ => true
  | .escDcD8 _ => true
  | .frstor m => m.wellFormed asz
  | .fnsave m => m.wellFormed asz
  | .fnstsw m => m.wellFormed asz
  | .ffree _ => true
  | .escDdC8 _ => true
  | .fucom _ => true
  | .fucomp _ => true
  | .escDdF0 _ => true
  | .escDdF8 _ => true
  | .faddp _ => true
  | .fmulp _ => true
  | .escDeD0 _ => true
  | .fcompp _ => true
  | .fsubrp _ => true
  | .fsubp _ => true
  | .fdivrp _ => true
  | .fdivp _ => true
  | .fbld m => m.wellFormed asz
  | .fbstp m => m.wellFormed asz
  | .escDfC0 _ => true
  | .escDfC8 _ => true
  | .escDfD0 _ => true
  | .escDfD8 _ => true
  | .fnstswAx _ => true
  | .escDfE8 _ => true
  | .escDfF0 _ => true
  | .escDfF8 _ => true
  | .loopne _ => true
  | .loope _ => true
  | .loop _ => true
  | .jcxz _ => true
  | .inPort _ => true
  | .outPort _ => true
  | .jmp f => f.wellFormed osz asz
  | .hlt => true
  | .cmc => true
  | .not f => f.wellFormed asz
  | .neg f => f.wellFormed asz
  | .mul f => f.wellFormed asz
  | .div f => f.wellFormed asz
  | .idiv f => f.wellFormed asz
  | .clc => true
  | .stc => true
  | .cli => true
  | .sti => true
  | .cld => true
  | .std => true
  | .sldt rm => rm.wellFormed asz
  | .str rm => rm.wellFormed asz
  | .lldt rm => rm.wellFormed asz
  | .ltr rm => rm.wellFormed asz
  | .verr rm => rm.wellFormed asz
  | .verw rm => rm.wellFormed asz
  | .sgdt m => m.wellFormed asz
  | .sidt m => m.wellFormed asz
  | .lgdt m => m.wellFormed asz
  | .lidt m => m.wellFormed asz
  | .smsw rm => rm.wellFormed asz
  | .lmsw rm => rm.wellFormed asz
  | .lar _ rm => rm.wellFormed asz
  | .lsl _ rm => rm.wellFormed asz
  | .clts => true
  | .seto rm => rm.wellFormed asz
  | .setno rm => rm.wellFormed asz
  | .setb rm => rm.wellFormed asz
  | .setae rm => rm.wellFormed asz
  | .sete rm => rm.wellFormed asz
  | .setne rm => rm.wellFormed asz
  | .setbe rm => rm.wellFormed asz
  | .seta rm => rm.wellFormed asz
  | .sets rm => rm.wellFormed asz
  | .setns rm => rm.wellFormed asz
  | .setp rm => rm.wellFormed asz
  | .setnp rm => rm.wellFormed asz
  | .setl rm => rm.wellFormed asz
  | .setge rm => rm.wellFormed asz
  | .setle rm => rm.wellFormed asz
  | .setg rm => rm.wellFormed asz
  | .pushFs => true
  | .popFs => true
  | .pushGs => true
  | .popGs => true
  | .bt f => f.wellFormed asz
  | .shld f => f.wellFormed asz
  | .xbts _ rm => rm.wellFormed asz
  | .ibts rm _ => rm.wellFormed asz
  | .bts f => f.wellFormed asz
  | .shrd f => f.wellFormed asz
  | .lss _ m => m.wellFormed asz
  | .btr f => f.wellFormed asz
  | .lfs _ m => m.wellFormed asz
  | .lgs _ m => m.wellFormed asz
  | .movzx f => f.wellFormed asz
  | .btc f => f.wellFormed asz
  | .bsf _ rm => rm.wellFormed asz
  | .bsr _ rm => rm.wellFormed asz
  | .movsx f => f.wellFormed asz
  | .prefixEs => true
  | .prefixCs => true
  | .prefixSs => true
  | .prefixDs => true
  | .prefixFs => true
  | .prefixGs => true
  | .prefixOpsize => true
  | .prefixAdsize => true
  | .prefixLock => true
  | .prefixRepne => true
  | .prefixRep => true

end Sys2Proof
end

