-- ==== Sys2Proof/Decode.lean ====
section
/-!
DEFINITION. Decoding (30_encoding.md R251 to R278) and, after it, the encoder. The decoder reads an instruction from a
list of bytes under given operand and address sizes; it answers `none` while bytes are missing, so that the fetch can go
byte by byte, and otherwise the instruction, or that the encoding is undefined (exception 6, R275) or one of the
undocumented ones that R275 leaves out of the spec (U9), with the bytes left over. Prefix bytes are instructions of their
own here (log entry 3).
-/
namespace Sys2Proof

/-- What an encoding stands for. -/
inductive Decoded where
  /-- An instruction of the table. -/
  | instr (i : Instr)
  /-- An encoding that raises exception 6 when its decoding is complete (R275). -/
  | invalid
  /-- An encoding real parts execute but no table lists (R275, U9). -/
  | undocumented
deriving DecidableEq, Repr

/-- The outcome of decoding: `none` when the bytes end too early, else what they stand for and the rest of them. -/
abbrev Parsed := Option (Decoded × List Byte)

/-- Three bits of a byte: `fieldAt b 3` is ModRM.reg or SIB.index, `fieldAt b 0` is ModRM.rm, SIB.base or `+r`. -/
def fieldAt (b : Byte) (low : Nat) : Fin 8 := Fin.ofNat 8 (b.toNat >>> low)

/-- Bits 7..6 of a byte: ModRM.mod or SIB.ss (R258, R261). -/
def topField (b : Byte) : Fin 4 := Fin.ofNat 4 (b.toNat >>> 6)

/-- A word from its two bytes, least significant first (R265). -/
def wordOf (b0 b1 : Byte) : Word16 := b1 ++ b0

/-- A double word from its four bytes, least significant first (R265). -/
def dwordOf (b0 b1 b2 b3 : Byte) : Word32 := b3 ++ b2 ++ b1 ++ b0

def withByte (bs : List Byte) (k : Byte → List Byte → Parsed) : Parsed :=
  match bs with
  | b :: bs => k b bs
  | [] => none

def withWord (bs : List Byte) (k : Word16 → List Byte → Parsed) : Parsed :=
  match bs with
  | b0 :: b1 :: bs => k (wordOf b0 b1) bs
  | _ => none

def withDword (bs : List Byte) (k : Word32 → List Byte → Parsed) : Parsed :=
  match bs with
  | b0 :: b1 :: b2 :: b3 :: bs => k (dwordOf b0 b1 b2 b3) bs
  | _ => none

/-- An operand of 2 or 4 bytes by a size attribute (R265 to R267). -/
def withImmV (sz : Size) (bs : List Byte) (k : ImmV → List Byte → Parsed) : Parsed :=
  match sz with
  | .s16 => withWord bs fun v bs => k (.w v) bs
  | .s32 => withDword bs fun v bs => k (.d v) bs

/-- `ptr16:v`: the offset, then the selector (R268). -/
def withFarPtr (osz : Size) (bs : List Byte) (k : FarPtr → List Byte → Parsed) : Parsed :=
  withImmV osz bs fun off bs => withWord bs fun sel bs => k { sel := sel, off := off } bs

/-- The base combination of `rm` in 16-bit addressing (R260). -/
def base16Of (rm : Fin 8) : Base16 :=
  match rm.val with
  | 0 => .bxSi
  | 1 => .bxDi
  | 2 => .bpSi
  | 3 => .bpDi
  | 4 => .si
  | 5 => .di
  | 6 => .bp
  | _ => .bx

/-- The memory operand of 16-bit addressing, mod = 0, 1, 2 (R260). -/
def withMem16 (mod rm : Nat) (b : Base16) (bs : List Byte) (k : MemOp → List Byte → Parsed) : Parsed :=
  match mod with
  | 0 => if rm = 6 then withWord bs fun d bs => k (.direct16 d) bs else k (.based16 b .none) bs
  | 1 => withByte bs fun d bs => k (.based16 b (.d8 d)) bs
  | _ => withWord bs fun d bs => k (.based16 b (.d16 d)) bs

/-- The displacement of 32-bit addressing with a base, mod = 0, 1, 2 (R261). -/
def withDisp32 (mod : Nat) (bs : List Byte) (k : Disp32 → List Byte → Parsed) : Parsed :=
  match mod with
  | 0 => k .none bs
  | 1 => withByte bs fun d bs => k (.d8 d) bs
  | _ => withDword bs fun d bs => k (.d32 d) bs

/-- The memory operand of 32-bit addressing, mod = 0, 1, 2 (R261): rm = 4 takes a SIB byte. -/
def withMem32 (mod : Nat) (rm : Fin 8) (bs : List Byte) (k : MemOp → List Byte → Parsed) : Parsed :=
  if rm = 4 then
    withByte bs fun sib bs =>
      if mod = 0 ∧ fieldAt sib 0 = 5 then
        withDword bs fun d bs => k (.sibDirect (topField sib) (fieldAt sib 3) d) bs
      else
        withDisp32 mod bs fun d bs => k (.sib (topField sib) (fieldAt sib 3) (fieldAt sib 0) d) bs
  else if mod = 0 ∧ rm = 5 then
    withDword bs fun d bs => k (.direct32 d) bs
  else
    withDisp32 mod bs fun d bs => k (.based32 rm d) bs

/-- The ModRM byte with its SIB byte and displacement: ModRM.reg and the r/m operand (R258). -/
def withModRM (asz : Size) (bs : List Byte) (k : Fin 8 → RM → List Byte → Parsed) : Parsed :=
  withByte bs fun b bs =>
    if topField b = 3 then k (fieldAt b 3) (.reg (fieldAt b 0)) bs
    else
      match asz with
      | .s16 => withMem16 (topField b).val (fieldAt b 0).val (base16Of (fieldAt b 0)) bs
          fun m bs => k (fieldAt b 3) (.mem m) bs
      | .s32 => withMem32 (topField b).val (fieldAt b 0) bs fun m bs => k (fieldAt b 3) (.mem m) bs


/-- The instruction `i` is read. -/
def done (i : Instr) (bs : List Byte) : Parsed := some (.instr i, bs)

/-- Exception 6 (R275). -/
def bad (bs : List Byte) : Parsed := some (.invalid, bs)

/-- Outside the spec (R275, U9). -/
def unlisted (bs : List Byte) : Parsed := some (.undocumented, bs)

/-- The ModRM byte of the moves to and from CRn, DRn, TRn: mod is ignored (R258), and a number that names no register is
exception 6 (R259, R275). -/
def withRegs (named : Fin 8 → Bool) (bs : List Byte) (k : Fin 8 → Fin 8 → List Byte → Parsed) : Parsed :=
  withByte bs fun b bs => if named (fieldAt b 3) then k (fieldAt b 3) (fieldAt b 0) bs else bad bs

/-- A register form where memory is required raises exception 6 (R258). -/
def withMem (rm : RM) (bs : List Byte) (k : MemOp → List Byte → Parsed) : Parsed :=
  match rm with
  | .mem m => k m bs
  | .reg _ => bad bs

/-- The segment register numbered 0 to 5; 6 and 7 raise exception 6 (R259). -/
def withSReg (reg : Fin 8) (bs : List Byte) (k : SReg → List Byte → Parsed) : Parsed :=
  match reg.val with
  | 0 => k .es bs
  | 1 => k .cs bs
  | 2 => k .ss bs
  | 3 => k .ds bs
  | 4 => k .fs bs
  | 5 => k .gs bs
  | _ => bad bs

/-- A segment register that MOV can load: CS raises exception 6 (R259). -/
def withLoadSReg (reg : Fin 8) (bs : List Byte) (k : SReg → List Byte → Parsed) : Parsed :=
  withSReg reg bs fun s bs => if s.loadable then k s bs else bad bs

/-- Opcodes 0F 00 to 0F 0F (R271, R272). -/
def map20 (_osz asz : Size) (b : Byte) (bs : List Byte) : Parsed :=
  match b.toNat % 16 with
  | 0 => withModRM asz bs fun reg rm bs =>
    match reg.val with
    | 0 => done (.sldt rm) bs
    | 1 => done (.str rm) bs
    | 2 => done (.lldt rm) bs
    | 3 => done (.ltr rm) bs
    | 4 => done (.verr rm) bs
    | 5 => done (.verw rm) bs
    | 6 => bad bs
    | _ => bad bs
  | 1 => withModRM asz bs fun reg rm bs =>
    match reg.val with
    | 0 => withMem rm bs fun m bs => done (.sgdt m) bs
    | 1 => withMem rm bs fun m bs => done (.sidt m) bs
    | 2 => withMem rm bs fun m bs => done (.lgdt m) bs
    | 3 => withMem rm bs fun m bs => done (.lidt m) bs
    | 4 => done (.smsw rm) bs
    | 5 => bad bs
    | 6 => done (.lmsw rm) bs
    | _ => bad bs
  | 2 => withModRM asz bs fun reg rm bs => done (.lar reg rm) bs
  | 3 => withModRM asz bs fun reg rm bs => done (.lsl reg rm) bs
  | 4 => bad bs
  | 5 => unlisted bs
  | 6 => done .clts bs
  | 7 => unlisted bs
  | 8 => bad bs
  | 9 => bad bs
  | 10 => bad bs
  | 11 => bad bs
  | 12 => bad bs
  | 13 => bad bs
  | 14 => bad bs
  | _ => bad bs

/-- Opcodes 0F 10 to 0F 1F (R271, R272). -/
def map21 (_osz _asz : Size) (b : Byte) (bs : List Byte) : Parsed :=
  match b.toNat % 16 with
  | 0 => unlisted bs
  | 1 => unlisted bs
  | 2 => unlisted bs
  | 3 => unlisted bs
  | 4 => bad bs
  | 5 => bad bs
  | 6 => bad bs
  | 7 => bad bs
  | 8 => bad bs
  | 9 => bad bs
  | 10 => bad bs
  | 11 => bad bs
  | 12 => bad bs
  | 13 => bad bs
  | 14 => bad bs
  | _ => bad bs

/-- Opcodes 0F 20 to 0F 2F (R271, R272). -/
def map22 (_osz _asz : Size) (b : Byte) (bs : List Byte) : Parsed :=
  match b.toNat % 16 with
  | 0 => withRegs namesCr bs fun reg rm bs => done (.mov (.r32Cr rm reg)) bs
  | 1 => withRegs namesDr bs fun reg rm bs => done (.mov (.r32Dr rm reg)) bs
  | 2 => withRegs namesCr bs fun reg rm bs => done (.mov (.crR32 reg rm)) bs
  | 3 => withRegs namesDr bs fun reg rm bs => done (.mov (.drR32 reg rm)) bs
  | 4 => withRegs namesTr bs fun reg rm bs => done (.mov (.r32Tr rm reg)) bs
  | 5 => bad bs
  | 6 => withRegs namesTr bs fun reg rm bs => done (.mov (.trR32 reg rm)) bs
  | 7 => bad bs
  | 8 => bad bs
  | 9 => bad bs
  | 10 => bad bs
  | 11 => bad bs
  | 12 => bad bs
  | 13 => bad bs
  | 14 => bad bs
  | _ => bad bs

/-- Opcodes 0F 80 to 0F 8F (R271, R272). -/
def map28 (osz _asz : Size) (b : Byte) (bs : List Byte) : Parsed :=
  match b.toNat % 16 with
  | 0 => withImmV osz bs fun imm bs => done (.jo (.jv imm)) bs
  | 1 => withImmV osz bs fun imm bs => done (.jno (.jv imm)) bs
  | 2 => withImmV osz bs fun imm bs => done (.jb (.jv imm)) bs
  | 3 => withImmV osz bs fun imm bs => done (.jae (.jv imm)) bs
  | 4 => withImmV osz bs fun imm bs => done (.je (.jv imm)) bs
  | 5 => withImmV osz bs fun imm bs => done (.jne (.jv imm)) bs
  | 6 => withImmV osz bs fun imm bs => done (.jbe (.jv imm)) bs
  | 7 => withImmV osz bs fun imm bs => done (.ja (.jv imm)) bs
  | 8 => withImmV osz bs fun imm bs => done (.js (.jv imm)) bs
  | 9 => withImmV osz bs fun imm bs => done (.jns (.jv imm)) bs
  | 10 => withImmV osz bs fun imm bs => done (.jp (.jv imm)) bs
  | 11 => withImmV osz bs fun imm bs => done (.jnp (.jv imm)) bs
  | 12 => withImmV osz bs fun imm bs => done (.jl (.jv imm)) bs
  | 13 => withImmV osz bs fun imm bs => done (.jge (.jv imm)) bs
  | 14 => withImmV osz bs fun imm bs => done (.jle (.jv imm)) bs
  | _ => withImmV osz bs fun imm bs => done (.jg (.jv imm)) bs

/-- Opcodes 0F 90 to 0F 9F (R271, R272). -/
def map29 (_osz asz : Size) (b : Byte) (bs : List Byte) : Parsed :=
  match b.toNat % 16 with
  | 0 => withModRM asz bs fun _ rm bs => done (.seto rm) bs
  | 1 => withModRM asz bs fun _ rm bs => done (.setno rm) bs
  | 2 => withModRM asz bs fun _ rm bs => done (.setb rm) bs
  | 3 => withModRM asz bs fun _ rm bs => done (.setae rm) bs
  | 4 => withModRM asz bs fun _ rm bs => done (.sete rm) bs
  | 5 => withModRM asz bs fun _ rm bs => done (.setne rm) bs
  | 6 => withModRM asz bs fun _ rm bs => done (.setbe rm) bs
  | 7 => withModRM asz bs fun _ rm bs => done (.seta rm) bs
  | 8 => withModRM asz bs fun _ rm bs => done (.sets rm) bs
  | 9 => withModRM asz bs fun _ rm bs => done (.setns rm) bs
  | 10 => withModRM asz bs fun _ rm bs => done (.setp rm) bs
  | 11 => withModRM asz bs fun _ rm bs => done (.setnp rm) bs
  | 12 => withModRM asz bs fun _ rm bs => done (.setl rm) bs
  | 13 => withModRM asz bs fun _ rm bs => done (.setge rm) bs
  | 14 => withModRM asz bs fun _ rm bs => done (.setle rm) bs
  | _ => withModRM asz bs fun _ rm bs => done (.setg rm) bs

/-- Opcodes 0F A0 to 0F AF (R271, R272). -/
def map2A (_osz asz : Size) (b : Byte) (bs : List Byte) : Parsed :=
  match b.toNat % 16 with
  | 0 => done .pushFs bs
  | 1 => done .popFs bs
  | 2 => bad bs
  | 3 => withModRM asz bs fun reg rm bs => done (.bt (.evGv rm reg)) bs
  | 4 => withModRM asz bs fun reg rm bs => withByte bs fun imm bs => done (.shld (.evGvIb rm reg imm)) bs
  | 5 => withModRM asz bs fun reg rm bs => done (.shld (.evGvCl rm reg)) bs
  | 6 => withModRM asz bs fun reg rm bs => done (.xbts reg rm) bs
  | 7 => withModRM asz bs fun reg rm bs => done (.ibts rm reg) bs
  | 8 => done .pushGs bs
  | 9 => done .popGs bs
  | 10 => bad bs
  | 11 => withModRM asz bs fun reg rm bs => done (.bts (.evGv rm reg)) bs
  | 12 => withModRM asz bs fun reg rm bs => withByte bs fun imm bs => done (.shrd (.evGvIb rm reg imm)) bs
  | 13 => withModRM asz bs fun reg rm bs => done (.shrd (.evGvCl rm reg)) bs
  | 14 => bad bs
  | _ => withModRM asz bs fun reg rm bs => done (.imul (.gvEv reg rm)) bs

/-- Opcodes 0F B0 to 0F BF (R271, R272). The undefined members of 0F BA have the immediate of their opcode, fetched before
exception 6 (R278); that they have one is the model's choice (log entry 34, DEDUCED). -/
def map2B (_osz asz : Size) (b : Byte) (bs : List Byte) : Parsed :=
  match b.toNat % 16 with
  | 0 => bad bs
  | 1 => bad bs
  | 2 => withModRM asz bs fun reg rm bs => withMem rm bs fun m bs => done (.lss reg m) bs
  | 3 => withModRM asz bs fun reg rm bs => done (.btr (.evGv rm reg)) bs
  | 4 => withModRM asz bs fun reg rm bs => withMem rm bs fun m bs => done (.lfs reg m) bs
  | 5 => withModRM asz bs fun reg rm bs => withMem rm bs fun m bs => done (.lgs reg m) bs
  | 6 => withModRM asz bs fun reg rm bs => done (.movzx (.gvEb reg rm)) bs
  | 7 => withModRM asz bs fun reg rm bs => done (.movzx (.gvEw reg rm)) bs
  | 8 => bad bs
  | 9 => bad bs
  | 10 => withModRM asz bs fun reg rm bs =>
    match reg.val with
    | 0 => withByte bs fun _ bs => bad bs
    | 1 => withByte bs fun _ bs => bad bs
    | 2 => withByte bs fun _ bs => bad bs
    | 3 => withByte bs fun _ bs => bad bs
    | 4 => withByte bs fun imm bs => done (.bt (.evIb rm imm)) bs
    | 5 => withByte bs fun imm bs => done (.bts (.evIb rm imm)) bs
    | 6 => withByte bs fun imm bs => done (.btr (.evIb rm imm)) bs
    | _ => withByte bs fun imm bs => done (.btc (.evIb rm imm)) bs
  | 11 => withModRM asz bs fun reg rm bs => done (.btc (.evGv rm reg)) bs
  | 12 => withModRM asz bs fun reg rm bs => done (.bsf reg rm) bs
  | 13 => withModRM asz bs fun reg rm bs => done (.bsr reg rm) bs
  | 14 => withModRM asz bs fun reg rm bs => done (.movsx (.gvEb reg rm)) bs
  | _ => withModRM asz bs fun reg rm bs => done (.movsx (.gvEw reg rm)) bs

/-- The two-byte map: the byte after 0F (R271). -/
def decode2 (osz asz : Size) (b : Byte) (bs : List Byte) : Parsed :=
  match b.toNat / 16 with
  | 0 => map20 osz asz b bs
  | 1 => map21 osz asz b bs
  | 2 => map22 osz asz b bs
  | 8 => map28 osz asz b bs
  | 9 => map29 osz asz b bs
  | 10 => map2A osz asz b bs
  | 11 => map2B osz asz b bs
  | _ => bad bs

/-- Opcodes 00 to 0F (R270, R272, R273). -/
def map10 (osz asz : Size) (b : Byte) (bs : List Byte) : Parsed :=
  match b.toNat % 16 with
  | 0 => withModRM asz bs fun reg rm bs => done (.add (.ebGb rm reg)) bs
  | 1 => withModRM asz bs fun reg rm bs => done (.add (.evGv rm reg)) bs
  | 2 => withModRM asz bs fun reg rm bs => done (.add (.gbEb reg rm)) bs
  | 3 => withModRM asz bs fun reg rm bs => done (.add (.gvEv reg rm)) bs
  | 4 => withByte bs fun imm bs => done (.add (.alIb imm)) bs
  | 5 => withImmV osz bs fun imm bs => done (.add (.eaxIv imm)) bs
  | 6 => done .pushEs bs
  | 7 => done .popEs bs
  | 8 => withModRM asz bs fun reg rm bs => done (.or (.ebGb rm reg)) bs
  | 9 => withModRM asz bs fun reg rm bs => done (.or (.evGv rm reg)) bs
  | 10 => withModRM asz bs fun reg rm bs => done (.or (.gbEb reg rm)) bs
  | 11 => withModRM asz bs fun reg rm bs => done (.or (.gvEv reg rm)) bs
  | 12 => withByte bs fun imm bs => done (.or (.alIb imm)) bs
  | 13 => withImmV osz bs fun imm bs => done (.or (.eaxIv imm)) bs
  | 14 => done .pushCs bs
  | _ => withByte bs fun b bs => decode2 osz asz b bs

/-- Opcodes 10 to 1F (R270, R272, R273). -/
def map11 (osz asz : Size) (b : Byte) (bs : List Byte) : Parsed :=
  match b.toNat % 16 with
  | 0 => withModRM asz bs fun reg rm bs => done (.adc (.ebGb rm reg)) bs
  | 1 => withModRM asz bs fun reg rm bs => done (.adc (.evGv rm reg)) bs
  | 2 => withModRM asz bs fun reg rm bs => done (.adc (.gbEb reg rm)) bs
  | 3 => withModRM asz bs fun reg rm bs => done (.adc (.gvEv reg rm)) bs
  | 4 => withByte bs fun imm bs => done (.adc (.alIb imm)) bs
  | 5 => withImmV osz bs fun imm bs => done (.adc (.eaxIv imm)) bs
  | 6 => done .pushSs bs
  | 7 => done .popSs bs
  | 8 => withModRM asz bs fun reg rm bs => done (.sbb (.ebGb rm reg)) bs
  | 9 => withModRM asz bs fun reg rm bs => done (.sbb (.evGv rm reg)) bs
  | 10 => withModRM asz bs fun reg rm bs => done (.sbb (.gbEb reg rm)) bs
  | 11 => withModRM asz bs fun reg rm bs => done (.sbb (.gvEv reg rm)) bs
  | 12 => withByte bs fun imm bs => done (.sbb (.alIb imm)) bs
  | 13 => withImmV osz bs fun imm bs => done (.sbb (.eaxIv imm)) bs
  | 14 => done .pushDs bs
  | _ => done .popDs bs

/-- Opcodes 20 to 2F (R270, R272, R273). -/
def map12 (osz asz : Size) (b : Byte) (bs : List Byte) : Parsed :=
  match b.toNat % 16 with
  | 0 => withModRM asz bs fun reg rm bs => done (.and (.ebGb rm reg)) bs
  | 1 => withModRM asz bs fun reg rm bs => done (.and (.evGv rm reg)) bs
  | 2 => withModRM asz bs fun reg rm bs => done (.and (.gbEb reg rm)) bs
  | 3 => withModRM asz bs fun reg rm bs => done (.and (.gvEv reg rm)) bs
  | 4 => withByte bs fun imm bs => done (.and (.alIb imm)) bs
  | 5 => withImmV osz bs fun imm bs => done (.and (.eaxIv imm)) bs
  | 6 => done .prefixEs bs
  | 7 => done .daa bs
  | 8 => withModRM asz bs fun reg rm bs => done (.sub (.ebGb rm reg)) bs
  | 9 => withModRM asz bs fun reg rm bs => done (.sub (.evGv rm reg)) bs
  | 10 => withModRM asz bs fun reg rm bs => done (.sub (.gbEb reg rm)) bs
  | 11 => withModRM asz bs fun reg rm bs => done (.sub (.gvEv reg rm)) bs
  | 12 => withByte bs fun imm bs => done (.sub (.alIb imm)) bs
  | 13 => withImmV osz bs fun imm bs => done (.sub (.eaxIv imm)) bs
  | 14 => done .prefixCs bs
  | _ => done .das bs

/-- Opcodes 30 to 3F (R270, R272, R273). -/
def map13 (osz asz : Size) (b : Byte) (bs : List Byte) : Parsed :=
  match b.toNat % 16 with
  | 0 => withModRM asz bs fun reg rm bs => done (.xor (.ebGb rm reg)) bs
  | 1 => withModRM asz bs fun reg rm bs => done (.xor (.evGv rm reg)) bs
  | 2 => withModRM asz bs fun reg rm bs => done (.xor (.gbEb reg rm)) bs
  | 3 => withModRM asz bs fun reg rm bs => done (.xor (.gvEv reg rm)) bs
  | 4 => withByte bs fun imm bs => done (.xor (.alIb imm)) bs
  | 5 => withImmV osz bs fun imm bs => done (.xor (.eaxIv imm)) bs
  | 6 => done .prefixSs bs
  | 7 => done .aaa bs
  | 8 => withModRM asz bs fun reg rm bs => done (.cmp (.ebGb rm reg)) bs
  | 9 => withModRM asz bs fun reg rm bs => done (.cmp (.evGv rm reg)) bs
  | 10 => withModRM asz bs fun reg rm bs => done (.cmp (.gbEb reg rm)) bs
  | 11 => withModRM asz bs fun reg rm bs => done (.cmp (.gvEv reg rm)) bs
  | 12 => withByte bs fun imm bs => done (.cmp (.alIb imm)) bs
  | 13 => withImmV osz bs fun imm bs => done (.cmp (.eaxIv imm)) bs
  | 14 => done .prefixDs bs
  | _ => done .aas bs

/-- Opcodes 40 to 4F (R270, R272, R273). -/
def map14 (_osz _asz : Size) (b : Byte) (bs : List Byte) : Parsed :=
  match b.toNat % 16 with
  | 0 => done (.inc (.r (fieldAt b 0))) bs
  | 1 => done (.inc (.r (fieldAt b 0))) bs
  | 2 => done (.inc (.r (fieldAt b 0))) bs
  | 3 => done (.inc (.r (fieldAt b 0))) bs
  | 4 => done (.inc (.r (fieldAt b 0))) bs
  | 5 => done (.inc (.r (fieldAt b 0))) bs
  | 6 => done (.inc (.r (fieldAt b 0))) bs
  | 7 => done (.inc (.r (fieldAt b 0))) bs
  | 8 => done (.dec (.r (fieldAt b 0))) bs
  | 9 => done (.dec (.r (fieldAt b 0))) bs
  | 10 => done (.dec (.r (fieldAt b 0))) bs
  | 11 => done (.dec (.r (fieldAt b 0))) bs
  | 12 => done (.dec (.r (fieldAt b 0))) bs
  | 13 => done (.dec (.r (fieldAt b 0))) bs
  | 14 => done (.dec (.r (fieldAt b 0))) bs
  | _ => done (.dec (.r (fieldAt b 0))) bs

/-- Opcodes 50 to 5F (R270, R272, R273). -/
def map15 (_osz _asz : Size) (b : Byte) (bs : List Byte) : Parsed :=
  match b.toNat % 16 with
  | 0 => done (.push (.r (fieldAt b 0))) bs
  | 1 => done (.push (.r (fieldAt b 0))) bs
  | 2 => done (.push (.r (fieldAt b 0))) bs
  | 3 => done (.push (.r (fieldAt b 0))) bs
  | 4 => done (.push (.r (fieldAt b 0))) bs
  | 5 => done (.push (.r (fieldAt b 0))) bs
  | 6 => done (.push (.r (fieldAt b 0))) bs
  | 7 => done (.push (.r (fieldAt b 0))) bs
  | 8 => done (.pop (.r (fieldAt b 0))) bs
  | 9 => done (.pop (.r (fieldAt b 0))) bs
  | 10 => done (.pop (.r (fieldAt b 0))) bs
  | 11 => done (.pop (.r (fieldAt b 0))) bs
  | 12 => done (.pop (.r (fieldAt b 0))) bs
  | 13 => done (.pop (.r (fieldAt b 0))) bs
  | 14 => done (.pop (.r (fieldAt b 0))) bs
  | _ => done (.pop (.r (fieldAt b 0))) bs

/-- Opcodes 60 to 6F (R270, R272, R273). -/
def map16 (osz asz : Size) (b : Byte) (bs : List Byte) : Parsed :=
  match b.toNat % 16 with
  | 0 => done .pusha bs
  | 1 => done .popa bs
  | 2 => withModRM asz bs fun reg rm bs => withMem rm bs fun m bs => done (.bound reg m) bs
  | 3 => withModRM asz bs fun reg rm bs => done (.arpl rm reg) bs
  | 4 => done .prefixFs bs
  | 5 => done .prefixGs bs
  | 6 => done .prefixOpsize bs
  | 7 => done .prefixAdsize bs
  | 8 => withImmV osz bs fun imm bs => done (.push (.iv imm)) bs
  | 9 => withModRM asz bs fun reg rm bs => withImmV osz bs fun imm bs => done (.imul (.gvEvIv reg rm imm)) bs
  | 10 => withByte bs fun imm bs => done (.push (.ibs imm)) bs
  | 11 => withModRM asz bs fun reg rm bs => withByte bs fun imm bs => done (.imul (.gvEvIbs reg rm imm)) bs
  | 12 => done .insb bs
  | 13 => done .inswD bs
  | 14 => done .outsb bs
  | _ => done .outswD bs

/-- Opcodes 70 to 7F (R270, R272, R273). -/
def map17 (_osz _asz : Size) (b : Byte) (bs : List Byte) : Parsed :=
  match b.toNat % 16 with
  | 0 => withByte bs fun imm bs => done (.jo (.jb imm)) bs
  | 1 => withByte bs fun imm bs => done (.jno (.jb imm)) bs
  | 2 => withByte bs fun imm bs => done (.jb (.jb imm)) bs
  | 3 => withByte bs fun imm bs => done (.jae (.jb imm)) bs
  | 4 => withByte bs fun imm bs => done (.je (.jb imm)) bs
  | 5 => withByte bs fun imm bs => done (.jne (.jb imm)) bs
  | 6 => withByte bs fun imm bs => done (.jbe (.jb imm)) bs
  | 7 => withByte bs fun imm bs => done (.ja (.jb imm)) bs
  | 8 => withByte bs fun imm bs => done (.js (.jb imm)) bs
  | 9 => withByte bs fun imm bs => done (.jns (.jb imm)) bs
  | 10 => withByte bs fun imm bs => done (.jp (.jb imm)) bs
  | 11 => withByte bs fun imm bs => done (.jnp (.jb imm)) bs
  | 12 => withByte bs fun imm bs => done (.jl (.jb imm)) bs
  | 13 => withByte bs fun imm bs => done (.jge (.jb imm)) bs
  | 14 => withByte bs fun imm bs => done (.jle (.jb imm)) bs
  | _ => withByte bs fun imm bs => done (.jg (.jb imm)) bs

/-- Opcodes 80 to 8F (R270, R272, R273). -/
def map18 (osz asz : Size) (b : Byte) (bs : List Byte) : Parsed :=
  match b.toNat % 16 with
  | 0 => withModRM asz bs fun reg rm bs =>
    match reg.val with
    | 0 => withByte bs fun imm bs => done (.add (.ebIb rm imm)) bs
    | 1 => withByte bs fun imm bs => done (.or (.ebIb rm imm)) bs
    | 2 => withByte bs fun imm bs => done (.adc (.ebIb rm imm)) bs
    | 3 => withByte bs fun imm bs => done (.sbb (.ebIb rm imm)) bs
    | 4 => withByte bs fun imm bs => done (.and (.ebIb rm imm)) bs
    | 5 => withByte bs fun imm bs => done (.sub (.ebIb rm imm)) bs
    | 6 => withByte bs fun imm bs => done (.xor (.ebIb rm imm)) bs
    | _ => withByte bs fun imm bs => done (.cmp (.ebIb rm imm)) bs
  | 1 => withModRM asz bs fun reg rm bs =>
    match reg.val with
    | 0 => withImmV osz bs fun imm bs => done (.add (.evIv rm imm)) bs
    | 1 => withImmV osz bs fun imm bs => done (.or (.evIv rm imm)) bs
    | 2 => withImmV osz bs fun imm bs => done (.adc (.evIv rm imm)) bs
    | 3 => withImmV osz bs fun imm bs => done (.sbb (.evIv rm imm)) bs
    | 4 => withImmV osz bs fun imm bs => done (.and (.evIv rm imm)) bs
    | 5 => withImmV osz bs fun imm bs => done (.sub (.evIv rm imm)) bs
    | 6 => withImmV osz bs fun imm bs => done (.xor (.evIv rm imm)) bs
    | _ => withImmV osz bs fun imm bs => done (.cmp (.evIv rm imm)) bs
  | 2 => unlisted bs
  | 3 => withModRM asz bs fun reg rm bs =>
    match reg.val with
    | 0 => withByte bs fun imm bs => done (.add (.evIbs rm imm)) bs
    | 1 => withByte bs fun imm bs => done (.or (.evIbs rm imm)) bs
    | 2 => withByte bs fun imm bs => done (.adc (.evIbs rm imm)) bs
    | 3 => withByte bs fun imm bs => done (.sbb (.evIbs rm imm)) bs
    | 4 => withByte bs fun imm bs => done (.and (.evIbs rm imm)) bs
    | 5 => withByte bs fun imm bs => done (.sub (.evIbs rm imm)) bs
    | 6 => withByte bs fun imm bs => done (.xor (.evIbs rm imm)) bs
    | _ => withByte bs fun imm bs => done (.cmp (.evIbs rm imm)) bs
  | 4 => withModRM asz bs fun reg rm bs => done (.test (.ebGb rm reg)) bs
  | 5 => withModRM asz bs fun reg rm bs => done (.test (.evGv rm reg)) bs
  | 6 => withModRM asz bs fun reg rm bs => done (.xchg (.ebGb rm reg)) bs
  | 7 => withModRM asz bs fun reg rm bs => done (.xchg (.evGv rm reg)) bs
  | 8 => withModRM asz bs fun reg rm bs => done (.mov (.ebGb rm reg)) bs
  | 9 => withModRM asz bs fun reg rm bs => done (.mov (.evGv rm reg)) bs
  | 10 => withModRM asz bs fun reg rm bs => done (.mov (.gbEb reg rm)) bs
  | 11 => withModRM asz bs fun reg rm bs => done (.mov (.gvEv reg rm)) bs
  | 12 => withModRM asz bs fun reg rm bs => withSReg reg bs fun sr bs => done (.mov (.ewSw rm sr)) bs
  | 13 => withModRM asz bs fun reg rm bs => withMem rm bs fun m bs => done (.lea reg m) bs
  | 14 => withModRM asz bs fun reg rm bs => withLoadSReg reg bs fun sr bs => done (.mov (.swEw sr rm)) bs
  | _ => withModRM asz bs fun reg rm bs =>
    match reg.val with
    | 0 => done (.pop (.ev rm)) bs
    | 1 => bad bs
    | 2 => bad bs
    | 3 => bad bs
    | 4 => bad bs
    | 5 => bad bs
    | 6 => bad bs
    | _ => bad bs

/-- Opcodes 90 to 9F (R270, R272, R273). -/
def map19 (osz _asz : Size) (b : Byte) (bs : List Byte) : Parsed :=
  match b.toNat % 16 with
  | 0 => done .nop bs
  | 1 => done (.xchg (.eaxR (fieldAt b 0))) bs
  | 2 => done (.xchg (.eaxR (fieldAt b 0))) bs
  | 3 => done (.xchg (.eaxR (fieldAt b 0))) bs
  | 4 => done (.xchg (.eaxR (fieldAt b 0))) bs
  | 5 => done (.xchg (.eaxR (fieldAt b 0))) bs
  | 6 => done (.xchg (.eaxR (fieldAt b 0))) bs
  | 7 => done (.xchg (.eaxR (fieldAt b 0))) bs
  | 8 => done .cbwCwde bs
  | 9 => done .cwdCdq bs
  | 10 => withFarPtr osz bs fun p bs => done (.call (.farAp p)) bs
  | 11 => done .wait bs
  | 12 => done .pushf bs
  | 13 => done .popf bs
  | 14 => done .sahf bs
  | _ => done .lahf bs

/-- Opcodes A0 to AF (R270, R272, R273). -/
def map1A (osz asz : Size) (b : Byte) (bs : List Byte) : Parsed :=
  match b.toNat % 16 with
  | 0 => withImmV asz bs fun off bs => done (.mov (.alOb off)) bs
  | 1 => withImmV asz bs fun off bs => done (.mov (.eaxOv off)) bs
  | 2 => withImmV asz bs fun off bs => done (.mov (.obAl off)) bs
  | 3 => withImmV asz bs fun off bs => done (.mov (.ovEax off)) bs
  | 4 => done .movsb bs
  | 5 => done .movswD bs
  | 6 => done .cmpsb bs
  | 7 => done .cmpswD bs
  | 8 => withByte bs fun imm bs => done (.test (.alIb imm)) bs
  | 9 => withImmV osz bs fun imm bs => done (.test (.eaxIv imm)) bs
  | 10 => done .stosb bs
  | 11 => done .stoswD bs
  | 12 => done .lodsb bs
  | 13 => done .lodswD bs
  | 14 => done .scasb bs
  | _ => done .scaswD bs

/-- Opcodes B0 to BF (R270, R272, R273). -/
def map1B (osz _asz : Size) (b : Byte) (bs : List Byte) : Parsed :=
  match b.toNat % 16 with
  | 0 => withByte bs fun imm bs => done (.mov (.r8Ib (fieldAt b 0) imm)) bs
  | 1 => withByte bs fun imm bs => done (.mov (.r8Ib (fieldAt b 0) imm)) bs
  | 2 => withByte bs fun imm bs => done (.mov (.r8Ib (fieldAt b 0) imm)) bs
  | 3 => withByte bs fun imm bs => done (.mov (.r8Ib (fieldAt b 0) imm)) bs
  | 4 => withByte bs fun imm bs => done (.mov (.r8Ib (fieldAt b 0) imm)) bs
  | 5 => withByte bs fun imm bs => done (.mov (.r8Ib (fieldAt b 0) imm)) bs
  | 6 => withByte bs fun imm bs => done (.mov (.r8Ib (fieldAt b 0) imm)) bs
  | 7 => withByte bs fun imm bs => done (.mov (.r8Ib (fieldAt b 0) imm)) bs
  | 8 => withImmV osz bs fun imm bs => done (.mov (.rIv (fieldAt b 0) imm)) bs
  | 9 => withImmV osz bs fun imm bs => done (.mov (.rIv (fieldAt b 0) imm)) bs
  | 10 => withImmV osz bs fun imm bs => done (.mov (.rIv (fieldAt b 0) imm)) bs
  | 11 => withImmV osz bs fun imm bs => done (.mov (.rIv (fieldAt b 0) imm)) bs
  | 12 => withImmV osz bs fun imm bs => done (.mov (.rIv (fieldAt b 0) imm)) bs
  | 13 => withImmV osz bs fun imm bs => done (.mov (.rIv (fieldAt b 0) imm)) bs
  | 14 => withImmV osz bs fun imm bs => done (.mov (.rIv (fieldAt b 0) imm)) bs
  | _ => withImmV osz bs fun imm bs => done (.mov (.rIv (fieldAt b 0) imm)) bs

/-- Opcodes C0 to CF (R270, R272, R273). The undefined members of C6 and C7 have the immediate of their opcode, fetched
before exception 6 (R278); that they have one is the model's choice (log entry 34, DEDUCED). -/
def map1C (osz asz : Size) (b : Byte) (bs : List Byte) : Parsed :=
  match b.toNat % 16 with
  | 0 => withModRM asz bs fun reg rm bs =>
    match reg.val with
    | 0 => withByte bs fun imm bs => done (.rol (.ebIb rm imm)) bs
    | 1 => withByte bs fun imm bs => done (.ror (.ebIb rm imm)) bs
    | 2 => withByte bs fun imm bs => done (.rcl (.ebIb rm imm)) bs
    | 3 => withByte bs fun imm bs => done (.rcr (.ebIb rm imm)) bs
    | 4 => withByte bs fun imm bs => done (.shl (.ebIb rm imm)) bs
    | 5 => withByte bs fun imm bs => done (.shr (.ebIb rm imm)) bs
    | 6 => unlisted bs
    | _ => withByte bs fun imm bs => done (.sar (.ebIb rm imm)) bs
  | 1 => withModRM asz bs fun reg rm bs =>
    match reg.val with
    | 0 => withByte bs fun imm bs => done (.rol (.evIb rm imm)) bs
    | 1 => withByte bs fun imm bs => done (.ror (.evIb rm imm)) bs
    | 2 => withByte bs fun imm bs => done (.rcl (.evIb rm imm)) bs
    | 3 => withByte bs fun imm bs => done (.rcr (.evIb rm imm)) bs
    | 4 => withByte bs fun imm bs => done (.shl (.evIb rm imm)) bs
    | 5 => withByte bs fun imm bs => done (.shr (.evIb rm imm)) bs
    | 6 => unlisted bs
    | _ => withByte bs fun imm bs => done (.sar (.evIb rm imm)) bs
  | 2 => withWord bs fun imm bs => done (.ret (.nearIw imm)) bs
  | 3 => done (.ret .near) bs
  | 4 => withModRM asz bs fun reg rm bs => withMem rm bs fun m bs => done (.les reg m) bs
  | 5 => withModRM asz bs fun reg rm bs => withMem rm bs fun m bs => done (.lds reg m) bs
  | 6 => withModRM asz bs fun reg rm bs =>
    match reg.val with
    | 0 => withByte bs fun imm bs => done (.mov (.ebIb rm imm)) bs
    | 1 => withByte bs fun _ bs => bad bs
    | 2 => withByte bs fun _ bs => bad bs
    | 3 => withByte bs fun _ bs => bad bs
    | 4 => withByte bs fun _ bs => bad bs
    | 5 => withByte bs fun _ bs => bad bs
    | 6 => withByte bs fun _ bs => bad bs
    | _ => withByte bs fun _ bs => bad bs
  | 7 => withModRM asz bs fun reg rm bs =>
    match reg.val with
    | 0 => withImmV osz bs fun imm bs => done (.mov (.evIv rm imm)) bs
    | 1 => withImmV osz bs fun _ bs => bad bs
    | 2 => withImmV osz bs fun _ bs => bad bs
    | 3 => withImmV osz bs fun _ bs => bad bs
    | 4 => withImmV osz bs fun _ bs => bad bs
    | 5 => withImmV osz bs fun _ bs => bad bs
    | 6 => withImmV osz bs fun _ bs => bad bs
    | _ => withImmV osz bs fun _ bs => bad bs
  | 8 => withWord bs fun imm bs => withByte bs fun imm2 bs => done (.enter imm imm2) bs
  | 9 => done .leave bs
  | 10 => withWord bs fun imm bs => done (.ret (.farIw imm)) bs
  | 11 => done (.ret .far) bs
  | 12 => done .int3 bs
  | 13 => withByte bs fun imm bs => done (.int imm) bs
  | 14 => done .into bs
  | _ => done .iret bs

/-- Opcodes D0 to DF (R270, R272, R273). -/
def map1D (_osz asz : Size) (b : Byte) (bs : List Byte) : Parsed :=
  match b.toNat % 16 with
  | 0 => withModRM asz bs fun reg rm bs =>
    match reg.val with
    | 0 => done (.rol (.eb1 rm)) bs
    | 1 => done (.ror (.eb1 rm)) bs
    | 2 => done (.rcl (.eb1 rm)) bs
    | 3 => done (.rcr (.eb1 rm)) bs
    | 4 => done (.shl (.eb1 rm)) bs
    | 5 => done (.shr (.eb1 rm)) bs
    | 6 => unlisted bs
    | _ => done (.sar (.eb1 rm)) bs
  | 1 => withModRM asz bs fun reg rm bs =>
    match reg.val with
    | 0 => done (.rol (.ev1 rm)) bs
    | 1 => done (.ror (.ev1 rm)) bs
    | 2 => done (.rcl (.ev1 rm)) bs
    | 3 => done (.rcr (.ev1 rm)) bs
    | 4 => done (.shl (.ev1 rm)) bs
    | 5 => done (.shr (.ev1 rm)) bs
    | 6 => unlisted bs
    | _ => done (.sar (.ev1 rm)) bs
  | 2 => withModRM asz bs fun reg rm bs =>
    match reg.val with
    | 0 => done (.rol (.ebCl rm)) bs
    | 1 => done (.ror (.ebCl rm)) bs
    | 2 => done (.rcl (.ebCl rm)) bs
    | 3 => done (.rcr (.ebCl rm)) bs
    | 4 => done (.shl (.ebCl rm)) bs
    | 5 => done (.shr (.ebCl rm)) bs
    | 6 => unlisted bs
    | _ => done (.sar (.ebCl rm)) bs
  | 3 => withModRM asz bs fun reg rm bs =>
    match reg.val with
    | 0 => done (.rol (.evCl rm)) bs
    | 1 => done (.ror (.evCl rm)) bs
    | 2 => done (.rcl (.evCl rm)) bs
    | 3 => done (.rcr (.evCl rm)) bs
    | 4 => done (.shl (.evCl rm)) bs
    | 5 => done (.shr (.evCl rm)) bs
    | 6 => unlisted bs
    | _ => done (.sar (.evCl rm)) bs
  | 4 => withByte bs fun imm bs => done (.aam imm) bs
  | 5 => withByte bs fun imm bs => done (.aad imm) bs
  | 6 => unlisted bs
  | 7 => done .xlat bs
  | 8 => withModRM asz bs fun reg rm bs =>
    match rm with
    | .mem m =>
      match reg.val with
      | 0 => done (.fadd (.m32 m)) bs
      | 1 => done (.fmul (.m32 m)) bs
      | 2 => done (.fcom (.m32 m)) bs
      | 3 => done (.fcomp (.m32 m)) bs
      | 4 => done (.fsub (.m32 m)) bs
      | 5 => done (.fsubr (.m32 m)) bs
      | 6 => done (.fdiv (.m32 m)) bs
      | _ => done (.fdivr (.m32 m)) bs
    | .reg i =>
      match reg.val with
      | 0 => done (.fadd (.stSti i)) bs
      | 1 => done (.fmul (.stSti i)) bs
      | 2 => done (.fcom (.stSti i)) bs
      | 3 => done (.fcomp (.stSti i)) bs
      | 4 => done (.fsub (.stSti i)) bs
      | 5 => done (.fsubr (.stSti i)) bs
      | 6 => done (.fdiv (.stSti i)) bs
      | _ => done (.fdivr (.stSti i)) bs
  | 9 => withModRM asz bs fun reg rm bs =>
    match rm with
    | .mem m =>
      match reg.val with
      | 0 => done (.fld (.m32 m)) bs
      | 1 => done (.escReserved (.d9M1 m)) bs
      | 2 => done (.fst (.m32 m)) bs
      | 3 => done (.fstp (.m32 m)) bs
      | 4 => done (.fldenv m) bs
      | 5 => done (.fldcw m) bs
      | 6 => done (.fnstenv m) bs
      | _ => done (.fnstcw m) bs
    | .reg i =>
      match reg.val with
      | 0 => done (.fld (.sti i)) bs
      | 1 => done (.fxch i) bs
      | 2 => done (.fnop i) bs
      | 3 => done (.escD9D8 i) bs
      | 4 => done (.fchsGroup i) bs
      | 5 => done (.fld1Group i) bs
      | 6 => done (.f2xm1Group i) bs
      | _ => done (.fpremGroup i) bs
  | 10 => withModRM asz bs fun reg rm bs =>
    match rm with
    | .mem m =>
      match reg.val with
      | 0 => done (.fiadd (.m32 m)) bs
      | 1 => done (.fimul (.m32 m)) bs
      | 2 => done (.ficom (.m32 m)) bs
      | 3 => done (.ficomp (.m32 m)) bs
      | 4 => done (.fisub (.m32 m)) bs
      | 5 => done (.fisubr (.m32 m)) bs
      | 6 => done (.fidiv (.m32 m)) bs
      | _ => done (.fidivr (.m32 m)) bs
    | .reg i =>
      match reg.val with
      | 0 => done (.escDaC0 i) bs
      | 1 => done (.escDaC8 i) bs
      | 2 => done (.escDaD0 i) bs
      | 3 => done (.escDaD8 i) bs
      | 4 => done (.escDaE0 i) bs
      | 5 => done (.fucompp i) bs
      | 6 => done (.escDaF0 i) bs
      | _ => done (.escDaF8 i) bs
  | 11 => withModRM asz bs fun reg rm bs =>
    match rm with
    | .mem m =>
      match reg.val with
      | 0 => done (.fild (.m32 m)) bs
      | 1 => done (.escReserved (.dbM1 m)) bs
      | 2 => done (.fist (.m32 m)) bs
      | 3 => done (.fistp (.m32 m)) bs
      | 4 => done (.escReserved (.dbM4 m)) bs
      | 5 => done (.fld (.m80 m)) bs
      | 6 => done (.escReserved (.dbM6 m)) bs
      | _ => done (.fstp (.m80 m)) bs
    | .reg i =>
      match reg.val with
      | 0 => done (.escDbC0 i) bs
      | 1 => done (.escDbC8 i) bs
      | 2 => done (.escDbD0 i) bs
      | 3 => done (.escDbD8 i) bs
      | 4 => done (.feniGroup i) bs
      | 5 => done (.escDbE8 i) bs
      | 6 => done (.escDbF0 i) bs
      | _ => done (.escDbF8 i) bs
  | 12 => withModRM asz bs fun reg rm bs =>
    match rm with
    | .mem m =>
      match reg.val with
      | 0 => done (.fadd (.m64 m)) bs
      | 1 => done (.fmul (.m64 m)) bs
      | 2 => done (.fcom (.m64 m)) bs
      | 3 => done (.fcomp (.m64 m)) bs
      | 4 => done (.fsub (.m64 m)) bs
      | 5 => done (.fsubr (.m64 m)) bs
      | 6 => done (.fdiv (.m64 m)) bs
      | _ => done (.fdivr (.m64 m)) bs
    | .reg i =>
      match reg.val with
      | 0 => done (.fadd (.stiSt i)) bs
      | 1 => done (.fmul (.stiSt i)) bs
      | 2 => done (.escDcD0 i) bs
      | 3 => done (.escDcD8 i) bs
      | 4 => done (.fsubr (.stiSt i)) bs
      | 5 => done (.fsub (.stiSt i)) bs
      | 6 => done (.fdivr (.stiSt i)) bs
      | _ => done (.fdiv (.stiSt i)) bs
  | 13 => withModRM asz bs fun reg rm bs =>
    match rm with
    | .mem m =>
      match reg.val with
      | 0 => done (.fld (.m64 m)) bs
      | 1 => done (.escReserved (.ddM1 m)) bs
      | 2 => done (.fst (.m64 m)) bs
      | 3 => done (.fstp (.m64 m)) bs
      | 4 => done (.frstor m) bs
      | 5 => done (.escReserved (.ddM5 m)) bs
      | 6 => done (.fnsave m) bs
      | _ => done (.fnstsw m) bs
    | .reg i =>
      match reg.val with
      | 0 => done (.ffree i) bs
      | 1 => done (.escDdC8 i) bs
      | 2 => done (.fst (.sti i)) bs
      | 3 => done (.fstp (.sti i)) bs
      | 4 => done (.fucom i) bs
      | 5 => done (.fucomp i) bs
      | 6 => done (.escDdF0 i) bs
      | _ => done (.escDdF8 i) bs
  | 14 => withModRM asz bs fun reg rm bs =>
    match rm with
    | .mem m =>
      match reg.val with
      | 0 => done (.fiadd (.m16 m)) bs
      | 1 => done (.fimul (.m16 m)) bs
      | 2 => done (.ficom (.m16 m)) bs
      | 3 => done (.ficomp (.m16 m)) bs
      | 4 => done (.fisub (.m16 m)) bs
      | 5 => done (.fisubr (.m16 m)) bs
      | 6 => done (.fidiv (.m16 m)) bs
      | _ => done (.fidivr (.m16 m)) bs
    | .reg i =>
      match reg.val with
      | 0 => done (.faddp i) bs
      | 1 => done (.fmulp i) bs
      | 2 => done (.escDeD0 i) bs
      | 3 => done (.fcompp i) bs
      | 4 => done (.fsubrp i) bs
      | 5 => done (.fsubp i) bs
      | 6 => done (.fdivrp i) bs
      | _ => done (.fdivp i) bs
  | _ => withModRM asz bs fun reg rm bs =>
    match rm with
    | .mem m =>
      match reg.val with
      | 0 => done (.fild (.m16 m)) bs
      | 1 => done (.escReserved (.dfM1 m)) bs
      | 2 => done (.fist (.m16 m)) bs
      | 3 => done (.fistp (.m16 m)) bs
      | 4 => done (.fbld m) bs
      | 5 => done (.fild (.m64 m)) bs
      | 6 => done (.fbstp m) bs
      | _ => done (.fistp (.m64 m)) bs
    | .reg i =>
      match reg.val with
      | 0 => done (.escDfC0 i) bs
      | 1 => done (.escDfC8 i) bs
      | 2 => done (.escDfD0 i) bs
      | 3 => done (.escDfD8 i) bs
      | 4 => done (.fnstswAx i) bs
      | 5 => done (.escDfE8 i) bs
      | 6 => done (.escDfF0 i) bs
      | _ => done (.escDfF8 i) bs

/-- Opcodes E0 to EF (R270, R272, R273). -/
def map1E (osz _asz : Size) (b : Byte) (bs : List Byte) : Parsed :=
  match b.toNat % 16 with
  | 0 => withByte bs fun imm bs => done (.loopne imm) bs
  | 1 => withByte bs fun imm bs => done (.loope imm) bs
  | 2 => withByte bs fun imm bs => done (.loop imm) bs
  | 3 => withByte bs fun imm bs => done (.jcxz imm) bs
  | 4 => withByte bs fun imm bs => done (.inPort (.alIb imm)) bs
  | 5 => withByte bs fun imm bs => done (.inPort (.eaxIb imm)) bs
  | 6 => withByte bs fun imm bs => done (.outPort (.ibAl imm)) bs
  | 7 => withByte bs fun imm bs => done (.outPort (.ibEax imm)) bs
  | 8 => withImmV osz bs fun imm bs => done (.call (.jv imm)) bs
  | 9 => withImmV osz bs fun imm bs => done (.jmp (.jv imm)) bs
  | 10 => withFarPtr osz bs fun p bs => done (.jmp (.farAp p)) bs
  | 11 => withByte bs fun imm bs => done (.jmp (.jb imm)) bs
  | 12 => done (.inPort .alDx) bs
  | 13 => done (.inPort .eaxDx) bs
  | 14 => done (.outPort .dxAl) bs
  | _ => done (.outPort .dxEax) bs

/-- Opcodes F0 to FF (R270, R272, R273). -/
def map1F (osz asz : Size) (b : Byte) (bs : List Byte) : Parsed :=
  match b.toNat % 16 with
  | 0 => done .prefixLock bs
  | 1 => unlisted bs
  | 2 => done .prefixRepne bs
  | 3 => done .prefixRep bs
  | 4 => done .hlt bs
  | 5 => done .cmc bs
  | 6 => withModRM asz bs fun reg rm bs =>
    match reg.val with
    | 0 => withByte bs fun imm bs => done (.test (.ebIb rm imm)) bs
    | 1 => unlisted bs
    | 2 => done (.not (.eb rm)) bs
    | 3 => done (.neg (.eb rm)) bs
    | 4 => done (.mul (.eb rm)) bs
    | 5 => done (.imul (.eb rm)) bs
    | 6 => done (.div (.eb rm)) bs
    | _ => done (.idiv (.eb rm)) bs
  | 7 => withModRM asz bs fun reg rm bs =>
    match reg.val with
    | 0 => withImmV osz bs fun imm bs => done (.test (.evIv rm imm)) bs
    | 1 => unlisted bs
    | 2 => done (.not (.ev rm)) bs
    | 3 => done (.neg (.ev rm)) bs
    | 4 => done (.mul (.ev rm)) bs
    | 5 => done (.imul (.ev rm)) bs
    | 6 => done (.div (.ev rm)) bs
    | _ => done (.idiv (.ev rm)) bs
  | 8 => done .clc bs
  | 9 => done .stc bs
  | 10 => done .cli bs
  | 11 => done .sti bs
  | 12 => done .cld bs
  | 13 => done .std bs
  | 14 => withModRM asz bs fun reg rm bs =>
    match reg.val with
    | 0 => done (.inc (.eb rm)) bs
    | 1 => done (.dec (.eb rm)) bs
    | 2 => bad bs
    | 3 => bad bs
    | 4 => bad bs
    | 5 => bad bs
    | 6 => bad bs
    | _ => bad bs
  | _ => withModRM asz bs fun reg rm bs =>
    match reg.val with
    | 0 => done (.inc (.ev rm)) bs
    | 1 => done (.dec (.ev rm)) bs
    | 2 => done (.call (.ev rm)) bs
    | 3 => withMem rm bs fun m bs => done (.call (.farMp m)) bs
    | 4 => done (.jmp (.ev rm)) bs
    | 5 => withMem rm bs fun m bs => done (.jmp (.farMp m)) bs
    | 6 => done (.push (.ev rm)) bs
    | _ => bad bs

/-- The instruction at the head of a list of bytes (R278), prefix bytes counted as instructions (R254). -/
def decode (osz asz : Size) (bs : List Byte) : Parsed :=
  withByte bs fun b bs =>
    match b.toNat / 16 with
    | 0 => map10 osz asz b bs
    | 1 => map11 osz asz b bs
    | 2 => map12 osz asz b bs
    | 3 => map13 osz asz b bs
    | 4 => map14 osz asz b bs
    | 5 => map15 osz asz b bs
    | 6 => map16 osz asz b bs
    | 7 => map17 osz asz b bs
    | 8 => map18 osz asz b bs
    | 9 => map19 osz asz b bs
    | 10 => map1A osz asz b bs
    | 11 => map1B osz asz b bs
    | 12 => map1C osz asz b bs
    | 13 => map1D osz asz b bs
    | 14 => map1E osz asz b bs
    | _ => map1F osz asz b bs

/-- The two bytes of a word, least significant first (R265). -/
def wordBytes (v : Word16) : List Byte := [v.extractLsb' 0 8, v.extractLsb' 8 8]

/-- The four bytes of a double word, least significant first (R265). -/
def dwordBytes (v : Word32) : List Byte :=
  [v.extractLsb' 0 8, v.extractLsb' 8 8, v.extractLsb' 16 8, v.extractLsb' 24 8]

def ImmV.encode : ImmV → List Byte
  | .w v => wordBytes v
  | .d v => dwordBytes v

def FarPtr.encode (p : FarPtr) : List Byte := p.off.encode ++ wordBytes p.sel

def SReg.number : SReg → Fin 8
  | .es => 0
  | .cs => 1
  | .ss => 2
  | .ds => 3
  | .fs => 4
  | .gs => 5

def Base16.number : Base16 → Fin 8
  | .bxSi => 0
  | .bxDi => 1
  | .bpSi => 2
  | .bpDi => 3
  | .si => 4
  | .di => 5
  | .bp => 6
  | .bx => 7

/-- A ModRM or SIB byte from its three fields (R258, R261). -/
def fieldsByte (top : Fin 4) (mid low : Fin 8) : Byte := BitVec.ofNat 8 (top.val * 64 + mid.val * 8 + low.val)

def Disp16.mod : Disp16 → Fin 4
  | .none => 0
  | .d8 _ => 1
  | .d16 _ => 2

def Disp16.encode : Disp16 → List Byte
  | .none => []
  | .d8 d => [d]
  | .d16 d => wordBytes d

def Disp32.mod : Disp32 → Fin 4
  | .none => 0
  | .d8 _ => 1
  | .d32 _ => 2

def Disp32.encode : Disp32 → List Byte
  | .none => []
  | .d8 d => [d]
  | .d32 d => dwordBytes d

/-- The ModRM byte with field `reg`, the SIB byte and the displacement of a memory operand (R260, R261). -/
def MemOp.encode (reg : Fin 8) : MemOp → List Byte
  | .direct16 d => fieldsByte 0 reg 6 :: wordBytes d
  | .based16 b d => fieldsByte d.mod reg b.number :: d.encode
  | .direct32 d => fieldsByte 0 reg 5 :: dwordBytes d
  | .based32 b d => fieldsByte d.mod reg b :: d.encode
  | .sib scale index base d => fieldsByte d.mod reg 4 :: fieldsByte scale index base :: d.encode
  | .sibDirect scale index d => fieldsByte 0 reg 4 :: fieldsByte scale index 5 :: dwordBytes d

/-- The ModRM byte with field `reg` and what follows it (R258). -/
def RM.encode (reg : Fin 8) : RM → List Byte
  | .reg r => [fieldsByte 3 reg r]
  | .mem m => m.encode reg

/-- An opcode byte whose low three bits are a register number (R257). -/
def plusR (opcode : Nat) (r : Fin 8) : Byte := BitVec.ofNat 8 (opcode + r.val)

/-- The bytes of a well-formed instruction (R270 to R273). Ignored fields are written as 0, an ignored mod as 3. -/
def encode : Instr → List Byte
  | .prefixEs => [0x26]
  | .prefixCs => [0x2E]
  | .prefixSs => [0x36]
  | .prefixDs => [0x3E]
  | .prefixFs => [0x64]
  | .prefixGs => [0x65]
  | .prefixOpsize => [0x66]
  | .prefixAdsize => [0x67]
  | .prefixLock => [0xF0]
  | .prefixRepne => [0xF2]
  | .prefixRep => [0xF3]
  | (.add (.ebGb rm r)) => 0x00 :: rm.encode r
  | (.add (.evGv rm r)) => 0x01 :: rm.encode r
  | (.add (.gbEb r rm)) => 0x02 :: rm.encode r
  | (.add (.gvEv r rm)) => 0x03 :: rm.encode r
  | (.add (.alIb imm)) => [0x04] ++ [imm]
  | (.add (.eaxIv imm)) => [0x05] ++ imm.encode
  | (.or (.ebGb rm r)) => 0x08 :: rm.encode r
  | (.or (.evGv rm r)) => 0x09 :: rm.encode r
  | (.or (.gbEb r rm)) => 0x0A :: rm.encode r
  | (.or (.gvEv r rm)) => 0x0B :: rm.encode r
  | (.or (.alIb imm)) => [0x0C] ++ [imm]
  | (.or (.eaxIv imm)) => [0x0D] ++ imm.encode
  | (.adc (.ebGb rm r)) => 0x10 :: rm.encode r
  | (.adc (.evGv rm r)) => 0x11 :: rm.encode r
  | (.adc (.gbEb r rm)) => 0x12 :: rm.encode r
  | (.adc (.gvEv r rm)) => 0x13 :: rm.encode r
  | (.adc (.alIb imm)) => [0x14] ++ [imm]
  | (.adc (.eaxIv imm)) => [0x15] ++ imm.encode
  | (.sbb (.ebGb rm r)) => 0x18 :: rm.encode r
  | (.sbb (.evGv rm r)) => 0x19 :: rm.encode r
  | (.sbb (.gbEb r rm)) => 0x1A :: rm.encode r
  | (.sbb (.gvEv r rm)) => 0x1B :: rm.encode r
  | (.sbb (.alIb imm)) => [0x1C] ++ [imm]
  | (.sbb (.eaxIv imm)) => [0x1D] ++ imm.encode
  | (.and (.ebGb rm r)) => 0x20 :: rm.encode r
  | (.and (.evGv rm r)) => 0x21 :: rm.encode r
  | (.and (.gbEb r rm)) => 0x22 :: rm.encode r
  | (.and (.gvEv r rm)) => 0x23 :: rm.encode r
  | (.and (.alIb imm)) => [0x24] ++ [imm]
  | (.and (.eaxIv imm)) => [0x25] ++ imm.encode
  | (.sub (.ebGb rm r)) => 0x28 :: rm.encode r
  | (.sub (.evGv rm r)) => 0x29 :: rm.encode r
  | (.sub (.gbEb r rm)) => 0x2A :: rm.encode r
  | (.sub (.gvEv r rm)) => 0x2B :: rm.encode r
  | (.sub (.alIb imm)) => [0x2C] ++ [imm]
  | (.sub (.eaxIv imm)) => [0x2D] ++ imm.encode
  | (.xor (.ebGb rm r)) => 0x30 :: rm.encode r
  | (.xor (.evGv rm r)) => 0x31 :: rm.encode r
  | (.xor (.gbEb r rm)) => 0x32 :: rm.encode r
  | (.xor (.gvEv r rm)) => 0x33 :: rm.encode r
  | (.xor (.alIb imm)) => [0x34] ++ [imm]
  | (.xor (.eaxIv imm)) => [0x35] ++ imm.encode
  | (.cmp (.ebGb rm r)) => 0x38 :: rm.encode r
  | (.cmp (.evGv rm r)) => 0x39 :: rm.encode r
  | (.cmp (.gbEb r rm)) => 0x3A :: rm.encode r
  | (.cmp (.gvEv r rm)) => 0x3B :: rm.encode r
  | (.cmp (.alIb imm)) => [0x3C] ++ [imm]
  | (.cmp (.eaxIv imm)) => [0x3D] ++ imm.encode
  | (.add (.ebIb rm imm)) => (0x80 :: rm.encode 0) ++ [imm]
  | (.add (.evIv rm imm)) => (0x81 :: rm.encode 0) ++ imm.encode
  | (.add (.evIbs rm imm)) => (0x83 :: rm.encode 0) ++ [imm]
  | (.or (.ebIb rm imm)) => (0x80 :: rm.encode 1) ++ [imm]
  | (.or (.evIv rm imm)) => (0x81 :: rm.encode 1) ++ imm.encode
  | (.or (.evIbs rm imm)) => (0x83 :: rm.encode 1) ++ [imm]
  | (.adc (.ebIb rm imm)) => (0x80 :: rm.encode 2) ++ [imm]
  | (.adc (.evIv rm imm)) => (0x81 :: rm.encode 2) ++ imm.encode
  | (.adc (.evIbs rm imm)) => (0x83 :: rm.encode 2) ++ [imm]
  | (.sbb (.ebIb rm imm)) => (0x80 :: rm.encode 3) ++ [imm]
  | (.sbb (.evIv rm imm)) => (0x81 :: rm.encode 3) ++ imm.encode
  | (.sbb (.evIbs rm imm)) => (0x83 :: rm.encode 3) ++ [imm]
  | (.and (.ebIb rm imm)) => (0x80 :: rm.encode 4) ++ [imm]
  | (.and (.evIv rm imm)) => (0x81 :: rm.encode 4) ++ imm.encode
  | (.and (.evIbs rm imm)) => (0x83 :: rm.encode 4) ++ [imm]
  | (.sub (.ebIb rm imm)) => (0x80 :: rm.encode 5) ++ [imm]
  | (.sub (.evIv rm imm)) => (0x81 :: rm.encode 5) ++ imm.encode
  | (.sub (.evIbs rm imm)) => (0x83 :: rm.encode 5) ++ [imm]
  | (.xor (.ebIb rm imm)) => (0x80 :: rm.encode 6) ++ [imm]
  | (.xor (.evIv rm imm)) => (0x81 :: rm.encode 6) ++ imm.encode
  | (.xor (.evIbs rm imm)) => (0x83 :: rm.encode 6) ++ [imm]
  | (.cmp (.ebIb rm imm)) => (0x80 :: rm.encode 7) ++ [imm]
  | (.cmp (.evIv rm imm)) => (0x81 :: rm.encode 7) ++ imm.encode
  | (.cmp (.evIbs rm imm)) => (0x83 :: rm.encode 7) ++ [imm]
  | .pushEs => [0x06]
  | .popEs => [0x07]
  | .pushCs => [0x0E]
  | .pushSs => [0x16]
  | .popSs => [0x17]
  | .pushDs => [0x1E]
  | .popDs => [0x1F]
  | .daa => [0x27]
  | .das => [0x2F]
  | .aaa => [0x37]
  | .aas => [0x3F]
  | (.inc (.r r)) => [plusR 0x40 r]
  | (.dec (.r r)) => [plusR 0x48 r]
  | (.push (.r r)) => [plusR 0x50 r]
  | (.pop (.r r)) => [plusR 0x58 r]
  | .pusha => [0x60]
  | .popa => [0x61]
  | .bound r m => 0x62 :: m.encode r
  | .arpl rm r => 0x63 :: rm.encode r
  | (.push (.iv imm)) => [0x68] ++ imm.encode
  | (.imul (.gvEvIv r rm imm)) => (0x69 :: rm.encode r) ++ imm.encode
  | (.push (.ibs imm)) => [0x6A] ++ [imm]
  | (.imul (.gvEvIbs r rm imm)) => (0x6B :: rm.encode r) ++ [imm]
  | .insb => [0x6C]
  | .inswD => [0x6D]
  | .outsb => [0x6E]
  | .outswD => [0x6F]
  | (.jo (.jb imm)) => [0x70] ++ [imm]
  | (.jno (.jb imm)) => [0x71] ++ [imm]
  | (.jb (.jb imm)) => [0x72] ++ [imm]
  | (.jae (.jb imm)) => [0x73] ++ [imm]
  | (.je (.jb imm)) => [0x74] ++ [imm]
  | (.jne (.jb imm)) => [0x75] ++ [imm]
  | (.jbe (.jb imm)) => [0x76] ++ [imm]
  | (.ja (.jb imm)) => [0x77] ++ [imm]
  | (.js (.jb imm)) => [0x78] ++ [imm]
  | (.jns (.jb imm)) => [0x79] ++ [imm]
  | (.jp (.jb imm)) => [0x7A] ++ [imm]
  | (.jnp (.jb imm)) => [0x7B] ++ [imm]
  | (.jl (.jb imm)) => [0x7C] ++ [imm]
  | (.jge (.jb imm)) => [0x7D] ++ [imm]
  | (.jle (.jb imm)) => [0x7E] ++ [imm]
  | (.jg (.jb imm)) => [0x7F] ++ [imm]
  | (.test (.ebGb rm r)) => 0x84 :: rm.encode r
  | (.test (.evGv rm r)) => 0x85 :: rm.encode r
  | (.xchg (.ebGb rm r)) => 0x86 :: rm.encode r
  | (.xchg (.evGv rm r)) => 0x87 :: rm.encode r
  | (.mov (.ebGb rm r)) => 0x88 :: rm.encode r
  | (.mov (.evGv rm r)) => 0x89 :: rm.encode r
  | (.mov (.gbEb r rm)) => 0x8A :: rm.encode r
  | (.mov (.gvEv r rm)) => 0x8B :: rm.encode r
  | (.mov (.ewSw rm sr)) => 0x8C :: rm.encode sr.number
  | .lea r m => 0x8D :: m.encode r
  | (.mov (.swEw sr rm)) => 0x8E :: rm.encode sr.number
  | (.pop (.ev rm)) => 0x8F :: rm.encode 0
  | .nop => [0x90]
  | (.xchg (.eaxR r)) => [plusR 0x90 r]
  | .cbwCwde => [0x98]
  | .cwdCdq => [0x99]
  | (.call (.farAp p)) => [0x9A] ++ p.encode
  | .wait => [0x9B]
  | .pushf => [0x9C]
  | .popf => [0x9D]
  | .sahf => [0x9E]
  | .lahf => [0x9F]
  | (.mov (.alOb off)) => [0xA0] ++ off.encode
  | (.mov (.eaxOv off)) => [0xA1] ++ off.encode
  | (.mov (.obAl off)) => [0xA2] ++ off.encode
  | (.mov (.ovEax off)) => [0xA3] ++ off.encode
  | .movsb => [0xA4]
  | .movswD => [0xA5]
  | .cmpsb => [0xA6]
  | .cmpswD => [0xA7]
  | (.test (.alIb imm)) => [0xA8] ++ [imm]
  | (.test (.eaxIv imm)) => [0xA9] ++ imm.encode
  | .stosb => [0xAA]
  | .stoswD => [0xAB]
  | .lodsb => [0xAC]
  | .lodswD => [0xAD]
  | .scasb => [0xAE]
  | .scaswD => [0xAF]
  | (.mov (.r8Ib r imm)) => [plusR 0xB0 r] ++ [imm]
  | (.mov (.rIv r imm)) => [plusR 0xB8 r] ++ imm.encode
  | (.rol (.ebIb rm imm)) => (0xC0 :: rm.encode 0) ++ [imm]
  | (.ror (.ebIb rm imm)) => (0xC0 :: rm.encode 1) ++ [imm]
  | (.rcl (.ebIb rm imm)) => (0xC0 :: rm.encode 2) ++ [imm]
  | (.rcr (.ebIb rm imm)) => (0xC0 :: rm.encode 3) ++ [imm]
  | (.shl (.ebIb rm imm)) => (0xC0 :: rm.encode 4) ++ [imm]
  | (.shr (.ebIb rm imm)) => (0xC0 :: rm.encode 5) ++ [imm]
  | (.sar (.ebIb rm imm)) => (0xC0 :: rm.encode 7) ++ [imm]
  | (.rol (.evIb rm imm)) => (0xC1 :: rm.encode 0) ++ [imm]
  | (.ror (.evIb rm imm)) => (0xC1 :: rm.encode 1) ++ [imm]
  | (.rcl (.evIb rm imm)) => (0xC1 :: rm.encode 2) ++ [imm]
  | (.rcr (.evIb rm imm)) => (0xC1 :: rm.encode 3) ++ [imm]
  | (.shl (.evIb rm imm)) => (0xC1 :: rm.encode 4) ++ [imm]
  | (.shr (.evIb rm imm)) => (0xC1 :: rm.encode 5) ++ [imm]
  | (.sar (.evIb rm imm)) => (0xC1 :: rm.encode 7) ++ [imm]
  | (.rol (.eb1 rm)) => 0xD0 :: rm.encode 0
  | (.ror (.eb1 rm)) => 0xD0 :: rm.encode 1
  | (.rcl (.eb1 rm)) => 0xD0 :: rm.encode 2
  | (.rcr (.eb1 rm)) => 0xD0 :: rm.encode 3
  | (.shl (.eb1 rm)) => 0xD0 :: rm.encode 4
  | (.shr (.eb1 rm)) => 0xD0 :: rm.encode 5
  | (.sar (.eb1 rm)) => 0xD0 :: rm.encode 7
  | (.rol (.ev1 rm)) => 0xD1 :: rm.encode 0
  | (.ror (.ev1 rm)) => 0xD1 :: rm.encode 1
  | (.rcl (.ev1 rm)) => 0xD1 :: rm.encode 2
  | (.rcr (.ev1 rm)) => 0xD1 :: rm.encode 3
  | (.shl (.ev1 rm)) => 0xD1 :: rm.encode 4
  | (.shr (.ev1 rm)) => 0xD1 :: rm.encode 5
  | (.sar (.ev1 rm)) => 0xD1 :: rm.encode 7
  | (.rol (.ebCl rm)) => 0xD2 :: rm.encode 0
  | (.ror (.ebCl rm)) => 0xD2 :: rm.encode 1
  | (.rcl (.ebCl rm)) => 0xD2 :: rm.encode 2
  | (.rcr (.ebCl rm)) => 0xD2 :: rm.encode 3
  | (.shl (.ebCl rm)) => 0xD2 :: rm.encode 4
  | (.shr (.ebCl rm)) => 0xD2 :: rm.encode 5
  | (.sar (.ebCl rm)) => 0xD2 :: rm.encode 7
  | (.rol (.evCl rm)) => 0xD3 :: rm.encode 0
  | (.ror (.evCl rm)) => 0xD3 :: rm.encode 1
  | (.rcl (.evCl rm)) => 0xD3 :: rm.encode 2
  | (.rcr (.evCl rm)) => 0xD3 :: rm.encode 3
  | (.shl (.evCl rm)) => 0xD3 :: rm.encode 4
  | (.shr (.evCl rm)) => 0xD3 :: rm.encode 5
  | (.sar (.evCl rm)) => 0xD3 :: rm.encode 7
  | (.ret (.nearIw imm)) => [0xC2] ++ wordBytes imm
  | (.ret .near) => [0xC3]
  | .les r m => 0xC4 :: m.encode r
  | .lds r m => 0xC5 :: m.encode r
  | (.mov (.ebIb rm imm)) => (0xC6 :: rm.encode 0) ++ [imm]
  | (.mov (.evIv rm imm)) => (0xC7 :: rm.encode 0) ++ imm.encode
  | .enter imm imm2 => [0xC8] ++ wordBytes imm ++ [imm2]
  | .leave => [0xC9]
  | (.ret (.farIw imm)) => [0xCA] ++ wordBytes imm
  | (.ret .far) => [0xCB]
  | .int3 => [0xCC]
  | .int imm => [0xCD] ++ [imm]
  | .into => [0xCE]
  | .iret => [0xCF]
  | .aam imm => [0xD4] ++ [imm]
  | .aad imm => [0xD5] ++ [imm]
  | .xlat => [0xD7]
  | (.fadd (.m32 m)) => 0xD8 :: m.encode 0
  | (.fmul (.m32 m)) => 0xD8 :: m.encode 1
  | (.fcom (.m32 m)) => 0xD8 :: m.encode 2
  | (.fcomp (.m32 m)) => 0xD8 :: m.encode 3
  | (.fsub (.m32 m)) => 0xD8 :: m.encode 4
  | (.fsubr (.m32 m)) => 0xD8 :: m.encode 5
  | (.fdiv (.m32 m)) => 0xD8 :: m.encode 6
  | (.fdivr (.m32 m)) => 0xD8 :: m.encode 7
  | (.fadd (.stSti i)) => [0xD8, fieldsByte 3 0 i]
  | (.fmul (.stSti i)) => [0xD8, fieldsByte 3 1 i]
  | (.fcom (.stSti i)) => [0xD8, fieldsByte 3 2 i]
  | (.fcomp (.stSti i)) => [0xD8, fieldsByte 3 3 i]
  | (.fsub (.stSti i)) => [0xD8, fieldsByte 3 4 i]
  | (.fsubr (.stSti i)) => [0xD8, fieldsByte 3 5 i]
  | (.fdiv (.stSti i)) => [0xD8, fieldsByte 3 6 i]
  | (.fdivr (.stSti i)) => [0xD8, fieldsByte 3 7 i]
  | (.fld (.m32 m)) => 0xD9 :: m.encode 0
  | (.escReserved (.d9M1 m)) => 0xD9 :: m.encode 1
  | (.fst (.m32 m)) => 0xD9 :: m.encode 2
  | (.fstp (.m32 m)) => 0xD9 :: m.encode 3
  | .fldenv m => 0xD9 :: m.encode 4
  | .fldcw m => 0xD9 :: m.encode 5
  | .fnstenv m => 0xD9 :: m.encode 6
  | .fnstcw m => 0xD9 :: m.encode 7
  | (.fld (.sti i)) => [0xD9, fieldsByte 3 0 i]
  | .fxch i => [0xD9, fieldsByte 3 1 i]
  | .fnop i => [0xD9, fieldsByte 3 2 i]
  | .escD9D8 i => [0xD9, fieldsByte 3 3 i]
  | .fchsGroup i => [0xD9, fieldsByte 3 4 i]
  | .fld1Group i => [0xD9, fieldsByte 3 5 i]
  | .f2xm1Group i => [0xD9, fieldsByte 3 6 i]
  | .fpremGroup i => [0xD9, fieldsByte 3 7 i]
  | (.fiadd (.m32 m)) => 0xDA :: m.encode 0
  | (.fimul (.m32 m)) => 0xDA :: m.encode 1
  | (.ficom (.m32 m)) => 0xDA :: m.encode 2
  | (.ficomp (.m32 m)) => 0xDA :: m.encode 3
  | (.fisub (.m32 m)) => 0xDA :: m.encode 4
  | (.fisubr (.m32 m)) => 0xDA :: m.encode 5
  | (.fidiv (.m32 m)) => 0xDA :: m.encode 6
  | (.fidivr (.m32 m)) => 0xDA :: m.encode 7
  | .escDaC0 i => [0xDA, fieldsByte 3 0 i]
  | .escDaC8 i => [0xDA, fieldsByte 3 1 i]
  | .escDaD0 i => [0xDA, fieldsByte 3 2 i]
  | .escDaD8 i => [0xDA, fieldsByte 3 3 i]
  | .escDaE0 i => [0xDA, fieldsByte 3 4 i]
  | .fucompp i => [0xDA, fieldsByte 3 5 i]
  | .escDaF0 i => [0xDA, fieldsByte 3 6 i]
  | .escDaF8 i => [0xDA, fieldsByte 3 7 i]
  | (.fild (.m32 m)) => 0xDB :: m.encode 0
  | (.escReserved (.dbM1 m)) => 0xDB :: m.encode 1
  | (.fist (.m32 m)) => 0xDB :: m.encode 2
  | (.fistp (.m32 m)) => 0xDB :: m.encode 3
  | (.escReserved (.dbM4 m)) => 0xDB :: m.encode 4
  | (.fld (.m80 m)) => 0xDB :: m.encode 5
  | (.escReserved (.dbM6 m)) => 0xDB :: m.encode 6
  | (.fstp (.m80 m)) => 0xDB :: m.encode 7
  | .escDbC0 i => [0xDB, fieldsByte 3 0 i]
  | .escDbC8 i => [0xDB, fieldsByte 3 1 i]
  | .escDbD0 i => [0xDB, fieldsByte 3 2 i]
  | .escDbD8 i => [0xDB, fieldsByte 3 3 i]
  | .feniGroup i => [0xDB, fieldsByte 3 4 i]
  | .escDbE8 i => [0xDB, fieldsByte 3 5 i]
  | .escDbF0 i => [0xDB, fieldsByte 3 6 i]
  | .escDbF8 i => [0xDB, fieldsByte 3 7 i]
  | (.fadd (.m64 m)) => 0xDC :: m.encode 0
  | (.fmul (.m64 m)) => 0xDC :: m.encode 1
  | (.fcom (.m64 m)) => 0xDC :: m.encode 2
  | (.fcomp (.m64 m)) => 0xDC :: m.encode 3
  | (.fsub (.m64 m)) => 0xDC :: m.encode 4
  | (.fsubr (.m64 m)) => 0xDC :: m.encode 5
  | (.fdiv (.m64 m)) => 0xDC :: m.encode 6
  | (.fdivr (.m64 m)) => 0xDC :: m.encode 7
  | (.fadd (.stiSt i)) => [0xDC, fieldsByte 3 0 i]
  | (.fmul (.stiSt i)) => [0xDC, fieldsByte 3 1 i]
  | .escDcD0 i => [0xDC, fieldsByte 3 2 i]
  | .escDcD8 i => [0xDC, fieldsByte 3 3 i]
  | (.fsubr (.stiSt i)) => [0xDC, fieldsByte 3 4 i]
  | (.fsub (.stiSt i)) => [0xDC, fieldsByte 3 5 i]
  | (.fdivr (.stiSt i)) => [0xDC, fieldsByte 3 6 i]
  | (.fdiv (.stiSt i)) => [0xDC, fieldsByte 3 7 i]
  | (.fld (.m64 m)) => 0xDD :: m.encode 0
  | (.escReserved (.ddM1 m)) => 0xDD :: m.encode 1
  | (.fst (.m64 m)) => 0xDD :: m.encode 2
  | (.fstp (.m64 m)) => 0xDD :: m.encode 3
  | .frstor m => 0xDD :: m.encode 4
  | (.escReserved (.ddM5 m)) => 0xDD :: m.encode 5
  | .fnsave m => 0xDD :: m.encode 6
  | .fnstsw m => 0xDD :: m.encode 7
  | .ffree i => [0xDD, fieldsByte 3 0 i]
  | .escDdC8 i => [0xDD, fieldsByte 3 1 i]
  | (.fst (.sti i)) => [0xDD, fieldsByte 3 2 i]
  | (.fstp (.sti i)) => [0xDD, fieldsByte 3 3 i]
  | .fucom i => [0xDD, fieldsByte 3 4 i]
  | .fucomp i => [0xDD, fieldsByte 3 5 i]
  | .escDdF0 i => [0xDD, fieldsByte 3 6 i]
  | .escDdF8 i => [0xDD, fieldsByte 3 7 i]
  | (.fiadd (.m16 m)) => 0xDE :: m.encode 0
  | (.fimul (.m16 m)) => 0xDE :: m.encode 1
  | (.ficom (.m16 m)) => 0xDE :: m.encode 2
  | (.ficomp (.m16 m)) => 0xDE :: m.encode 3
  | (.fisub (.m16 m)) => 0xDE :: m.encode 4
  | (.fisubr (.m16 m)) => 0xDE :: m.encode 5
  | (.fidiv (.m16 m)) => 0xDE :: m.encode 6
  | (.fidivr (.m16 m)) => 0xDE :: m.encode 7
  | .faddp i => [0xDE, fieldsByte 3 0 i]
  | .fmulp i => [0xDE, fieldsByte 3 1 i]
  | .escDeD0 i => [0xDE, fieldsByte 3 2 i]
  | .fcompp i => [0xDE, fieldsByte 3 3 i]
  | .fsubrp i => [0xDE, fieldsByte 3 4 i]
  | .fsubp i => [0xDE, fieldsByte 3 5 i]
  | .fdivrp i => [0xDE, fieldsByte 3 6 i]
  | .fdivp i => [0xDE, fieldsByte 3 7 i]
  | (.fild (.m16 m)) => 0xDF :: m.encode 0
  | (.escReserved (.dfM1 m)) => 0xDF :: m.encode 1
  | (.fist (.m16 m)) => 0xDF :: m.encode 2
  | (.fistp (.m16 m)) => 0xDF :: m.encode 3
  | .fbld m => 0xDF :: m.encode 4
  | (.fild (.m64 m)) => 0xDF :: m.encode 5
  | .fbstp m => 0xDF :: m.encode 6
  | (.fistp (.m64 m)) => 0xDF :: m.encode 7
  | .escDfC0 i => [0xDF, fieldsByte 3 0 i]
  | .escDfC8 i => [0xDF, fieldsByte 3 1 i]
  | .escDfD0 i => [0xDF, fieldsByte 3 2 i]
  | .escDfD8 i => [0xDF, fieldsByte 3 3 i]
  | .fnstswAx i => [0xDF, fieldsByte 3 4 i]
  | .escDfE8 i => [0xDF, fieldsByte 3 5 i]
  | .escDfF0 i => [0xDF, fieldsByte 3 6 i]
  | .escDfF8 i => [0xDF, fieldsByte 3 7 i]
  | .loopne imm => [0xE0] ++ [imm]
  | .loope imm => [0xE1] ++ [imm]
  | .loop imm => [0xE2] ++ [imm]
  | .jcxz imm => [0xE3] ++ [imm]
  | (.inPort (.alIb imm)) => [0xE4] ++ [imm]
  | (.inPort (.eaxIb imm)) => [0xE5] ++ [imm]
  | (.outPort (.ibAl imm)) => [0xE6] ++ [imm]
  | (.outPort (.ibEax imm)) => [0xE7] ++ [imm]
  | (.call (.jv imm)) => [0xE8] ++ imm.encode
  | (.jmp (.jv imm)) => [0xE9] ++ imm.encode
  | (.jmp (.farAp p)) => [0xEA] ++ p.encode
  | (.jmp (.jb imm)) => [0xEB] ++ [imm]
  | (.inPort .alDx) => [0xEC]
  | (.inPort .eaxDx) => [0xED]
  | (.outPort .dxAl) => [0xEE]
  | (.outPort .dxEax) => [0xEF]
  | .hlt => [0xF4]
  | .cmc => [0xF5]
  | (.test (.ebIb rm imm)) => (0xF6 :: rm.encode 0) ++ [imm]
  | (.test (.evIv rm imm)) => (0xF7 :: rm.encode 0) ++ imm.encode
  | (.not (.eb rm)) => 0xF6 :: rm.encode 2
  | (.not (.ev rm)) => 0xF7 :: rm.encode 2
  | (.neg (.eb rm)) => 0xF6 :: rm.encode 3
  | (.neg (.ev rm)) => 0xF7 :: rm.encode 3
  | (.mul (.eb rm)) => 0xF6 :: rm.encode 4
  | (.mul (.ev rm)) => 0xF7 :: rm.encode 4
  | (.imul (.eb rm)) => 0xF6 :: rm.encode 5
  | (.imul (.ev rm)) => 0xF7 :: rm.encode 5
  | (.div (.eb rm)) => 0xF6 :: rm.encode 6
  | (.div (.ev rm)) => 0xF7 :: rm.encode 6
  | (.idiv (.eb rm)) => 0xF6 :: rm.encode 7
  | (.idiv (.ev rm)) => 0xF7 :: rm.encode 7
  | .clc => [0xF8]
  | .stc => [0xF9]
  | .cli => [0xFA]
  | .sti => [0xFB]
  | .cld => [0xFC]
  | .std => [0xFD]
  | (.inc (.eb rm)) => 0xFE :: rm.encode 0
  | (.dec (.eb rm)) => 0xFE :: rm.encode 1
  | (.inc (.ev rm)) => 0xFF :: rm.encode 0
  | (.dec (.ev rm)) => 0xFF :: rm.encode 1
  | (.call (.ev rm)) => 0xFF :: rm.encode 2
  | (.call (.farMp m)) => 0xFF :: m.encode 3
  | (.jmp (.ev rm)) => 0xFF :: rm.encode 4
  | (.jmp (.farMp m)) => 0xFF :: m.encode 5
  | (.push (.ev rm)) => 0xFF :: rm.encode 6
  | .sldt rm => 0x0F :: 0x00 :: rm.encode 0
  | .str rm => 0x0F :: 0x00 :: rm.encode 1
  | .lldt rm => 0x0F :: 0x00 :: rm.encode 2
  | .ltr rm => 0x0F :: 0x00 :: rm.encode 3
  | .verr rm => 0x0F :: 0x00 :: rm.encode 4
  | .verw rm => 0x0F :: 0x00 :: rm.encode 5
  | .sgdt m => 0x0F :: 0x01 :: m.encode 0
  | .sidt m => 0x0F :: 0x01 :: m.encode 1
  | .lgdt m => 0x0F :: 0x01 :: m.encode 2
  | .lidt m => 0x0F :: 0x01 :: m.encode 3
  | .smsw rm => 0x0F :: 0x01 :: rm.encode 4
  | .lmsw rm => 0x0F :: 0x01 :: rm.encode 6
  | .lar r rm => 0x0F :: 0x02 :: rm.encode r
  | .lsl r rm => 0x0F :: 0x03 :: rm.encode r
  | .clts => [0x0F, 0x06]
  | (.mov (.r32Cr r n)) => [0x0F, 0x20, fieldsByte 3 n r]
  | (.mov (.r32Dr r n)) => [0x0F, 0x21, fieldsByte 3 n r]
  | (.mov (.crR32 n r)) => [0x0F, 0x22, fieldsByte 3 n r]
  | (.mov (.drR32 n r)) => [0x0F, 0x23, fieldsByte 3 n r]
  | (.mov (.r32Tr r n)) => [0x0F, 0x24, fieldsByte 3 n r]
  | (.mov (.trR32 n r)) => [0x0F, 0x26, fieldsByte 3 n r]
  | (.jo (.jv imm)) => [0x0F, 0x80] ++ imm.encode
  | (.jno (.jv imm)) => [0x0F, 0x81] ++ imm.encode
  | (.jb (.jv imm)) => [0x0F, 0x82] ++ imm.encode
  | (.jae (.jv imm)) => [0x0F, 0x83] ++ imm.encode
  | (.je (.jv imm)) => [0x0F, 0x84] ++ imm.encode
  | (.jne (.jv imm)) => [0x0F, 0x85] ++ imm.encode
  | (.jbe (.jv imm)) => [0x0F, 0x86] ++ imm.encode
  | (.ja (.jv imm)) => [0x0F, 0x87] ++ imm.encode
  | (.js (.jv imm)) => [0x0F, 0x88] ++ imm.encode
  | (.jns (.jv imm)) => [0x0F, 0x89] ++ imm.encode
  | (.jp (.jv imm)) => [0x0F, 0x8A] ++ imm.encode
  | (.jnp (.jv imm)) => [0x0F, 0x8B] ++ imm.encode
  | (.jl (.jv imm)) => [0x0F, 0x8C] ++ imm.encode
  | (.jge (.jv imm)) => [0x0F, 0x8D] ++ imm.encode
  | (.jle (.jv imm)) => [0x0F, 0x8E] ++ imm.encode
  | (.jg (.jv imm)) => [0x0F, 0x8F] ++ imm.encode
  | .seto rm => 0x0F :: 0x90 :: rm.encode 0
  | .setno rm => 0x0F :: 0x91 :: rm.encode 0
  | .setb rm => 0x0F :: 0x92 :: rm.encode 0
  | .setae rm => 0x0F :: 0x93 :: rm.encode 0
  | .sete rm => 0x0F :: 0x94 :: rm.encode 0
  | .setne rm => 0x0F :: 0x95 :: rm.encode 0
  | .setbe rm => 0x0F :: 0x96 :: rm.encode 0
  | .seta rm => 0x0F :: 0x97 :: rm.encode 0
  | .sets rm => 0x0F :: 0x98 :: rm.encode 0
  | .setns rm => 0x0F :: 0x99 :: rm.encode 0
  | .setp rm => 0x0F :: 0x9A :: rm.encode 0
  | .setnp rm => 0x0F :: 0x9B :: rm.encode 0
  | .setl rm => 0x0F :: 0x9C :: rm.encode 0
  | .setge rm => 0x0F :: 0x9D :: rm.encode 0
  | .setle rm => 0x0F :: 0x9E :: rm.encode 0
  | .setg rm => 0x0F :: 0x9F :: rm.encode 0
  | .pushFs => [0x0F, 0xA0]
  | .popFs => [0x0F, 0xA1]
  | .pushGs => [0x0F, 0xA8]
  | .popGs => [0x0F, 0xA9]
  | (.bt (.evGv rm r)) => 0x0F :: 0xA3 :: rm.encode r
  | (.shld (.evGvIb rm r imm)) => (0x0F :: 0xA4 :: rm.encode r) ++ [imm]
  | (.shld (.evGvCl rm r)) => 0x0F :: 0xA5 :: rm.encode r
  | .xbts r rm => 0x0F :: 0xA6 :: rm.encode r
  | .ibts rm r => 0x0F :: 0xA7 :: rm.encode r
  | (.bts (.evGv rm r)) => 0x0F :: 0xAB :: rm.encode r
  | (.shrd (.evGvIb rm r imm)) => (0x0F :: 0xAC :: rm.encode r) ++ [imm]
  | (.shrd (.evGvCl rm r)) => 0x0F :: 0xAD :: rm.encode r
  | (.imul (.gvEv r rm)) => 0x0F :: 0xAF :: rm.encode r
  | .lss r m => 0x0F :: 0xB2 :: m.encode r
  | (.btr (.evGv rm r)) => 0x0F :: 0xB3 :: rm.encode r
  | .lfs r m => 0x0F :: 0xB4 :: m.encode r
  | .lgs r m => 0x0F :: 0xB5 :: m.encode r
  | (.movzx (.gvEb r rm)) => 0x0F :: 0xB6 :: rm.encode r
  | (.movzx (.gvEw r rm)) => 0x0F :: 0xB7 :: rm.encode r
  | (.bt (.evIb rm imm)) => (0x0F :: 0xBA :: rm.encode 4) ++ [imm]
  | (.bts (.evIb rm imm)) => (0x0F :: 0xBA :: rm.encode 5) ++ [imm]
  | (.btr (.evIb rm imm)) => (0x0F :: 0xBA :: rm.encode 6) ++ [imm]
  | (.btc (.evIb rm imm)) => (0x0F :: 0xBA :: rm.encode 7) ++ [imm]
  | (.btc (.evGv rm r)) => 0x0F :: 0xBB :: rm.encode r
  | .bsf r rm => 0x0F :: 0xBC :: rm.encode r
  | .bsr r rm => 0x0F :: 0xBD :: rm.encode r
  | (.movsx (.gvEb r rm)) => 0x0F :: 0xBE :: rm.encode r
  | (.movsx (.gvEw r rm)) => 0x0F :: 0xBF :: rm.encode r

/-- The longest instruction has 15 bytes (R251). -/
def maxLength : Nat := 15

/-- The first `n` bytes of an instruction whose bits are `w`, numbered from bit 0 of the first byte on. -/
def tableBytes (n w : Nat) : List Byte :=
  match n with
  | 0 => []
  | n + 1 => BitVec.ofNat 8 w :: tableBytes n (w / 256)

/-- The instruction the decoder reads from the bits `w` of a row of opcode_table.json, with zeros above `nbits`, under
the 16-bit sizes that hold after reset (R255). -/
def decodeTableWord (nbits w : Nat) : Option Instr :=
  match decode .s16 .s16 (tableBytes maxLength (w % 2 ^ nbits)) with
  | some (.instr i, _) => some i
  | _ => none

end Sys2Proof
end

