-- ==== Sys2Proof/Config.lean ====
section
/-!
DEFINITION. What an implementation fixes (the parameters of 00_scope.md R11, a plain structure that State carries, so
that every statement about all states holds for every setting) and the FREE VALUES: opaque constants with no body, which
stand for what the spec leaves undefined (93_implementation_defined.md, treatment `any value`). The first argument of a
free value is the step counter of State, the second tells apart the draws of one step (log entry 7).
-/
namespace Sys2Proof

/-- Which numeric coprocessor is fitted (R11, `COPROC`). -/
inductive Coprocessor where
  | none
  | i80287
  | i80387
deriving DecidableEq, Repr

/-- The clock grade of the part (R5, R11, `CLOCK_MHZ`). -/
inductive ClockGrade where
  | mhz12_5
  | mhz16
deriving DecidableEq, Repr

/-- A range of addresses whose devices answer with BS16# (R11, R214), in the memory or in the I/O space. -/
structure Bus16Range where
  io : Bool
  first : Nat
  last : Nat
deriving DecidableEq, Repr

/-- The parameters of R11. No rule reads `clock` (timing only, R736) or `prefetchBytes` (D7: not observable); `bus16`
decides how a port access is split into bus cycles (R93, R214). -/
structure Config where
  /-- `COPROC` -/
  coproc : Coprocessor
  /-- `SELFTEST`: the self-test runs at reset (R706). -/
  selfTest : Bool
  /-- `SELFTEST_PASS`: the unit is fault-free (R706). -/
  selfTestPass : Bool
  /-- `REVISION_ID`: the value reported in BL after reset (R705). -/
  revisionId : Byte
  /-- `TLB_ENTRIES` (R112). -/
  tlbEntries : Nat
  /-- `HAS_IO_BITMAP` (R584, R585). -/
  hasIoBitmap : Bool
  /-- `V86_IO_IOPL_SENSITIVE` (R584). -/
  v86IoIoplSensitive : Bool
  /-- `HAS_IBTS_XBTS` (R460). -/
  hasIbtsXbts : Bool
  /-- `CLOCK_MHZ` (R5). -/
  clock : ClockGrade
  /-- `PREFETCH_BYTES` (R110). -/
  prefetchBytes : Nat
  /-- `BUS16(addr)`, the addresses for which it holds as a list of ranges (R214; log entry 6). -/
  bus16 : List Bus16Range
deriving DecidableEq, Repr

/-- `BUS16(addr)`: the device at the address answers with BS16# (R11, R214). -/
def Config.isBus16 (c : Config) (io : Bool) (a : Nat) : Bool :=
  c.bus16.any fun r => r.io == io && decide (r.first ≤ a) && decide (a ≤ r.last)

/-- The setting of the parameters in `State.reset`: the defaults R11 states, and for the parameters without a default no
coprocessor, no self-test, a fault-free unit, revision 0, 32 look-aside entries, the 16 MHz part, a queue of 16 bytes and
no 16-bit devices (log entry 6, DESIGN CHOICE). -/
def Config.standard : Config :=
  { coproc := .none, selfTest := false, selfTestPass := true, revisionId := 0, tlbEntries := 32,
    hasIoBitmap := false, v86IoIoplSensitive := true, hasIbtsXbts := false, clock := .mhz16, prefetchBytes := 16,
    bus16 := [] }

/-- An undefined flag or bit (R340 and the table of 93_implementation_defined.md section 2, D10). -/
opaque Config.freeBit : Nat → Nat → Bool

/-- An undefined register value or part of one (U8, U10, U13, U15, U16, U23). -/
opaque Config.freeWord : Nat → Nat → Word32

/-- A byte that comes from outside the processor or is undefined in memory: coprocessor data (U18), the undefined bytes
of PUSH Sreg and SGDT (U10, U17). -/
opaque Config.freeByte : Nat → Nat → Byte

/-- The byte a port returns: the first argument is the step, the second the port (R92, U5). -/
opaque Config.portByte : Nat → Nat → Byte

/-- Whether the look-aside buffer has forgotten the entry of a linear page: the first argument is the step, the second the page
(D17; one draw for each step and page: log entry 11, DESIGN CHOICE). -/
opaque Config.tlbForgets : Nat → Nat → Bool

/-- Which of the values a byte held since the last control transfer the prefetch queue supplies (R110, U4): an index
into the list of them, 0 the present value. The second argument is the physical address. -/
opaque Config.stalePick : Nat → Nat → Nat

/-- Through which of the page mappings that were in force since the last control transfer the prefetch read a code byte
(R111, U4): an index into the list of them, 0 the present mapping. The second argument is the linear address. -/
opaque Config.mapPick : Nat → Nat → Nat

end Sys2Proof
end

