-- ==== Sys2Proof/Machine/State.lean ====
section
/-!
DEFINITION. The state of the machine: every piece of state 10_state.md names, as plain data, with the reset values of
70_reset_and_hazards.md R704 and R710; and the reasons for which the machine stops (`Fault`, `Refusal`).
-/
namespace Sys2Proof.Machine

/-- EFLAGS (R29). The reserved bits are fixed and have no field. `intf` is IF, `ovf` is OF. -/
structure EFlags where
  cf : Bool
  pf : Bool
  af : Bool
  zf : Bool
  sf : Bool
  tf : Bool
  intf : Bool
  df : Bool
  ovf : Bool
  iopl : BitVec 2
  nt : Bool
  rf : Bool
  vm : Bool
deriving DecidableEq, Repr

/-- A segment register with its descriptor register (R37, R38): the selector and, loaded by the processor, base, limit
and attributes (R125). `code` is bit 43, `ec` bit 42 (E or C), `db` bit 54; `readable` and `writable` are the rights the
type gives (R126), and CS has both after reset (R41); `usable` is false after a null selector was loaded (R142). -/
structure SegReg where
  selector : Word16
  base : Word32
  limit : Word32
  usable : Bool
  present : Bool
  dpl : BitVec 2
  code : Bool
  ec : Bool
  readable : Bool
  writable : Bool
  accessed : Bool
  db : Bool
deriving DecidableEq, Repr

/-- GDTR and IDTR (R43). -/
structure TableReg where
  base : Word32
  limit : Word16
deriving DecidableEq, Repr

/-- LDTR (R44); `valid` is false after a null selector was loaded (R130). -/
structure LdtReg where
  selector : Word16
  valid : Bool
  base : Word32
  limit : Word32
deriving DecidableEq, Repr

/-- TR (R45); `is386` tells the 80386 format of the task state segment from the 80286 one (R152, R522). -/
structure TaskReg where
  selector : Word16
  base : Word32
  limit : Word32
  is386 : Bool
deriving DecidableEq, Repr

/-- CR0 (R48). The reserved bits 30..5 read 0 and have no field. -/
structure Cr0 where
  pe : Bool
  mp : Bool
  em : Bool
  ts : Bool
  et : Bool
  pg : Bool
deriving DecidableEq, Repr

/-- An entry of the look-aside buffer (R163): the linear page, its frame, the combined rights of both levels, and whether
dirty is already set. -/
structure TlbEntry where
  page : BitVec 20
  frame : BitVec 20
  user : Bool
  writable : Bool
  dirty : Bool
deriving DecidableEq, Repr

/-- The repeat prefixes F3 and F2 (R254, R440). -/
inductive Rep where
  | repe
  | repne
deriving DecidableEq, Repr

/-- The prefix bytes read so far of one instruction (R254, R278); `count` is their number (log entry 3). -/
structure Pfx where
  count : Nat
  seg : Option SReg
  lock : Bool
  rep : Option Rep
  o66 : Bool
  a67 : Bool
deriving DecidableEq, Repr

/-- No prefix. -/
def Pfx.none : Pfx := { count := 0, seg := .none, lock := false, rep := .none, o66 := false, a67 := false }

/-- The run state (R71): executing, halted by HLT (R692), shut down (R693). The hold state, which may stand on any of the
three (R668), is the field `hlda` of State; reset is the pin. -/
inductive Run where
  | executing
  | halted
  | shutdown
deriving DecidableEq, Repr

/-- The one-instruction shadow (R72, R727): after STI it holds off INTR, after a load of SS also NMI and debug traps. -/
inductive Shadow where
  | none
  | sti
  | ss
deriving DecidableEq, Repr

/-- The debug traps that wait for the instruction boundary (R624, R625): data-breakpoint matches of enabled conditions
(`hits`) and of conditions not enabled (`quiet`, U22), the single step, the task switch. -/
structure DebugTrap where
  hits : BitVec 4
  quiet : BitVec 4
  step : Bool
  task : Bool
deriving DecidableEq, Repr

/-- No debug trap waits. -/
def DebugTrap.none : DebugTrap := { hits := 0, quiet := 0, step := false, task := false }

/-- Where an interrupt comes from (R646): an interrupt instruction, an exception, or the pins INTR and NMI. -/
inductive Kind where
  | software
  | exception
  | external
deriving DecidableEq, Repr

/-- An event to deliver (R646): its number, its kind, the EIP to save (R640), the error code (R642) and the value of RF
in the saved flags image (R644). -/
structure Event where
  vector : Byte
  kind : Kind
  ret : Word32
  code : Option Word32
  rf : Bool
deriving DecidableEq, Repr

/-- The levels of the input pins as the environment sets them between steps (R70, R206, R603, R661, R700): INTR with the
vector its controller would supply, BUSY#, ERROR#, PEREQ, HOLD and RESET, true when active. -/
structure Pins where
  intr : Option Byte
  busy : Bool
  error : Bool
  pereq : Bool
  hold : Bool
  reset : Bool
deriving DecidableEq, Repr

/-- A cycle the processor runs that is no memory access: port input and output, one event for each bus cycle with the
bytes it moves, the lowest address first (R92, R93), interrupt acknowledge with the vector it returned (R661), the halt and
shutdown indications (R692, R693), and the coprocessor's command and operand transfers (R603, R610, R613). -/
inductive BusEvent where
  | ioRead (port : Nat) (bytes : List Byte)
  | ioWrite (port : Nat) (bytes : List Byte)
  | intAck (vector : Byte)
  | haltCycle
  | shutdownCycle
  | copIssue (opcode : BitVec 11) (cs : Word16) (eip : Word32) (sel : Word16) (off : Word32)
  | copPut (bytes : List Byte)
  | copGet (bytes : List Byte)
deriving DecidableEq, Repr

/-- A store for which the coprocessor has not yet raised PEREQ (R610): the linear address of the operand, for the data
breakpoints, and the physical addresses of its bytes, checked when the instruction ran (R609 step 4). -/
structure CopStore where
  la : Word32
  addrs : List Word32
deriving DecidableEq, Repr

/-- What the 80386 keeps for the coprocessor: CS:EIP and the 11-bit opcode of the last non-control ESC instruction and the
address of its memory operand (R613), and a store that is still due (R610). -/
structure CopState where
  cs : Word16
  eip : Word32
  opcode : BitVec 11
  sel : Word16
  off : Word32
  due : Option CopStore
deriving DecidableEq, Repr

/-- A page mapping that prefetched instruction bytes may have been read through (R111): CR0.PG, CR3 and the look-aside
buffer as they were. -/
structure PageMap where
  pg : Bool
  cr3 : Word32
  tlb : List TlbEntry
deriving DecidableEq, Repr

/-- What the prefetch queue may still hold since the last control transfer (R110, R111): the values that bytes of physical
memory held before they were stored to, and the page mappings in force before they were changed. -/
structure Stale where
  cells : List Host.Cell
  maps : List PageMap
deriving DecidableEq, Repr

/-- Nothing stale. -/
def Stale.none : Stale := { cells := [], maps := [] }

/-- A byte that another bus master stores at a physical address (R12, R106). -/
structure MasterWrite where
  addr : Word32
  byte : Byte
deriving DecidableEq, Repr

/-- The machine. INVENTORY.md, '## State', gives the rule of each field. -/
structure State where
  cfg : Config
  regs : Vector Word32 8
  eip : Word32
  nextEip : Word32
  flags : EFlags
  es : SegReg
  cs : SegReg
  ss : SegReg
  ds : SegReg
  fs : SegReg
  gs : SegReg
  gdtr : TableReg
  idtr : TableReg
  ldtr : LdtReg
  tr : TaskReg
  cpl : BitVec 2
  cr0 : Cr0
  cr2 : Word32
  cr3 : Word32
  dr0 : Word32
  dr1 : Word32
  dr2 : Word32
  dr3 : Word32
  dr6 : Word32
  dr7 : Word32
  tlb : List TlbEntry
  stale : Stale
  pfx : Pfx
  run : Run
  shadow : Shadow
  midRep : Bool
  trap : DebugTrap
  pending : Option Event
  nmiLatch : Bool
  nmiBlocked : Bool
  pins : Pins
  hlda : Bool
  bus : List BusEvent
  cop : CopState
  mem : List Host.Cell
  masters : List (List MasterWrite)
  tick : Nat
deriving DecidableEq, Repr

/-- Why the machine stops with a fault. All are safe: the spec gives the behaviour no effect. -/
inductive Fault where
  /-- Raised by an ESC instruction, and by a coprocessor store that is still due, when CR0.ET does not fit the fitted
  coprocessor (R612, U19). Safe. -/
  | etMismatch
  /-- Raised by MOV to DR7 with an RW or LEN field of 10, which R55 calls undefined (U3). Safe. -/
  | debugField
  /-- Raised by the delivery of an interrupt or exception in virtual-8086 mode through an 80286 gate (R648, U21). Safe. -/
  | v86Gate16
deriving DecidableEq, Repr

/-- Why an instruction is refused. All are safe: the spec gives the instruction no effect. -/
inductive Refusal where
  /-- An instruction whose meaning is not written yet. -/
  | notModelled (mnemonic : String)
  /-- Raised by the fetch of an encoding R275 lists as undocumented (U9). Safe. -/
  | undocumentedOpcode
  /-- Raised by F2 or F3 before an instruction that is no string instruction, and by F2 before MOVS, LODS, STOS, INS,
  OUTS (R254, R440, U7). Safe. -/
  | repeatPrefix
  /-- Raised by MOV to and from TR6 and TR7 (R562, U20). Safe. -/
  | testRegister
  /-- Raised by the reserved ESC memory forms, whose operand size R602 leaves undefined. Safe. -/
  | escReservedMemory
  /-- Raised by XBTS and IBTS with a bit count above the operand width (R460, U23). Safe. -/
  | bitStringCorner
deriving DecidableEq, Repr

/-- The reset value of the flags, 00000002H (R35). -/
def EFlags.atReset : EFlags :=
  { cf := false, pf := false, af := false, zf := false, sf := false, tf := false, intf := false, df := false,
    ovf := false, iopl := 0, nt := false, rf := false, vm := false }

/-- SS, DS, ES, FS and GS after reset (R41, R704): selector 0, base 0, limit FFFFH, present, read/write, accessed. DPL 0 and
the E bit 0 (expand up) are the model's choice: no rule gives them (log entry 1, DESIGN CHOICE). That the registers are usable
is read from R560, by which software goes on with the descriptors of real mode (log entry 1, DEDUCED). -/
def SegReg.dataAtReset : SegReg :=
  { selector := 0, base := 0, limit := 0xFFFF, usable := true, present := true, dpl := 0, code := false, ec := false,
    readable := true, writable := true, accessed := true, db := false }

/-- CS after reset (R41, R703, R704): selector F000H, base FFFF0000H, limit FFFFH, code that can be read
and written. The C bit 0 (non-conforming) is the model's choice, as DPL 0 is: no rule gives them (log entry 1, DESIGN
CHOICE). -/
def SegReg.codeAtReset : SegReg :=
  { SegReg.dataAtReset with selector := 0xF000, base := 0xFFFF0000, code := true }

/-- EAX, ECX, EDX, EBX, ESP, EBP, ESI, EDI after reset (R705, R706). The registers R704 leaves unspecified hold 0; AX is
0001H after a failed self-test (log entry 1, DESIGN CHOICE). -/
def resetRegs (c : Config) : Vector Word32 8 :=
  let eax : Word32 := if c.selfTest && !c.selfTestPass then 1 else 0
  let ebx : Word32 := (0x03#8 ++ c.revisionId).zeroExtend 32
  #v[eax, 0, 0, ebx, 0, 0, 0, 0]

/-- The machine after RESET with parameters `c` (R710). -/
def State.resetWith (c : Config) : State :=
  { cfg := c
    regs := resetRegs c
    eip := 0x0000FFF0
    nextEip := 0
    flags := EFlags.atReset
    es := SegReg.dataAtReset
    cs := SegReg.codeAtReset
    ss := SegReg.dataAtReset
    ds := SegReg.dataAtReset
    fs := SegReg.dataAtReset
    gs := SegReg.dataAtReset
    gdtr := { base := 0, limit := 0xFFFF }
    idtr := { base := 0, limit := 0x03FF }
    ldtr := { selector := 0, valid := false, base := 0, limit := 0 }
    tr := { selector := 0, base := 0, limit := 0xFFFF, is386 := true }
    cpl := 0
    cr0 := { pe := false, mp := false, em := false, ts := false, et := c.coproc == .i80387, pg := false }
    cr2 := 0
    cr3 := 0
    dr0 := 0
    dr1 := 0
    dr2 := 0
    dr3 := 0
    dr6 := 0
    dr7 := 0
    tlb := []
    stale := Stale.none
    pfx := Pfx.none
    run := .executing
    shadow := .none
    midRep := false
    trap := DebugTrap.none
    pending := .none
    nmiLatch := false
    nmiBlocked := false
    pins := { intr := .none, busy := false, error := false, pereq := false, hold := false, reset := false }
    hlda := false
    bus := []
    cop := { cs := 0, eip := 0, opcode := 0, sel := 0, off := 0, due := .none }
    mem := []
    masters := []
    tick := 0 }

/-- The machine after reset, with the parameters of `Config.standard` and memory that nothing has written. -/
def State.reset : State := State.resetWith Config.standard

end Sys2Proof.Machine
end

