-- ==== Sys2Proof/Machine/Registers.lean ====
section
/-!
DEFINITION. Reading and writing registers: the general registers with their 16- and 8-bit views (10_state.md R21, R22),
EFLAGS and CR0 as words (R29, R48), the segment registers by number (R37), the mode predicates
(21_segmentation_paging.md R136) and the size attributes of the instruction being executed (30_encoding.md R255, R256).
-/
namespace Sys2Proof.Machine

/-- General register `i`, 32 bits (R20). -/
def State.reg32 (s : State) (i : Fin 8) : Word32 := s.regs[i]

/-- `s` with general register `i` set (R20). -/
def State.setReg32 (s : State) (i : Fin 8) (v : Word32) : State := { s with regs := s.regs.set i v }

/-- The register that holds 8-bit register `i`: 4 to 7 are the high bytes of 0 to 3 (R22). -/
def byteHome (i : Fin 8) : Fin 8 := if i.val < 4 then i else Fin.ofNat 8 (i.val - 4)

/-- The lowest bit of 8-bit register `i` in its register (R22). -/
def byteLow (i : Fin 8) : Nat := if i.val < 4 then 0 else 8

/-- Register `i` of width `w`: `r(n, i)` (R22, R259). -/
def State.reg (s : State) : (w : Width) → Fin 8 → BitVec w.bits
  | .w8, i => (s.reg32 (byteHome i)).extractLsb' (byteLow i) 8
  | .w16, i => (s.reg32 i).extractLsb' 0 16
  | .w32, i => s.reg32 i

/-- A 32-bit register with bits `low`..`low + 7` replaced (R22). -/
def replaceByte (old : Word32) (low : Nat) (v : Byte) : Word32 :=
  (old &&& ~~~(0xFF#32 <<< low)) ||| (v.zeroExtend 32 <<< low)

/-- A 32-bit register with its low 16 bits replaced (R22). -/
def replaceWord (old : Word32) (v : Word16) : Word32 := old.extractLsb' 16 16 ++ v

/-- `s` with register `i` of width `w` written: a partial write keeps the other bits (R22). -/
def State.setReg (s : State) : (w : Width) → Fin 8 → BitVec w.bits → State
  | .w8, i, v => s.setReg32 (byteHome i) (replaceByte (s.reg32 (byteHome i)) (byteLow i) v)
  | .w16, i, v => s.setReg32 i (replaceWord (s.reg32 i) v)
  | .w32, i, v => s.setReg32 i v

/-- The segment register named `r` (R37). -/
def State.seg (s : State) : SReg → SegReg
  | .es => s.es
  | .cs => s.cs
  | .ss => s.ss
  | .ds => s.ds
  | .fs => s.fs
  | .gs => s.gs

/-- `s` with segment register `r` set. -/
def State.setSeg (s : State) (r : SReg) (v : SegReg) : State :=
  match r with
  | .es => { s with es := v }
  | .cs => { s with cs := v }
  | .ss => { s with ss := v }
  | .ds => { s with ds := v }
  | .fs => { s with fs := v }
  | .gs => { s with gs := v }

/-- One bit as a bit vector. -/
abbrev bit (b : Bool) : BitVec 1 := BitVec.ofBool b

/-- EFLAGS as a double word: bit 1 reads 1, the other reserved bits 0 (R29). -/
def EFlags.toWord (f : EFlags) : Word32 :=
  (bit f.vm ++ bit f.rf ++ 0#1 ++ bit f.nt ++ f.iopl ++ bit f.ovf ++ bit f.df ++ bit f.intf ++ bit f.tf ++ bit f.sf
    ++ bit f.zf ++ 0#1 ++ bit f.af ++ 0#1 ++ bit f.pf ++ 1#1 ++ bit f.cf).zeroExtend 32

/-- The flags of an image; reserved bits are ignored (R29, U3). -/
def EFlags.ofWord (w : Word32) : EFlags :=
  { cf := w.getLsbD 0, pf := w.getLsbD 2, af := w.getLsbD 4, zf := w.getLsbD 6, sf := w.getLsbD 7, tf := w.getLsbD 8,
    intf := w.getLsbD 9, df := w.getLsbD 10, ovf := w.getLsbD 11, iopl := w.extractLsb' 12 2, nt := w.getLsbD 14,
    rf := w.getLsbD 16, vm := w.getLsbD 17 }

/-- CR0 as a double word: the reserved bits read 0 (R48). -/
def Cr0.toWord (c : Cr0) : Word32 :=
  bit c.pg ++ 0#26 ++ bit c.et ++ bit c.ts ++ bit c.em ++ bit c.mp ++ bit c.pe

/-- CR0 from a value: the reserved bits are ignored (R560, U3). -/
def Cr0.ofWord (w : Word32) : Cr0 :=
  { pe := w.getLsbD 0, mp := w.getLsbD 1, em := w.getLsbD 2, ts := w.getLsbD 3, et := w.getLsbD 4, pg := w.getLsbD 31 }

/-- Real mode: CR0.PE = 0 (R136). -/
def State.realMode (s : State) : Bool := !s.cr0.pe

/-- Virtual-8086 mode: CR0.PE = 1 and EFLAGS.VM = 1 (R136). -/
def State.v86 (s : State) : Bool := s.cr0.pe && s.flags.vm

/-- Protected mode: CR0.PE = 1 and EFLAGS.VM = 0 (R136). -/
def State.protectedMode (s : State) : Bool := s.cr0.pe && !s.flags.vm

/-- The default size attribute: 32 bits in protected mode with CS.D = 1, else 16 (R255). -/
def State.defaultSize (s : State) : Size := if s.protectedMode && s.cs.db then .s32 else .s16

/-- The operand size of the instruction (R256). -/
def State.osz (s : State) : Size := if s.pfx.o66 then s.defaultSize.other else s.defaultSize

/-- The address size of the instruction (R256). -/
def State.asz (s : State) : Size := if s.pfx.a67 then s.defaultSize.other else s.defaultSize

/-- The stack pointer width: 32 bits when SS.B = 1, and 16 in real and virtual-8086 mode (R470). -/
def State.ssz (s : State) : Size := if s.protectedMode && s.ss.db then .s32 else .s16

/-- Whether an access at the current privilege level is a user access (R164). -/
def State.userLevel (s : State) : Bool := s.cpl == 3

def eax : Fin 8 := 0
def ecx : Fin 8 := 1
def edx : Fin 8 := 2
def ebx : Fin 8 := 3
def esp : Fin 8 := 4
def ebp : Fin 8 := 5
def esi : Fin 8 := 6
def edi : Fin 8 := 7

/-- Register `i` of address size `sz`, zero-extended to 32 bits: the index, count and pointer registers (R256). -/
def State.addrReg (s : State) (sz : Size) (i : Fin 8) : Word32 :=
  match sz with
  | .s16 => (s.reg .w16 i).zeroExtend 32
  | .s32 => s.reg32 i

/-- `s` with register `i` of address size `sz` written; with 16 bits the upper half is kept (R22). -/
def State.setAddrReg (s : State) (sz : Size) (i : Fin 8) (v : Word32) : State :=
  match sz with
  | .s16 => s.setReg .w16 i (v.truncate 16)
  | .s32 => s.setReg32 i v

/-- An offset computed modulo the address size (R260, R261). -/
def wrapTo (sz : Size) (v : Word32) : Word32 :=
  match sz with
  | .s16 => v &&& 0xFFFF
  | .s32 => v

/-- The part of an instruction pointer that the current code segment uses: its low 16 bits in a 16-bit segment (R27). A
sequential advance is taken modulo 2^16 there (R278). -/
def State.wrapEip (s : State) (v : Word32) : Word32 := wrapTo s.defaultSize v

/-- The offset of the current instruction in the code segment: EIP (R25), of which a 16-bit segment uses the low 16 bits only
(R27). That R27 so qualifies the `CS.base + EIP` of R25 and R138 is DEDUCED (log entry 45). -/
def State.codeOffset (s : State) : Word32 := s.wrapEip s.eip

/-- A free bit of this step (log entry 7). -/
def State.freeBit (s : State) (slot : Nat) : Bool := Config.freeBit s.tick slot

/-- A free double word of this step (log entry 7). -/
def State.freeWord (s : State) (slot : Nat) : Word32 := Config.freeWord s.tick slot

/-- A free byte of this step (log entry 7). -/
def State.freeByte (s : State) (slot : Nat) : Byte := Config.freeByte s.tick slot

end Sys2Proof.Machine
end

