-- ==== Sys2Proof/Machine/Flags.lean ====
section
/-!
DEFINITION. Every flag computation: SetSZP (10_state.md R33), addition and subtraction (42_arithmetic_decimal.md R380),
logic (41_logic_shift_rotate.md R340), shifts, rotates and double shifts (R360 to R369), multiplication (R392 to R394),
decimal adjusts (R400 to R405), the bit instructions (44_bit.md R451 to R457) and the conditions
(46_control_transfer.md R497). A flag the rules leave undefined is drawn from `u`, the free bits of the step (D10, log
entry 7): slot 0 CF, 1 PF, 2 AF, 3 ZF, 4 SF, 5 OF.
-/
namespace Sys2Proof.Machine

/-- A result of `n` bits and the flags after it. -/
structure Result (n : Nat) where
  value : BitVec n
  flags : EFlags
deriving DecidableEq, Repr

/-- Even parity of a byte (R30: PF). -/
def evenParity (b : Byte) : Bool :=
  !(b.getLsbD 0 ^^ b.getLsbD 1 ^^ b.getLsbD 2 ^^ b.getLsbD 3 ^^ b.getLsbD 4 ^^ b.getLsbD 5 ^^ b.getLsbD 6 ^^ b.getLsbD 7)

/-- `SetSZP(n, res)` (R33). -/
def setSZP {n : Nat} (res : BitVec n) (f : EFlags) : EFlags :=
  { f with zf := res == 0, sf := res.msb, pf := evenParity (res.extractLsb' 0 8) }

/-- `Add(n, a, b, c)` (R380). -/
def addFlags {n : Nat} (a b : BitVec n) (c : Bool) (f : EFlags) : Result n :=
  let sum := a.toNat + b.toNat + c.toNat
  let res := BitVec.ofNat n sum
  { value := res
    flags := { setSZP res f with
      cf := decide (2 ^ n ≤ sum)
      af := (a ^^^ b ^^^ res).getLsbD 4
      ovf := ((a ^^^ res) &&& (b ^^^ res)).msb } }

/-- `Sub(n, a, b, c)` (R380). -/
def subFlags {n : Nat} (a b : BitVec n) (c : Bool) (f : EFlags) : Result n :=
  let res := a - b - BitVec.ofNat n c.toNat
  { value := res
    flags := { setSZP res f with
      cf := decide (a.toNat < b.toNat + c.toNat)
      af := (a ^^^ b ^^^ res).getLsbD 4
      ovf := ((a ^^^ b) &&& (a ^^^ res)).msb } }

/-- The flags of AND, OR, XOR and TEST (R340): AF is undefined. -/
def logicFlags {n : Nat} (u : Nat → Bool) (res : BitVec n) (f : EFlags) : Result n :=
  { value := res, flags := { setSZP res f with cf := false, ovf := false, af := u 2 } }

/-- The eight two-operand operations of R272, group 1. -/
inductive AluOp where
  | add
  | or
  | adc
  | sbb
  | and
  | sub
  | xor
  | cmp
deriving DecidableEq, Repr

/-- The result and flags of a two-operand operation (R341 to R343, R382 to R386). -/
def aluCompute {n : Nat} (op : AluOp) (u : Nat → Bool) (a b : BitVec n) (f : EFlags) : Result n :=
  match op with
  | .add => addFlags a b false f
  | .adc => addFlags a b f.cf f
  | .sub => subFlags a b false f
  | .sbb => subFlags a b f.cf f
  | .cmp => subFlags a b false f
  | .and => logicFlags u (a &&& b) f
  | .or => logicFlags u (a ||| b) f
  | .xor => logicFlags u (a ^^^ b) f

/-- INC (R387): as ADD of 1, CF kept. -/
def incCompute {n : Nat} (a : BitVec n) (f : EFlags) : Result n :=
  let r := addFlags a 1 false f
  { r with flags := { r.flags with cf := f.cf } }

/-- DEC (R388): as SUB of 1, CF kept. -/
def decCompute {n : Nat} (a : BitVec n) (f : EFlags) : Result n :=
  let r := subFlags a 1 false f
  { r with flags := { r.flags with cf := f.cf } }

/-- NEG (R389): 0 - a. -/
def negCompute {n : Nat} (a : BitVec n) (f : EFlags) : Result n := subFlags 0 a false f

/-- The shifts and rotates of R272, group 2. -/
inductive ShiftOp where
  | rol
  | ror
  | rcl
  | rcr
  | shl
  | shr
  | sar
deriving DecidableEq, Repr

/-- The count modulo 32 (R360). -/
def maskCount (raw : Byte) : Nat := raw.toNat % 32

/-- SHL by a count above 0 (R361). -/
def shlCompute {n : Nat} (u : Nat → Bool) (d : BitVec n) (count : Nat) (f : EFlags) : Result n :=
  let res := d <<< count
  let cf := if count ≤ n then d.getLsbD (n - count) else u 0
  { value := res
    flags := { setSZP res f with cf := cf, ovf := if count = 1 then res.msb ^^ cf else u 5, af := u 2 } }

/-- SHR by a count above 0 (R362). -/
def shrCompute {n : Nat} (u : Nat → Bool) (d : BitVec n) (count : Nat) (f : EFlags) : Result n :=
  let res := d >>> count
  let cf := if count ≤ n then d.getLsbD (count - 1) else u 0
  { value := res
    flags := { setSZP res f with cf := cf, ovf := if count = 1 then d.msb else u 5, af := u 2 } }

/-- SAR by a count above 0 (R363). -/
def sarCompute {n : Nat} (u : Nat → Bool) (d : BitVec n) (count : Nat) (f : EFlags) : Result n :=
  let res := d.sshiftRight (min count n)
  let cf := if count < n then d.getLsbD (count - 1) else d.msb
  { value := res
    flags := { setSZP res f with cf := cf, ovf := if count = 1 then false else u 5, af := u 2 } }

/-- ROL by a count above 0 (R364): CF and OF only. -/
def rolCompute {n : Nat} (u : Nat → Bool) (d : BitVec n) (count : Nat) (f : EFlags) : Result n :=
  let k := count % n
  let res := (d <<< k) ||| (d >>> (n - k))
  let cf := res.getLsbD 0
  { value := res, flags := { f with cf := cf, ovf := if count = 1 then res.msb ^^ cf else u 5 } }

/-- ROR by a count above 0 (R365): CF and OF only. -/
def rorCompute {n : Nat} (u : Nat → Bool) (d : BitVec n) (count : Nat) (f : EFlags) : Result n :=
  let k := count % n
  let res := (d >>> k) ||| (d <<< (n - k))
  { value := res
    flags := { f with cf := res.msb, ovf := if count = 1 then res.msb ^^ res.getLsbD (n - 2) else u 5 } }

/-- The rotate amount of RCL and RCR (R366): modulo 9 for bytes, 17 for words. -/
def carryRotateCount (n count : Nat) : Nat := if n = 32 then count else count % (n + 1)

/-- RCL by a count above 0 (R366): the n+1 bits CF ++ d are rotated left. CF and OF only. -/
def rclCompute {n : Nat} (u : Nat → Bool) (d : BitVec n) (count : Nat) (f : EFlags) : Result n :=
  let k := carryRotateCount n count
  let t : BitVec (n + 1) := BitVec.cons f.cf d
  let r : BitVec (n + 1) := (t <<< k) ||| (t >>> (n + 1 - k))
  let res := r.extractLsb' 0 n
  let cf := r.getLsbD n
  { value := res, flags := { f with cf := cf, ovf := if count = 1 then res.msb ^^ cf else u 5 } }

/-- RCR by a count above 0 (R367): the n+1 bits CF ++ d are rotated right; OF from the values before. CF and OF only. -/
def rcrCompute {n : Nat} (u : Nat → Bool) (d : BitVec n) (count : Nat) (f : EFlags) : Result n :=
  let k := carryRotateCount n count
  let t : BitVec (n + 1) := BitVec.cons f.cf d
  let r : BitVec (n + 1) := (t >>> k) ||| (t <<< (n + 1 - k))
  { value := r.extractLsb' 0 n
    flags := { f with cf := r.getLsbD n, ovf := if count = 1 then d.msb ^^ f.cf else u 5 } }

/-- A shift or rotate by a masked count; with a count of 0 nothing changes (R360). -/
def shiftCompute {n : Nat} (op : ShiftOp) (u : Nat → Bool) (d : BitVec n) (count : Nat) (f : EFlags) : Result n :=
  if count = 0 then { value := d, flags := f }
  else
    match op with
    | .rol => rolCompute u d count f
    | .ror => rorCompute u d count f
    | .rcl => rclCompute u d count f
    | .rcr => rcrCompute u d count f
    | .shl => shlCompute u d count f
    | .shr => shrCompute u d count f
    | .sar => sarCompute u d count f

/-- All six status flags undefined (section 2 of 93_implementation_defined.md). -/
def freeStatus (u : Nat → Bool) (f : EFlags) : EFlags :=
  { f with cf := u 0, pf := u 1, af := u 2, zf := u 3, sf := u 4, ovf := u 5 }

/-- SHLD or SHRD (`left` or not) by a masked count; with a count above the width every result is undefined, the
destination being the free value `v` (R368, R369, U23). -/
def doubleShift {n : Nat} (left : Bool) (u : Nat → Bool) (v : BitVec n) (d s : BitVec n) (count : Nat) (f : EFlags) :
    Result n :=
  if count = 0 then { value := d, flags := f }
  else if n < count then { value := v, flags := freeStatus u f }
  else
    let res := if left then (d <<< count) ||| (s >>> (n - count)) else (d >>> count) ||| (s <<< (n - count))
    let cf := if left then d.getLsbD (n - count) else d.getLsbD (count - 1)
    { value := res
      flags := { setSZP res f with cf := cf, ovf := if count = 1 then res.msb ^^ d.msb else u 5, af := u 2 } }

/-- The flags of a multiplication (R392, R393): CF = OF = `wide`, the others undefined. -/
def mulFlags (u : Nat → Bool) (wide : Bool) (f : EFlags) : EFlags :=
  { f with cf := wide, ovf := wide, sf := u 4, zf := u 3, af := u 2, pf := u 1 }

/-- DAA (R400): AL and the flags. -/
def daaCompute (u : Nat → Bool) (al : Byte) (f : EFlags) : Result 8 :=
  let low := decide (9 < (al &&& 0x0F).toNat) || f.af
  let high := decide (0x99 < al.toNat) || f.cf
  let v1 := if low then al + 6 else al
  let v2 := if high then v1 + 0x60 else v1
  { value := v2, flags := { setSZP v2 f with af := low, cf := high, ovf := u 5 } }

/-- DAS (R401): AL and the flags. -/
def dasCompute (u : Nat → Bool) (al : Byte) (f : EFlags) : Result 8 :=
  let low := decide (9 < (al &&& 0x0F).toNat) || f.af
  let high := decide (0x99 < al.toNat) || f.cf
  let v1 := if low then al - 6 else al
  let borrow := low && (f.cf || decide (al.toNat < 6))
  let v2 := if high then v1 - 0x60 else v1
  { value := v2, flags := { setSZP v2 f with af := low, cf := high || borrow, ovf := u 5 } }

/-- AF and CF as given, OF, SF, ZF and PF undefined (R402, R403). -/
def asciiFlags (u : Nat → Bool) (adjusted : Bool) (f : EFlags) : EFlags :=
  { f with af := adjusted, cf := adjusted, ovf := u 5, sf := u 4, zf := u 3, pf := u 1 }

/-- AAA (R402): AX and the flags. -/
def aaaCompute (u : Nat → Bool) (ax : Word16) (f : EFlags) : Result 16 :=
  let adjust := decide (9 < (ax &&& 0x000F).toNat) || f.af
  let v := if adjust then ax + 0x0106 else ax
  { value := v &&& 0xFF0F, flags := asciiFlags u adjust f }

/-- AAS (R403): AX and the flags. -/
def aasCompute (u : Nat → Bool) (ax : Word16) (f : EFlags) : Result 16 :=
  let adjust := decide (9 < (ax &&& 0x000F).toNat) || f.af
  let v := if adjust then ax - 6 - 0x0100 else ax
  { value := v &&& 0xFF0F, flags := asciiFlags u adjust f }

/-- The flags of AAM and AAD (R404, R405): SF, ZF, PF of AL, the others undefined. -/
def aamFlags (u : Nat → Bool) (al : Byte) (f : EFlags) : EFlags :=
  { setSZP al f with ovf := u 5, af := u 2, cf := u 0 }

/-- AAM with a base that is not 0 (R404): AX and the flags. -/
def aamCompute (u : Nat → Bool) (al base : Byte) (f : EFlags) : Result 16 :=
  { value := (al / base) ++ (al % base), flags := aamFlags u (al % base) f }

/-- AAD (R405): AX and the flags. -/
def aadCompute (u : Nat → Bool) (ax : Word16) (base : Byte) (f : EFlags) : Result 16 :=
  let al := ax.extractLsb' 0 8 + ax.extractLsb' 8 8 * base
  { value := al.zeroExtend 16, flags := aamFlags u al f }

/-- The bit instructions BT, BTS, BTR, BTC. -/
inductive BitOp where
  | test
  | set
  | reset
  | complement
deriving DecidableEq, Repr

/-- A bit instruction on bit `k` of a word (R451 to R454): CF is the old bit, the other status flags undefined. -/
def bitCompute {n : Nat} (op : BitOp) (u : Nat → Bool) (w : BitVec n) (k : Nat) (f : EFlags) : Result n :=
  let mask : BitVec n := 1#n <<< k
  let res :=
    match op with
    | .test => w
    | .set => w ||| mask
    | .reset => w &&& ~~~mask
    | .complement => w ^^^ mask
  { value := res, flags := { freeStatus u f with cf := w.getLsbD k } }

/-- The least bit number from `k` on, among the next `m`, that is set in `s` (R456). -/
def lowestBit {n : Nat} (s : BitVec n) : Nat → Nat → Nat
  | 0, k => k
  | m + 1, k => if s.getLsbD k then k else lowestBit s m (k + 1)

/-- The greatest `k` below `m` with bit `k` of `s` set (R457). -/
def highestBit {n : Nat} (s : BitVec n) : Nat → Nat
  | 0 => 0
  | m + 1 => if s.getLsbD m then m else highestBit s m

/-- The condition codes 0 to F (R497). -/
inductive Cond where
  | o
  | no
  | b
  | ae
  | e
  | ne
  | be
  | a
  | s
  | ns
  | p
  | np
  | l
  | ge
  | le
  | g
deriving DecidableEq, Repr

/-- `Cond(cc)` (R497). -/
def Cond.holds (c : Cond) (f : EFlags) : Bool :=
  match c with
  | .o => f.ovf
  | .no => !f.ovf
  | .b => f.cf
  | .ae => !f.cf
  | .e => f.zf
  | .ne => !f.zf
  | .be => f.cf || f.zf
  | .a => !f.cf && !f.zf
  | .s => f.sf
  | .ns => !f.sf
  | .p => f.pf
  | .np => !f.pf
  | .l => f.sf != f.ovf
  | .ge => f.sf == f.ovf
  | .le => f.zf || (f.sf != f.ovf)
  | .g => !f.zf && (f.sf == f.ovf)

end Sys2Proof.Machine
end

