-- ==== Sys2Proof/Machine/Bytes.lean ====
section
/-!
DEFINITION. Byte order (20_memory.md R80): values of 8, 16 and 32 bits as lists of bytes, least significant first.
-/
namespace Sys2Proof.Machine

/-- The number whose bytes, least significant first, are `bs` (R80). -/
def natOfBytes : List Byte → Nat
  | [] => 0
  | b :: bs => b.toNat + 256 * natOfBytes bs

/-- The `n` bytes of a number, least significant first (R80). -/
def bytesOfNat : Nat → Nat → List Byte
  | 0, _ => []
  | n + 1, v => BitVec.ofNat 8 v :: bytesOfNat n (v / 256)

/-- The value of width `w` whose bytes are `bs`. -/
def valueOf (w : Width) (bs : List Byte) : BitVec w.bits := BitVec.ofNat w.bits (natOfBytes bs)

/-- The bytes of a value of width `w`. -/
def bytesOf (w : Width) (v : BitVec w.bits) : List Byte := bytesOfNat w.bytes v.toNat

end Sys2Proof.Machine
end

