-- ==== Sys2Proof/Machine/Memory.lean ====
section
/-!
DEFINITION. Physical memory (10_state.md R63, 20_memory.md R80): a list of (address, byte) pairs in one canonical form,
addresses strictly rising, below 2^32, and no entry equal to what an unlisted address reads as.
-/
namespace Sys2Proof.Machine

/-- What a byte of memory that nothing has written reads as (log entry 2, DESIGN CHOICE). -/
def unwrittenByte : Byte := 0

/-- One byte of memory. -/
def memRead (m : List Host.Cell) (a : Nat) : Byte :=
  match m with
  | [] => unwrittenByte
  | (k, v) :: t => if k = a then v else memRead t a

/-- Memory with byte `b` stored at `a`. -/
def memWrite (m : List Host.Cell) (a : Nat) (b : Byte) : List Host.Cell :=
  match m with
  | [] => if b = unwrittenByte then [] else [(a, b)]
  | (k, v) :: t =>
    if a < k then (if b = unwrittenByte then (k, v) :: t else (a, b) :: (k, v) :: t)
    else if a = k then (if b = unwrittenByte then t else (a, b) :: t)
    else (k, v) :: memWrite t a b

/-- Every address of the list is at least `low` and they rise strictly, no byte is the unwritten one, and all addresses
are physical (R63). -/
def memWfFrom (low : Nat) : List Host.Cell → Bool
  | [] => true
  | (k, v) :: t => decide (low ≤ k) && decide (k < 2 ^ 32) && v != unwrittenByte && memWfFrom (k + 1) t

/-- The canonical form of memory. -/
def Memory.wf (m : List Host.Cell) : Bool := memWfFrom 0 m

end Sys2Proof.Machine
end

