-- ==== Sys2Proof/Machine/Access.lean ====
section
/-!
DEFINITION. The memory path: the monad of an instruction's steps, physical memory (20_memory.md R80), page translation
with the look-aside buffer (21_segmentation_paging.md R160 to R168), linear accesses (R88), segment checks (R140), data
breakpoints (60_exceptions.md R625) and the stack primitives (45_stack.md R470).
-/
namespace Sys2Proof.Machine

/-- An exception detected inside an instruction or a delivery: its number, its error code, and whether it belongs to the
new task because a task switch has passed its commit point (R520). -/
structure Exc where
  vector : Byte
  code : Option Word32
  newTask : Bool
deriving DecidableEq, Repr

/-- What ends the steps of an instruction early. -/
inductive Stop where
  | exc (e : Exc)
  | fault (f : Fault)
  | refuse (r : Refusal)
deriving DecidableEq, Repr

/-- The steps of an instruction: they change the state, or stop. -/
abbrev M := EStateM Stop State

/-- Raise exception `v` with no error code (R622). -/
def raise {α : Type} (v : Byte) : M α := throw (.exc { vector := v, code := none, newTask := false })

/-- Raise exception `v` with error code `e` (R642). -/
def raiseCode {α : Type} (v : Byte) (e : Word32) : M α :=
  throw (.exc { vector := v, code := some e, newTask := false })

/-- Raise exception `v` with a selector's error code, `sel AND FFFCH` (R642). -/
def raiseSel {α : Type} (v : Byte) (sel : Word16) : M α := raiseCode v ((sel &&& 0xFFFC).zeroExtend 32)

/-- Exception `v` unless `c` holds, with no error code. -/
def require (c : Bool) (v : Byte) : M Unit := if c then pure () else raise v

/-- Exception `v` with error code 0 unless `c` holds. -/
def require0 (c : Bool) (v : Byte) : M Unit := if c then pure () else raiseCode v 0

/-- Exception `v` with the selector's error code unless `c` holds. -/
def requireSel (c : Bool) (v : Byte) (sel : Word16) : M Unit := if c then pure () else raiseSel v sel

/-- Stop with a fault. -/
def stopFault {α : Type} (f : Fault) : M α := throw (.fault f)

/-- Stop with a refusal. -/
def refuse {α : Type} (r : Refusal) : M α := throw (.refuse r)

/-! ## Physical memory -/

/-- The byte at a physical address (R80). -/
def State.physByte (s : State) (a : Word32) : Byte := memRead s.mem a.toNat

/-- `s` with a physical byte stored (R80). The byte the address held is one that the fetch may still return (R110). -/
def State.setPhysByte (s : State) (a : Word32) (b : Byte) : State :=
  { s with
    mem := memWrite s.mem a.toNat b
    stale := { s.stale with cells := (a.toNat, s.physByte a) :: s.stale.cells } }

/-- `s` with bytes stored at a list of physical addresses, in order. -/
def State.setPhysBytes (s : State) : List Word32 → List Byte → State
  | a :: as, b :: bs => (s.setPhysByte a b).setPhysBytes as bs
  | _, _ => s

/-- `s` after the bus has been free for once, between two cycles of the processor: the other masters have stored the first
group of bytes of `masters`, which the environment plans as it sets the pins, or nothing where no group is left (R12,
R106, D28; log entry 36). A byte they replace is stale for the prefetch, and the look-aside buffer and the descriptor
registers stay as they are: the processor does not snoop. -/
def State.turned (s : State) : State :=
  match s.masters with
  | [] => s
  | g :: gs => { s with masters := gs }.setPhysBytes (g.map MasterWrite.addr) (g.map MasterWrite.byte)

/-- A group of steps that runs as one locked sequence: the other masters have the bus before it, and not again until it is
over (R100, R230). -/
def locked {α : Type} (x : M α) : M α := fun s =>
  let t := s.turned
  match x { t with masters := [] } with
  | .ok a u => .ok a { u with masters := t.masters }
  | .error e u => .error e { u with masters := t.masters }

/-! ## Bus cycles -/

/-- The at most four bytes at `as`, cut by the double word that holds the first of them: the low part and the high part,
which is empty for an access inside one double word (R85). The two halves that BS16# makes of a cycle are not cut: HOLD is
not acknowledged between them (R231). -/
def dwordParts (as : List Word32) : List Word32 × List Word32 := as.splitAt (4 - (as.headD 0).toNat % 4)

/-- One bus cycle that reads the bytes at `as` (R89). -/
def State.cycleRead (s : State) (as : List Word32) : List Byte × State := (as.map s.turned.physByte, s.turned)

/-- A read of at most four bytes: the part in the higher double word moves first (R85). -/
def State.pieceRead (s : State) (as : List Word32) : List Byte × State :=
  let p := dwordParts as
  if p.2.isEmpty then s.cycleRead as
  else
    let hi := s.cycleRead p.2
    let lo := hi.2.cycleRead p.1
    (lo.1 ++ hi.1, lo.2)

/-- A list cut into pieces of `k` elements, the last one shorter where they do not come out even; there are at most `fuel`
pieces. -/
def piecesOf {α : Type} (k : Nat) : Nat → List α → List (List α)
  | 0, _ => []
  | fuel + 1, l => if l.isEmpty then [] else l.take k :: piecesOf k fuel (l.drop k)

/-- A read of a list of pieces, one after the other (R87, R610). -/
def State.cyclesRead (s : State) : List (List Word32) → List Byte × State
  | [] => ([], s)
  | p :: ps =>
    let r := s.pieceRead p
    let q := r.2.cyclesRead ps
    (r.1 ++ q.1, q.2)

/-- One bus cycle that writes the bytes at `as` (R89). -/
def State.cycleWrite (s : State) (as : List Word32) (bs : List Byte) : State := s.turned.setPhysBytes as bs

/-- A write of at most four bytes: the part in the higher double word moves first (R85). -/
def State.pieceWrite (s : State) (as : List Word32) (bs : List Byte) : State :=
  let p := dwordParts as
  if p.2.isEmpty then s.cycleWrite as bs
  else (s.cycleWrite p.2 (bs.drop p.1.length)).cycleWrite p.1 (bs.take p.1.length)

/-- A write of a list of pieces, one after the other (R87, R610). -/
def State.cyclesWrite (s : State) : List (List Word32) → List Byte → State
  | [], _ => s
  | p :: ps, bs => (s.pieceWrite p (bs.take p.length)).cyclesWrite ps (bs.drop p.length)

/-- The bytes at `as`, read in pieces of `k` bytes, at most 4, the lowest first, and each in as many bus cycles as it takes
(R85, R87, R89): with no other master the cycles make no difference (R85, R104). An operand of the processor goes in pieces
of 4 (log entry 36). -/
def State.busRead (s : State) (k : Nat) (as : List Word32) : List Byte × State :=
  if s.masters.isEmpty then (as.map s.physByte, s) else s.cyclesRead (piecesOf k as.length as)

/-- `s` after the bytes at `as` have been written in pieces of `k` bytes, the lowest first, and each in as many bus cycles as
it takes (R85, R87, R89). -/
def State.busWrite (s : State) (k : Nat) (as : List Word32) (bs : List Byte) : State :=
  if s.masters.isEmpty then s.setPhysBytes as bs else s.cyclesWrite (piecesOf k as.length as) bs

/-- The four physical addresses of a double word; they wrap modulo 2^32 (R80, D37). -/
def dwordAddrs (a : Word32) : List Word32 := [a, a + 1, a + 2, a + 3]

/-- A double word of physical memory (R80): page-table entries. -/
def State.physDword (s : State) (a : Word32) : Word32 :=
  BitVec.ofNat 32 (natOfBytes ((dwordAddrs a).map s.physByte))

/-- `s` with a double word of physical memory stored. -/
def State.setPhysDword (s : State) (a v : Word32) : State :=
  s.setPhysBytes (dwordAddrs a) (bytesOf .w32 v)

/-! ## Paging -/

/-- The page number of a linear address. -/
def pageOf (la : Word32) : BitVec 20 := la.extractLsb' 12 20

/-- The physical address of `la` in page frame `frame`. -/
def inFrame (frame : BitVec 20) (la : Word32) : Word32 := frame ++ la.extractLsb' 0 12

/-- Error code of a page fault (R168): present, write, user. -/
def pageFaultCode (present write user : Bool) : Word32 := (bit user ++ bit write ++ bit present).zeroExtend 32

/-- Page fault: CR2 takes the faulting linear address, exception 14 (R167, R637). -/
def pageFault {α : Type} (la : Word32) (present write user : Bool) : M α := do
  modify fun s => { s with cr2 := la }
  raiseCode 14 (pageFaultCode present write user)

/-- Page-level protection (R164): a supervisor access may do anything. -/
def pageAllowed (pageUser pageWritable write user : Bool) : Bool :=
  !user || (pageUser && (!write || pageWritable))

/-- The look-aside entry of a page (R112). -/
def State.tlbLookup (s : State) (page : BitVec 20) : Option TlbEntry := s.tlb.find? fun e => e.page == page

/-- `s` with the look-aside entry of a page gone where the buffer has forgotten it, which it may do at any time: a free
choice (R112, D17, log entry 11). What is gone comes back through a miss only. That the choice is drawn once for each step and
page, so that every translation of a page in one step forgets its entry or none does, is the model's choice (log entry 11, DESIGN
CHOICE). -/
def State.tlbForget (s : State) (page : BitVec 20) : State :=
  if Config.tlbForgets s.tick page.toNat then { s with tlb := s.tlb.filter fun e => e.page != page } else s

/-- `s` with an entry loaded into the look-aside buffer; the oldest entry makes room (R163). -/
def State.tlbInsert (s : State) (e : TlbEntry) : State :=
  { s with tlb := (e :: s.tlb.filter (fun x => x.page != e.page)).take s.cfg.tlbEntries }

/-- `s` with the look-aside buffer emptied (R113). -/
def State.tlbFlush (s : State) : State := { s with tlb := [] }

/-- The locked setting of bits in an entry of the page directory or of a page table (R100, R166). -/
def State.markEntry (s : State) (a bits : Word32) : State :=
  s.turned.setPhysDword a (s.turned.physDword a ||| bits)

/-- The walk through page directory and page table (R160), with the accessed and dirty bits set (R166, D33). Each read of
an entry and each locked update of one is a cycle of its own (R100, R104). -/
def walkPages (la : Word32) (write user : Bool) : M Word32 := do
  modify State.turned
  let s ← get
  let pdeAddr : Word32 := s.cr3.extractLsb' 12 20 ++ la.extractLsb' 22 10 ++ 0#2
  let pde := s.physDword pdeAddr
  if !pde.getLsbD 0 then pageFault la false write user
  modify State.turned
  let s ← get
  let pteAddr : Word32 := pde.extractLsb' 12 20 ++ la.extractLsb' 12 10 ++ 0#2
  let pte := s.physDword pteAddr
  if !pte.getLsbD 0 then pageFault la false write user
  let us := pde.getLsbD 2 && pte.getLsbD 2
  let rw := pde.getLsbD 1 && pte.getLsbD 1
  if !pageAllowed us rw write user then pageFault la true write user
  if !pde.getLsbD 5 then modify fun s => s.markEntry pdeAddr 0x20
  let marks : Word32 := if write then 0x60 else 0x20
  let pte' := pte ||| marks
  if pte' != pte then modify fun s => s.markEntry pteAddr marks
  modify fun s => s.tlbInsert
    { page := pageOf la, frame := pte.extractLsb' 12 20, user := us, writable := rw, dirty := pte'.getLsbD 6 }
  return inFrame (pte.extractLsb' 12 20) la

/-- `Translate(la, write, user)` (R160). A write through an entry whose dirty bit is clear is a miss (R163). -/
def translate (la : Word32) (write user : Bool) : M Word32 := do
  let s ← get
  if !s.cr0.pg then return la
  modify fun s => s.tlbForget (pageOf la)
  match (← get).tlbLookup (pageOf la) with
  | some e =>
    if write && !e.dirty then walkPages la write user
    else if pageAllowed e.user e.writable write user then return inFrame e.frame la
    else pageFault la true write user
  | none => walkPages la write user

/-- The physical addresses of the `n` bytes at `la`: one translation per page, both made before any byte is touched
(R88). Operands are shorter than a page. -/
def translateRange (la : Word32) (n : Nat) (write user : Bool) : M (List Word32) := do
  let first := 4096 - la.toNat % 4096
  let p ← translate la write user
  if n ≤ first then
    return (List.range n).map fun k => p + BitVec.ofNat 32 k
  else
    let q ← translate (la + BitVec.ofNat 32 first) write user
    return (List.range n).map fun k => if k < first then p + BitVec.ofNat 32 k else q + BitVec.ofNat 32 (k - first)

/-- `MemRead(la, n)` at the given privilege (R88). -/
def linRead (la : Word32) (n : Nat) (user : Bool) : M (List Byte) := do
  let as ← translateRange la n false user
  modifyGet fun s => s.busRead 4 as

/-- `MemWrite(la, n, v)` at the given privilege (R88). -/
def linWrite (la : Word32) (bs : List Byte) (user : Bool) : M Unit := do
  let as ← translateRange la bs.length true user
  modify fun s => s.busWrite 4 as bs

/-- Read a value of width `w` on the processor's own behalf: a supervisor access (R164). -/
def sysRead (w : Width) (la : Word32) : M (BitVec w.bits) := do
  return valueOf w (← linRead la w.bytes false)

/-- Write a value of width `w` on the processor's own behalf: a supervisor access (R164). -/
def sysWrite (w : Width) (la : Word32) (v : BitVec w.bits) : M Unit := linWrite la (bytesOf w v) false

/-! ## Segments -/

/-- The exception of an access through segment register `r`: 12 for SS, 13 for the others (R140). -/
def segVector (r : SReg) : Byte := if r = .ss then 12 else 13

/-- Whether the `n` bytes at offset `off` lie inside the segment (R140): above the limit and below the upper bound in an
expand-down data segment, at most the limit in every other; computed without wrap. -/
def inLimit (g : SegReg) (off : Word32) (n : Nat) : Bool :=
  if !g.code && g.ec then
    decide (g.limit.toNat < off.toNat) &&
      decide (off.toNat + n - 1 ≤ if g.db then 0xFFFFFFFF else 0xFFFF)
  else decide (off.toNat + n - 1 ≤ g.limit.toNat)

/-- Whether the `n` bytes at offset `off` may be accessed through `g` as far as offsets go: inside the segment (R140), and
in real mode not beyond offset FFFFH, whatever limit the descriptor register kept (R135, R638); in virtual-8086 mode every
load has set the limit FFFFH (R135). -/
def State.inReach (s : State) (g : SegReg) (off : Word32) (n : Nat) : Bool :=
  inLimit g off n && (!s.realMode || decide (off.toNat + n - 1 ≤ 0xFFFF))

/-- The rights of a segment for a read or write (R126, R140): no code segment can be written, also one that real mode has
left writable (R41, R135). In virtual-8086 mode every segment is writable data (R135). -/
def hasRights (g : SegReg) (write : Bool) : Bool := if write then !g.code && g.writable else g.readable

/-- `SegCheck(seg, off, n, write)` (R140). In real mode only the offsets are tested (R135). An unusable SS is exception 12
(R636; log entry 9). -/
def segCheck (r : SReg) (off : Word32) (n : Nat) (write : Bool) : M Unit := do
  let s ← get
  let g := s.seg r
  require0 (s.realMode || g.usable) (segVector r)
  require0 (s.realMode || hasRights g write) (segVector r)
  require0 (s.inReach g off n) (segVector r)

/-- The linear address of an offset (R121). -/
def linear (g : SegReg) (off : Word32) : Word32 := g.base + off

/-- Breakpoint address `n` of DR0 to DR3 (R55). -/
def State.breakpoint (s : State) : Fin 4 → Word32
  | 0 => s.dr0
  | 1 => s.dr1
  | 2 => s.dr2
  | 3 => s.dr3

/-- The field RWn of DR7 (R55). -/
def State.bpKind (s : State) (n : Fin 4) : BitVec 2 := s.dr7.extractLsb' (16 + 4 * n.val) 2

/-- The length of condition `n` in bytes (R55, R625). -/
def State.bpLength (s : State) (n : Fin 4) : Nat :=
  match (s.dr7.extractLsb' (18 + 4 * n.val) 2).toNat with
  | 0 => 1
  | 1 => 2
  | _ => 4

/-- Condition `n` is enabled by Ln or Gn of DR7 (R625). -/
def State.bpEnabled (s : State) (n : Fin 4) : Bool := s.dr7.getLsbD (2 * n.val) || s.dr7.getLsbD (2 * n.val + 1)

/-- Whether the access to the `len` bytes at `la` meets data condition `n` (R625 (b)). -/
def State.bpMatches (s : State) (n : Fin 4) (la : Word32) (len : Nat) (write : Bool) : Bool :=
  let size := s.bpLength n
  let start := s.breakpoint n &&& ~~~(BitVec.ofNat 32 (size - 1))
  (s.bpKind n == 3 || (s.bpKind n == 1 && write)) &&
    (List.range len).any fun k => decide ((la + BitVec.ofNat 32 k - start).toNat < size)

/-- The four-bit set of conditions that satisfy `p`. -/
def conditions (p : Fin 4 → Bool) : BitVec 4 := bit (p 3) ++ bit (p 2) ++ bit (p 1) ++ bit (p 0)

/-- `s` with the data breakpoints an operand access meets made pending (R625 (b)); matches of conditions that are not
enabled are kept apart (U22). -/
def State.noteAccess (s : State) (la : Word32) (len : Nat) (write : Bool) : State :=
  { s with trap :=
      { s.trap with
        hits := s.trap.hits ||| conditions fun n => s.bpEnabled n && s.bpMatches n la len write
        quiet := s.trap.quiet ||| conditions fun n => !s.bpEnabled n && s.bpMatches n la len write } }

/-- The segment and page checks of an `n`-byte access, without the access: the physical addresses of its bytes (R140,
R170). -/
def accessAddrs (r : SReg) (off : Word32) (n : Nat) (write : Bool) : M (List Word32) := do
  segCheck r off n write
  let s ← get
  translateRange (linear (s.seg r) off) n write s.userLevel

/-- Read the operand at `la` that has been checked, its bytes being at `as`, in pieces of `k` bytes. -/
def readChecked (k : Nat) (la : Word32) (as : List Word32) : M (List Byte) := do
  let bs ← modifyGet fun s => s.busRead k as
  modify fun s => s.noteAccess la as.length false
  return bs

/-- `s` after the operand at `la` that has been checked, its bytes being at `as`, has been written in pieces of `k` bytes. -/
def State.checkedWrite (s : State) (k : Nat) (la : Word32) (as : List Word32) (bs : List Byte) : State :=
  (s.busWrite k as bs).noteAccess la bs.length true

/-- Write the operand at `la` that has been checked. -/
def writeChecked (k : Nat) (la : Word32) (as : List Word32) (bs : List Byte) : M Unit :=
  modify fun s => s.checkedWrite k la as bs

/-- `LRead(seg, off, n)` as a list of bytes (R140). -/
def lreadBytes (r : SReg) (off : Word32) (n : Nat) : M (List Byte) := do
  let la := linear ((← get).seg r) off
  let as ← accessAddrs r off n false
  readChecked 4 la as

/-- `LWrite(seg, off, n, v)` of a list of bytes (R140). -/
def lwriteBytes (r : SReg) (off : Word32) (bs : List Byte) : M Unit := do
  let la := linear ((← get).seg r) off
  let as ← accessAddrs r off bs.length true
  writeChecked 4 la as bs

/-- `LRead(seg, off, n)` (R140). -/
def lread (w : Width) (r : SReg) (off : Word32) : M (BitVec w.bits) := do
  return valueOf w (← lreadBytes r off w.bytes)

/-- `LWrite(seg, off, n, v)` (R140). -/
def lwrite (w : Width) (r : SReg) (off : Word32) (v : BitVec w.bits) : M Unit := lwriteBytes r off (bytesOf w v)

/-- The segment and page checks of an `n`-byte access alone (R264, R430, R552). -/
def checkAccess (r : SReg) (off : Word32) (n : Nat) (write : Bool) : M Unit := do
  let _ ← accessAddrs r off n write

/-- The stack holds `n` bytes at offset `sp`, all of them inside the segment and none of them round its end: exception 12
(0) otherwise (R508, R509, R512, R513). On a 16-bit stack whose limit is above FFFFH the bytes go on beyond 64K (log entry
39, DESIGN CHOICE). -/
def requireHeld (sp : Word32) (n : Nat) : M Unit := segCheck .ss sp n false

/-! ## The stack -/

/-- The stack pointer, `ssz` bits zero-extended (R470). -/
def State.sp (s : State) : Word32 := s.addrReg s.ssz esp

/-- `s` with the stack pointer set, `ssz` bits (R470). -/
def State.setSp (s : State) (v : Word32) : State := s.setAddrReg s.ssz esp v

/-- The stack pointer `n` bytes below `sp`, modulo `ssz` (R470). -/
def State.spBelow (s : State) (sp : Word32) (n : Nat) : Word32 := wrapTo s.ssz (sp - BitVec.ofNat 32 n)

/-- The stack pointer `n` bytes above `sp`, modulo `ssz` (R470). -/
def State.spAbove (s : State) (sp : Word32) (n : Nat) : Word32 := wrapTo s.ssz (sp + BitVec.ofNat 32 n)

/-- `Push(n, v)` of a list of bytes (R470). -/
def pushBytes (bs : List Byte) : M Unit := do
  let s ← get
  let new := s.spBelow s.sp bs.length
  lwriteBytes .ss new bs
  modify fun s => s.setSp new

/-- `Push(n, v)` with the width of an operand size (R470). -/
def push (sz : Size) (v : Word32) : M Unit :=
  match sz with
  | .s16 => pushBytes (bytesOf .w16 (v.truncate 16))
  | .s32 => pushBytes (bytesOf .w32 v)

/-- A stack item of size `sz` at offset `sp`, zero-extended to 32 bits. -/
def stackRead (sz : Size) (sp : Word32) : M Word32 :=
  match sz with
  | .s16 => do return (← lread .w16 .ss sp).zeroExtend 32
  | .s32 => lread .w32 .ss sp

/-- `Pop(n)`, zero-extended to 32 bits (R470). -/
def pop (sz : Size) : M Word32 := do
  let s ← get
  let v ← stackRead sz s.sp
  modify fun s => s.setSp (s.spAbove s.sp sz.bytes)
  return v

end Sys2Proof.Machine
end

