-- ==== Sys2Proof/Machine/Operands.lean ====
section
/-!
DEFINITION. Operands: the effective address of every addressing form (30_encoding.md R260 to R263), the r/m operand read
and written (R264), and the segment register loads (21_segmentation_paging.md R124 to R131, R142, R145).
-/
namespace Sys2Proof.Machine

/-- The sum of base and index registers of a 16-bit form, modulo 2^16 (R260). -/
def State.base16 (s : State) : Base16 → Word16
  | .bxSi => s.reg .w16 ebx + s.reg .w16 esi
  | .bxDi => s.reg .w16 ebx + s.reg .w16 edi
  | .bpSi => s.reg .w16 ebp + s.reg .w16 esi
  | .bpDi => s.reg .w16 ebp + s.reg .w16 edi
  | .si => s.reg .w16 esi
  | .di => s.reg .w16 edi
  | .bp => s.reg .w16 ebp
  | .bx => s.reg .w16 ebx

/-- The default segment of a 16-bit form with a base (R260). -/
def base16Segment : Base16 → SReg
  | .bpSi => .ss
  | .bpDi => .ss
  | .bp => .ss
  | _ => .ds

/-- A 16-bit displacement (R260). -/
def disp16Value : Disp16 → Word16
  | .none => 0
  | .d8 d => d.signExtend 16
  | .d16 d => d

/-- A 32-bit displacement (R261). -/
def disp32Value : Disp32 → Word32
  | .none => 0
  | .d8 d => d.signExtend 32
  | .d32 d => d

/-- The default segment of a 32-bit form with base register `b`: SS for ESP and EBP (R261). -/
def baseSegment (b : Fin 8) : SReg := if b = esp ∨ b = ebp then .ss else .ds

/-- The slot of the free effective address (U8, log entry 8). -/
def eaSlot : Nat := 1

/-- `base + index * scale` of a SIB byte. With no index (index = 4) and a scale field other than 0 the effective address
is undefined: a free value (R261, U8, log entry 8). -/
def State.sibSum (s : State) (scale : Fin 4) (index : Fin 8) (rest : Word32) : Word32 :=
  if index = esp then (if scale = 0 then rest else s.freeWord eaSlot)
  else rest + (s.reg32 index <<< scale.val)

/-- The default segment and the offset of a memory operand (R260, R261). -/
def State.offsetOf (s : State) : MemOp → SReg × Word32
  | .direct16 d => (.ds, d.zeroExtend 32)
  | .based16 b d => (base16Segment b, (s.base16 b + disp16Value d).zeroExtend 32)
  | .direct32 d => (.ds, d)
  | .based32 b d => (baseSegment b, s.reg32 b + disp32Value d)
  | .sib scale index base d => (baseSegment base, s.sibSum scale index (s.reg32 base + disp32Value d))
  | .sibDirect scale index d => (.ds, s.sibSum scale index d)

/-- The segment an instruction uses where `dflt` is the default: an override prefix replaces it (R262, R263). -/
def State.segOr (s : State) (dflt : SReg) : SReg := s.pfx.seg.getD dflt

/-- `EA()` (R262): segment and offset of the memory operand. -/
def State.ea (s : State) (m : MemOp) : SReg × Word32 := (s.segOr (s.offsetOf m).1, (s.offsetOf m).2)

/-- Where an r/m operand is. -/
inductive Loc where
  | reg (r : Fin 8)
  | mem (seg : SReg) (off : Word32)
deriving DecidableEq, Repr

/-- The place of an r/m operand: `EA()` is evaluated once (R264). -/
def State.locate (s : State) : RM → Loc
  | .reg r => .reg r
  | .mem m => .mem (s.ea m).1 (s.ea m).2

/-- Whether the operand is in memory. -/
def isMem : RM → Bool
  | .reg _ => false
  | .mem _ => true

/-- Set the flags. -/
def putFlags (f : EFlags) : M Unit := modify fun s => { s with flags := f }

/-- Read a general register. -/
def getReg (w : Width) (r : Fin 8) : M (BitVec w.bits) := do return (← get).reg w r

/-- Write a general register. -/
def putReg (w : Width) (r : Fin 8) (v : BitVec w.bits) : M Unit := modify fun s => s.setReg w r v

/-- Read the operand at a place (R264). -/
def readLoc (w : Width) : Loc → M (BitVec w.bits)
  | .reg r => getReg w r
  | .mem seg off => lread w seg off

/-- Write the operand at a place (R264). -/
def writeLoc (w : Width) (l : Loc) (v : BitVec w.bits) : M Unit :=
  match l with
  | .reg r => putReg w r v
  | .mem seg off => lwrite w seg off v

/-- The write access check made before a read-modify-write reads its operand (R264). -/
def checkLoc (w : Width) : Loc → M Unit
  | .reg _ => pure ()
  | .mem seg off => checkAccess seg off w.bytes true

/-- `ReadRM(n)` (R264). -/
def readRM (w : Width) (rm : RM) : M (BitVec w.bits) := do readLoc w ((← get).locate rm)

/-- `WriteRM(n, v)` (R264). -/
def writeRM (w : Width) (rm : RM) (v : BitVec w.bits) : M Unit := do writeLoc w ((← get).locate rm) v

/-- The read and the write of an operand as one locked sequence where `lock` holds and the operand is in memory (R100,
R101). -/
def lockedIf {α : Type} (lock : Bool) (l : Loc) (x : M α) : M α :=
  match l with
  | .reg _ => x
  | .mem _ _ => if lock then locked x else x

/-- A read-modify-write of the r/m operand (R264): write access is checked before the operand is read; `f` gives the
result from the operand. Under LOCK the read and the write are one locked sequence (R100, R101). -/
def modifyRM (w : Width) (rm : RM) (f : BitVec w.bits → M (BitVec w.bits)) : M Unit := do
  let s ← get
  let l := s.locate rm
  checkLoc w l
  lockedIf s.pfx.lock l do
    let v ← f (← readLoc w l)
    writeLoc w l v

/-- A value of an `iv` operand under its width, zero-extended to 32 bits. -/
def immWord : ImmV → Word32
  | .w v => v.zeroExtend 32
  | .d v => v

/-- A relative displacement `cv`, sign-extended to 32 bits (R266). -/
def immDisp : ImmV → Word32
  | .w v => v.signExtend 32
  | .d v => v

/-- An immediate as an operand of width `w` (R265). -/
def immAs (w : Width) (i : ImmV) : BitVec w.bits := (immWord i).truncate w.bits

/-- A byte immediate sign-extended to width `w` (R265). -/
def sextImm (w : Width) (b : Byte) : BitVec w.bits := b.signExtend w.bits

/-! ## Selectors and descriptors -/

/-- The index field of a selector (R124). -/
def selIndex (sel : Word16) : Nat := (sel.extractLsb' 3 13).toNat

/-- The TI bit of a selector: the local table (R124). -/
def selLocal (sel : Word16) : Bool := sel.getLsbD 2

/-- The RPL field of a selector (R124). -/
def selRpl (sel : Word16) : BitVec 2 := sel.extractLsb' 0 2

/-- A null selector (R124). -/
def selNull (sel : Word16) : Bool := sel.extractLsb' 2 14 == 0

/-- A descriptor or gate as it stands in its table, 8 bytes (R125, R149). -/
abbrev Desc := BitVec 64

/-- Bit 44: a code or data segment. -/
def Desc.isSegment (d : Desc) : Bool := d.getLsbD 44

/-- The system type, bits 43..40 (R127). -/
def Desc.type (d : Desc) : Nat := (d.extractLsb' 40 4).toNat

/-- A code segment. -/
def Desc.isCode (d : Desc) : Bool := d.isSegment && d.getLsbD 43

/-- A data segment. -/
def Desc.isData (d : Desc) : Bool := d.isSegment && !d.getLsbD 43

/-- A conforming code segment. -/
def Desc.conforming (d : Desc) : Bool := d.isCode && d.getLsbD 42

/-- A readable segment: data, or code with R = 1. -/
def Desc.readable (d : Desc) : Bool := d.isData || (d.isCode && d.getLsbD 41)

/-- A writable data segment. -/
def Desc.writable (d : Desc) : Bool := d.isData && d.getLsbD 41

/-- The privilege level of the descriptor (R125). -/
def Desc.dpl (d : Desc) : BitVec 2 := d.extractLsb' 45 2

/-- The present bit (R125). -/
def Desc.present (d : Desc) : Bool := d.getLsbD 47

/-- The accessed bit (R125). -/
def Desc.accessed (d : Desc) : Bool := d.getLsbD 40

/-- The base address (R125). -/
def Desc.base (d : Desc) : Word32 := d.extractLsb' 56 8 ++ d.extractLsb' 16 24

/-- The limit after scaling by the granularity bit (R125). -/
def Desc.limit (d : Desc) : Word32 :=
  let raw : BitVec 20 := d.extractLsb' 48 4 ++ d.extractLsb' 0 16
  if d.getLsbD 55 then raw ++ 0xFFF#12 else raw.zeroExtend 32

/-- The descriptor-register contents decoded from a descriptor (R125, R38). -/
def Desc.toSeg (d : Desc) (sel : Word16) : SegReg :=
  { selector := sel, base := d.base, limit := d.limit, usable := true, present := d.present, dpl := d.dpl,
    code := d.getLsbD 43, ec := d.getLsbD 42, readable := !d.getLsbD 43 || d.getLsbD 41,
    writable := !d.getLsbD 43 && d.getLsbD 41, accessed := true, db := d.getLsbD 54 }

/-- The numerical comparison of privilege levels: `a` is at most `b`. -/
def lvlLe (a b : BitVec 2) : Bool := decide (a.toNat ≤ b.toNat)

/-- `CPL <= DPL and RPL <= DPL`, the privilege test of a selector (R145). -/
def privOk (cpl : BitVec 2) (sel : Word16) (d : Desc) : Bool := lvlLe cpl d.dpl && lvlLe (selRpl sel) d.dpl

/-- The address of a selector's descriptor, if it lies inside its table (R124, R129). -/
def State.descAddr (s : State) (sel : Word16) : Option Word32 :=
  let off := 8 * selIndex sel
  if selLocal sel then
    if s.ldtr.valid && decide (off + 7 ≤ s.ldtr.limit.toNat) then some (s.ldtr.base + BitVec.ofNat 32 off) else none
  else if off + 7 ≤ s.gdtr.limit.toNat then some (s.gdtr.base + BitVec.ofNat 32 off) else none

/-- The 8 bytes of a descriptor at a linear address, read as two double words (R129). -/
def readDesc (la : Word32) : M Desc := do
  let hi ← sysRead .w32 (la + 4)
  let lo ← sysRead .w32 la
  return (hi ++ lo : BitVec 64)

/-- `FetchDescriptor(sel)`: outside its table the selector raises exception `v` (R129). -/
def fetchDesc (v : Byte) (sel : Word16) : M (Desc × Word32) := do
  match (← get).descAddr sel with
  | some la => return (← readDesc la, la)
  | none => raiseSel v sel

/-- The locked setting of bits in the second double word of the descriptor at `la` (R100, R131, R520). -/
def orDescHigh (la : Word32) (bits : Word32) : M Unit := locked do
  let hi ← sysRead .w32 (la + 4)
  sysWrite .w32 (la + 4) (hi ||| bits)

/-- The locked clearing of bits in the second double word of the descriptor at `la` (R100, R520). -/
def clearDescHigh (la : Word32) (bits : Word32) : M Unit := locked do
  let hi ← sysRead .w32 (la + 4)
  sysWrite .w32 (la + 4) (hi &&& ~~~bits)

/-- Set the accessed bit of a descriptor where it is clear (R131). -/
def setAccessed (d : Desc) (la : Word32) : M Unit :=
  if d.accessed then pure () else orDescHigh la 0x100

/-- The descriptor register a selector gives in real mode: the base is `selector * 16`, the rest stays (R135). -/
def SegReg.loadReal (g : SegReg) (sel : Word16) : SegReg :=
  { g with selector := sel, base := sel.zeroExtend 32 <<< 4 }

/-- The descriptor register a selector gives in virtual-8086 mode: limit FFFFH, writable data, DPL 3 (R135). -/
def SegReg.v86 (sel : Word16) : SegReg :=
  { selector := sel, base := sel.zeroExtend 32 <<< 4, limit := 0xFFFF, usable := true, present := true, dpl := 3,
    code := false, ec := false, readable := true, writable := true, accessed := true, db := false }

/-- Write a segment register. -/
def putSeg (r : SReg) (g : SegReg) : M Unit := modify fun s => s.setSeg r g

/-- The checks on a stack segment selector for privilege `cpl`: type and privilege failures raise exception `v`, a
segment that is not present exception 12 (R145, R504, R509, R520). -/
def stackDesc (v : Byte) (cpl : BitVec 2) (sel : Word16) : M (Desc × Word32) := do
  let (d, la) ← fetchDesc v sel
  requireSel (selRpl sel == cpl && d.writable && d.dpl == cpl) v sel
  requireSel d.present 12 sel
  return (d, la)

/-- The checks on a data segment selector: type and privilege failures raise exception `v`, a segment that is not
present exception 11 (R145, R520). -/
def dataDesc (v : Byte) (cpl : BitVec 2) (sel : Word16) : M (Desc × Word32) := do
  let (d, la) ← fetchDesc v sel
  requireSel d.readable v sel
  requireSel (d.conforming || privOk cpl sel d) v sel
  requireSel d.present 11 sel
  return (d, la)

/-- `LoadSeg(sreg, sel)` (R145): ES, SS, DS, FS or GS. -/
def loadSeg (r : SReg) (sel : Word16) : M Unit := do
  let s ← get
  if s.realMode then putSeg r { (s.seg r).loadReal sel with usable := true }
  else if s.v86 then putSeg r (SegReg.v86 sel)
  else if selNull sel then
    require0 (r != .ss) 13
    putSeg r { s.seg r with selector := sel, usable := false }
  else
    let (d, la) ← if r = .ss then stackDesc 13 s.cpl sel else dataDesc 13 s.cpl sel
    setAccessed d la
    putSeg r (d.toSeg sel)

end Sys2Proof.Machine
end

