-- ==== Sys2Proof/Machine/Ops.lean ====
section
/-!
DEFINITION. The shared operations of control: loading CS (46_control_transfer.md R506), the task switch (R520, R522), the
inner stack (R504, 60_exceptions.md R647), TAKING AN INTERRUPT OR EXCEPTION (R646 to R651, R655), the return from it (46
R508 to R513), the combination of faults during a delivery (60 R633, R693), and how an instruction ends.
-/
namespace Sys2Proof.Machine

/-- Continue at EIP = `t`: a control transfer empties the prefetch queue (R111). -/
def branchTo (t : Word32) : M Unit := modify fun s => { s with eip := t, stale := Stale.none }

/-- `LoadCS(sel, d, cpl)` (R506). -/
def loadCs (sel : Word16) (d : Desc) (la : Word32) (cpl : BitVec 2) : M Unit := do
  setAccessed d la
  modify fun s => { s with cs := d.toSeg ((sel &&& 0xFFFC) ||| cpl.zeroExtend 16), cpl := cpl }

/-- A far transfer in real or virtual-8086 mode: the selector replaces CS, the base is `selector * 16` (R500). -/
def farReal (sel : Word16) (off : Word32) : M Unit := do
  modify fun s => { s with cs := s.cs.loadReal sel }
  branchTo off

/-- Whether `k` items of `b` bytes fit on a stack below `sp`, where `fits` tells the offsets at which one fits (R477, R502,
R504, R646, R647). Each item is tested at its own offset modulo `ssz`; that a block may so go round offset 0 between two
items is the model's choice (log entry 30, DESIGN CHOICE). -/
def roomBelow (fits : Word32 → Bool) (ssz : Size) (sp : Word32) (b k : Nat) : Bool :=
  (List.range k).all fun i => fits (wrapTo ssz (sp - BitVec.ofNat 32 (b * (i + 1))))

/-- Exception 12 (0) unless `k` items of size `sz` fit below the current stack pointer (R502, R646). -/
def requireRoom (sz : Size) (k : Nat) : M Unit := do
  let s ← get
  require0 (roomBelow (fun off => s.inReach s.ss off sz.bytes) s.ssz s.sp sz.bytes k) 12

/-! ## The task switch -/

/-- How a task switch came about (R520). -/
inductive SwitchKind where
  | jmp
  | call
  | int
  | iret
deriving DecidableEq, Repr

/-- An exception raised after the commit point belongs to the new task (R520). -/
def inNewTask {α : Type} (x : M α) : M α := fun s =>
  match x s with
  | .error (.exc e) t => .error (.exc { e with newTask := true }) t
  | r => r

/-- The address of a descriptor in the GDT by its selector's index. -/
def State.gdtAddr (s : State) (sel : Word16) : Word32 := s.gdtr.base + BitVec.ofNat 32 (8 * selIndex sel)

/-- Whether a selector names an entry of the GDT: TI = 0 and inside the table (R128); entry 0 is never used (R124). -/
def State.inGdt (s : State) (sel : Word16) : Bool :=
  !selNull sel && !selLocal sel && decide (8 * selIndex sel + 7 ≤ s.gdtr.limit.toNat)

/-- Write 32-bit values at rising offsets of a table, four bytes apart. -/
def writeDwords (la : Word32) : List Word32 → M Unit
  | [] => pure ()
  | v :: vs => do
    sysWrite .w32 la v
    writeDwords (la + 4) vs

/-- Write 16-bit values, `step` bytes apart. -/
def writeWords (la step : Word32) : List Word16 → M Unit
  | [] => pure ()
  | v :: vs => do
    sysWrite .w16 la v
    writeWords (la + step) step vs

/-- Read `n` values of width `w`, zero-extended, `step` bytes apart. -/
def readSeries (w : Width) (la step : Word32) : Nat → M (List Word32)
  | 0 => pure []
  | n + 1 => do
    let v ← sysRead w la
    let vs ← readSeries w (la + step) step n
    return v.zeroExtend 32 :: vs

/-- Save the outgoing task in its task state segment, in the order of R520 step 2: general registers, selectors, flags,
instruction pointer; the 80386 layout of R152 or the 80286 one of R522. -/
def saveTask (s : State) (kind : SwitchKind) (ret : Word32) (rf : Bool) : M Unit := do
  let f := { s.flags with rf := rf, nt := s.flags.nt && (kind != SwitchKind.iret) }
  let sels := [s.es.selector, s.cs.selector, s.ss.selector, s.ds.selector]
  if s.tr.is386 then
    writeDwords (s.tr.base + 0x28) s.regs.toList
    writeWords (s.tr.base + 0x48) 4 (sels ++ [s.fs.selector, s.gs.selector])
    sysWrite .w32 (s.tr.base + 0x24) f.toWord
    sysWrite .w32 (s.tr.base + 0x20) ret
  else
    writeWords (s.tr.base + 0x12) 2 (s.regs.toList.map (fun v => v.truncate 16) ++ sels)
    sysWrite .w16 (s.tr.base + 0x10) (f.toWord.truncate 16)
    sysWrite .w16 (s.tr.base + 0x0E) (ret.truncate 16)

/-- What a task switch loads from the new task state segment (R520 step 5). -/
structure TaskImage where
  eip : Word32
  flags : EFlags
  regs : Vector Word32 8
  sels : List Word16
  ldt : Word16

/-- The eight general registers from a list. -/
def regsOfList (l : List Word32) : Vector Word32 8 := Vector.ofFn fun i => l.getD i.val 0

/-- The slots of the free upper halves of the general registers (U16). -/
def taskSlot (i : Nat) : Nat := 8 + i

/-- Read the image of a task (R152, R522), the LDT selector first, as R520 step 5 lists it. From an 80286 task state segment
the upper halves of the general registers are free values, FS and GS are null (U16). -/
def readTask (base : Word32) (is386 : Bool) : M TaskImage := do
  if is386 then
    let ldt ← sysRead .w16 (base + 0x60)
    let v ← readSeries .w32 (base + 0x20) 4 10
    let sels ← readSeries .w16 (base + 0x48) 4 6
    return { eip := v.getD 0 0, flags := EFlags.ofWord (v.getD 1 0), regs := regsOfList (v.drop 2),
             sels := sels.map (fun x => x.truncate 16), ldt := ldt }
  else
    let ldt ← sysRead .w16 (base + 0x2A)
    let v ← readSeries .w16 (base + 0x0E) 2 14
    let s ← get
    return { eip := v.getD 0 0, flags := EFlags.ofWord (v.getD 1 0)
             regs := Vector.ofFn fun i =>
               replaceWord (s.freeWord (taskSlot i.val)) ((v.getD (2 + i.val) 0).truncate 16)
             sels := ((v.drop 10).take 4).map (fun x => x.truncate 16) ++ [0, 0], ldt := ldt }

/-- `s` with the image of the new task: selectors only, no segment register usable; CPL is that of the CS selector, or 3
in virtual-8086 mode (R520 step 5, R680). The queue is emptied here, so that the accessed bits which step 7 sets afterwards
leave old values that may still be fetched: no rule places it among the steps, and this is the model's choice (R111; log entry
50, DESIGN CHOICE). -/
def State.loadImage (s : State) (t : TaskImage) (nested : Bool) : State :=
  let g (old : SegReg) (i : Nat) : SegReg := { old with selector := t.sels.getD i 0, usable := false }
  { s with
    eip := t.eip
    flags := { t.flags with nt := t.flags.nt || nested }
    regs := t.regs
    es := g s.es 0
    cs := g s.cs 1
    ss := g s.ss 2
    ds := g s.ds 3
    fs := g s.fs 4
    gs := g s.gs 5
    cpl := if t.flags.vm then 3 else selRpl (t.sels.getD 1 0)
    ldtr := { s.ldtr with selector := t.ldt, valid := false }
    dr7 := s.dr7 &&& 0xFFFFFEAA
    stale := Stale.none }

/-- Load the descriptor part of LDTR in a task switch (R520 step 6). -/
def loadTaskLdt (ldt : Word16) : M Unit := do
  if selNull ldt then pure ()
  else
    let s ← get
    requireSel (s.inGdt ldt) 10 ldt
    let d ← readDesc (s.gdtAddr ldt)
    requireSel (!d.isSegment && d.type == 2 && d.present) 10 ldt
    modify fun s => { s with ldtr := { selector := ldt, valid := true, base := d.base, limit := d.limit } }

/-- Load CS in a task switch (R520 step 7). -/
def loadTaskCs (sel : Word16) : M Unit := do
  requireSel (!selNull sel) 10 sel
  let (d, la) ← fetchDesc 10 sel
  requireSel (d.isCode && (if d.conforming then lvlLe d.dpl (selRpl sel) else d.dpl == selRpl sel)) 10 sel
  requireSel d.present 11 sel
  loadCs sel d la (selRpl sel)

/-- Load SS in a task switch (R520 step 7). -/
def loadTaskSs (sel : Word16) : M Unit := do
  requireSel (!selNull sel) 10 sel
  let (d, la) ← stackDesc 10 (← get).cpl sel
  setAccessed d la
  putSeg .ss (d.toSeg sel)

/-- Load a data segment register in a task switch (R520 step 7). -/
def loadTaskData (r : SReg) (sel : Word16) : M Unit := do
  if selNull sel then pure ()
  else
    let (d, la) ← dataDesc 10 (← get).cpl sel
    setAccessed d la
    putSeg r (d.toSeg sel)

/-- `s` with all six segment registers loaded the virtual-8086 way from their selectors (R135, R520). -/
def State.segsV86 (s : State) : State :=
  { s with es := SegReg.v86 s.es.selector, cs := SegReg.v86 s.cs.selector, ss := SegReg.v86 s.ss.selector,
           ds := SegReg.v86 s.ds.selector, fs := SegReg.v86 s.fs.selector, gs := SegReg.v86 s.gs.selector }

/-- Load the segment registers of the new task (R520 step 7). -/
def loadTaskSegs : M Unit := do
  let s ← get
  if s.flags.vm then modify State.segsV86
  else
    loadTaskCs s.cs.selector
    loadTaskSs s.ss.selector
    loadTaskData .ds s.ds.selector
    loadTaskData .es s.es.selector
    loadTaskData .fs s.fs.selector
    loadTaskData .gs s.gs.selector

/-- Clear the busy bit of the outgoing task's descriptor in the GDT (R520 step 2). A null selector names none, and an entry
beyond the limit is exception 13, as for every reference to a descriptor (R124; log entry 37). -/
def clearBusy (sel : Word16) : M Unit := do
  let s ← get
  if selNull sel then pure ()
  else
    requireSel (s.inGdt sel) 13 sel
    clearDescHigh (s.gdtAddr sel) 0x200

/-- `TaskSwitch(tsel, kind)` after the checks of step 1: `nd` is the new descriptor (R520 steps 2 to 9). -/
def commitSwitch (tsel : Word16) (nd : Desc) (kind : SwitchKind) (ret : Word32) (rf : Bool) : M Unit := do
  let s ← get
  let is386 := decide (9 ≤ nd.type)
  saveTask s kind ret rf
  if kind == .jmp || kind == .iret then clearBusy s.tr.selector
  if kind != .iret then orDescHigh (s.gdtAddr tsel) 0x200
  if kind == .call || kind == .int then sysWrite .w16 nd.base s.tr.selector
  modify fun s => { s with
    tr := { selector := tsel, base := nd.base, limit := nd.limit, is386 := is386 }, cr0 := { s.cr0 with ts := true } }
  if is386 then
    let cr3 ← sysRead .w32 (nd.base + 0x1C)
    modify fun s => ({ s with cr3 := cr3 &&& 0xFFFFF000 } : State).tlbFlush
  let t ← readTask nd.base is386
  modify fun s => s.loadImage t (kind == .call || kind == .int)
  loadTaskLdt t.ldt
  loadTaskSegs
  let s ← get
  require0 (decide (s.eip.toNat ≤ s.cs.limit.toNat)) 13
  if is386 then
    let w ← sysRead .w16 (nd.base + 0x64)
    if w.getLsbD 0 then modify fun s => { s with trap := { s.trap with task := true } }

/-- `TaskSwitch(tsel, kind)` (R520): `ret` and `rf` are the EIP and the RF of the saved image. -/
def taskSwitch (tsel : Word16) (kind : SwitchKind) (ret : Word32) (rf : Bool) : M Unit := do
  let s ← get
  let v : Byte := if kind == .iret then 10 else 13
  requireSel (s.inGdt tsel) v tsel
  let nd ← readDesc (s.gdtAddr tsel)
  let wanted := if kind == .iret then nd.type == 3 || nd.type == 11 else nd.type == 1 || nd.type == 9
  requireSel (!nd.isSegment && wanted) v tsel
  requireSel nd.present 11 tsel
  requireSel (decide ((if 9 ≤ nd.type then 0x67 else 0x2B) ≤ nd.limit.toNat)) 10 tsel
  inNewTask (commitSwitch tsel nd kind ret rf)

/-! ## Taking an interrupt or exception -/

/-- An inner stack: selector, stack pointer, descriptor and its address. -/
structure InnerStack where
  sel : Word16
  sp : Word32
  desc : Desc
  addr : Word32

/-- SSn and ESPn of the current task state segment, read in this order, with the checks of R504 and R647, for `k` items of
`b` bytes. -/
def innerStack (n : BitVec 2) (b k : Nat) : M InnerStack := do
  let s ← get
  let tr := s.tr
  let at386 : Word32 := tr.base + 4 + BitVec.ofNat 32 (8 * n.toNat)
  let at286 : Word32 := tr.base + 2 + BitVec.ofNat 32 (4 * n.toNat)
  let last := if tr.is386 then 8 * n.toNat + 9 else 4 * n.toNat + 5
  requireSel (decide (last ≤ tr.limit.toNat)) 10 tr.selector
  let sel : Word16 ← if tr.is386 then sysRead .w16 (at386 + 4) else sysRead .w16 (at286 + 2)
  let sp : Word32 ← if tr.is386 then sysRead .w32 at386 else (fun v => v.zeroExtend 32) <$> sysRead .w16 at286
  require0 (!selNull sel) 10
  let (d, la) ← stackDesc 10 n sel
  let g := d.toSeg sel
  requireSel (roomBelow (fun off => inLimit g off b) (if g.db then .s32 else .s16) sp b k) 12 sel
  return { sel := sel, sp := sp, desc := d, addr := la }

/-- Move to the inner stack at level `n`; virtual-8086 mode ends here (R504, R647, R648). -/
def switchStack (i : InnerStack) (n : BitVec 2) : M Unit := do
  setAccessed i.desc i.addr
  modify fun s =>
    let s := { s with ss := i.desc.toSeg i.sel, cpl := n, flags := { s.flags with vm := false } }
    s.setSp i.sp

/-- Push a list of items, the first one first. -/
def pushAll (sz : Size) : List Word32 → M Unit
  | [] => pure ()
  | v :: vs => do
    push sz v
    pushAll sz vs

/-- A selector as a stack item. -/
def selItem (g : SegReg) : Word32 := g.selector.zeroExtend 32

/-- The null contents of a data segment register (R509, R648). -/
def SegReg.nulled (g : SegReg) : SegReg := { g with selector := 0, usable := false }

/-- The flag changes on entry through an interrupt or trap gate (R650). -/
def EFlags.onEntry (f : EFlags) (interruptGate : Bool) : EFlags :=
  { f with tf := false, nt := false, rf := false, vm := false, intf := f.intf && !interruptGate }

/-- The entry point of a gate with 32-bit or 16-bit offset (R149). -/
def gateOffset (g : Desc) (sz : Size) : Word32 :=
  match sz with
  | .s32 => g.extractLsb' 48 16 ++ g.extractLsb' 0 16
  | .s16 => (g.extractLsb' 0 16).zeroExtend 32

/-- The selector of a gate (R149). -/
def gateSelector (g : Desc) : Word16 := g.extractLsb' 16 16

/-- The size of a gate: 32 bits for the types C, E and F (R149). -/
def gateSize (g : Desc) : Size := if 12 ≤ g.type then .s32 else .s16

/-- `Interrupt` in real mode (R655). -/
def enterReal (ev : Event) : M Unit := do
  let s ← get
  let at4 := 4 * ev.vector.toNat
  if s.idtr.limit.toNat < at4 + 3 then raiseCode 8 0
  let e ← sysRead .w32 (s.idtr.base + BitVec.ofNat 32 at4)
  pushAll .s16 [s.flags.toWord, selItem s.cs, ev.ret]
  modify fun s => { s with flags := { s.flags with intf := false, tf := false, rf := false } }
  farReal (e.extractLsb' 16 16) ((e.extractLsb' 0 16).zeroExtend 32)

/-- The error code of a fault about an entry of the interrupt table: `vector * 8 + 2` (R642). -/
def idtCode (vector : Byte) : Word32 := BitVec.ofNat 32 (8 * vector.toNat + 2)

/-- Delivery through a task gate (R651). -/
def enterTask (g : Desc) (ev : Event) : M Unit := do
  let s ← get
  let tsel := gateSelector g
  requireSel (s.inGdt tsel) 13 tsel
  taskSwitch tsel .int ev.ret ev.rf
  match ev.code with
  | some c =>
    let s ← get
    inNewTask (push (if s.tr.is386 then .s32 else .s16) c)
  | none => pure ()

/-- Delivery through an interrupt or trap gate (R646 steps 3 to 5, R647, R648). -/
def enterGate (g : Desc) (ev : Event) : M Unit := do
  let s ← get
  let sz := gateSize g
  let csel := gateSelector g
  let off := gateOffset g sz
  require0 (!selNull csel) 13
  let (d, la) ← fetchDesc 13 csel
  requireSel (d.isCode && lvlLe d.dpl s.cpl) 13 csel
  requireSel d.present 11 csel
  let inner := !d.conforming && d.dpl != s.cpl
  requireSel (!s.v86 || (inner && d.dpl == 0)) 13 csel
  if s.v86 && sz == .s16 then stopFault .v86Gate16
  let image : EFlags := { s.flags with rf := ev.rf }
  let base := [image.toWord, selItem s.cs, ev.ret] ++ ev.code.toList
  if inner then
    let frame := [selItem s.ss, s.reg32 esp] ++ base
    let items := if s.v86 then [selItem s.gs, selItem s.fs, selItem s.ds, selItem s.es] ++ frame else frame
    let i ← innerStack d.dpl sz.bytes items.length
    require0 (decide (off.toNat ≤ d.limit.toNat)) 13
    switchStack i d.dpl
    pushAll sz items
    if s.v86 then
      modify fun s => { s with es := s.es.nulled, ds := s.ds.nulled, fs := s.fs.nulled, gs := s.gs.nulled }
    loadCs csel d la d.dpl
  else
    requireRoom sz base.length
    require0 (decide (off.toNat ≤ d.limit.toNat)) 13
    pushAll sz base
    loadCs csel d la s.cpl
  modify fun s => { s with flags := s.flags.onEntry (g.type % 2 == 0) }
  branchTo off

/-- `Interrupt` in protected and virtual-8086 mode (R646). -/
def enterProtected (ev : Event) : M Unit := do
  let s ← get
  let at8 := 8 * ev.vector.toNat
  if s.idtr.limit.toNat < at8 + 7 then raiseCode 13 (idtCode ev.vector)
  let g ← readDesc (s.idtr.base + BitVec.ofNat 32 at8)
  let isGate := g.type == 5 || g.type == 6 || g.type == 7 || g.type == 14 || g.type == 15
  if g.isSegment || !isGate then raiseCode 13 (idtCode ev.vector)
  if ev.kind == .software && !lvlLe s.cpl g.dpl then raiseCode 13 (idtCode ev.vector)
  if !g.present then raiseCode 11 (idtCode ev.vector)
  if g.type == 5 then enterTask g ev else enterGate g ev

/-- TAKING AN INTERRUPT OR EXCEPTION, `Interrupt(vector, kind, ret, err)` (R646, R655). Entry to the handler of
exception 1 clears DR7.GD (R625). That an interrupt shadow ends with the entry of an event it does not hold off is the
model's choice (log entry 31, DESIGN CHOICE). So is that DR7.GD stays set where exception 1 is delivered through a task gate
whose task switch raises an exception after its commit point: no rule places the clearing against that exception (log entry 46,
DESIGN CHOICE). -/
def enter (ev : Event) : M Unit := do
  let s ← get
  if s.realMode then enterReal ev else enterProtected ev
  if ev.vector == 1 then modify fun s => { s with dr7 := s.dr7 &&& 0xFFFFDFFF }
  modify fun s =>
    { s with stale := Stale.none, pfx := Pfx.none, shadow := .none, midRep := false, run := .executing }

/-! ## The return -/

/-- The flags POPF and IRET load from an image (R481, R511, R512): IOPL only at CPL 0, IF only with CPL <= IOPL, never
VM, RF kept. -/
def State.poppedFlags (s : State) (w : Word32) : EFlags :=
  let f := EFlags.ofWord w
  { f with
    iopl := if s.cpl == 0 then f.iopl else s.flags.iopl
    intf := if lvlLe s.cpl s.flags.iopl then f.intf else s.flags.intf
    rf := s.flags.rf
    vm := s.flags.vm }

/-- The flags IRET loads: as POPF, and RF with a 32-bit operand (R511, R512). -/
def State.iretFlags (s : State) (sz : Size) (w : Word32) : EFlags :=
  { s.poppedFlags w with rf := decide (sz = .s32) && w.getLsbD 16 }

/-- The checks on the CS selector of a far return and its descriptor (R508). -/
def returnDesc (csel : Word16) : M (Desc × Word32) := do
  let s ← get
  require0 (!selNull csel) 13
  requireSel (lvlLe s.cpl (selRpl csel)) 13 csel
  let (d, la) ← fetchDesc 13 csel
  requireSel (d.isCode && (if d.conforming then lvlLe d.dpl (selRpl csel) else d.dpl == selRpl csel)) 13 csel
  requireSel d.present 11 csel
  return (d, la)

/-- A data segment register after a return to level `r`: a more privileged segment is not left addressable (R509). -/
def SegReg.outward (g : SegReg) (r : BitVec 2) : SegReg :=
  if g.usable && !(g.code && g.ec) && !lvlLe r g.dpl then g.nulled else g

/-- The slot of the free upper half of ESP after a 16-bit outer return (U15). -/
def espSlot : Nat := 2

/-- `s` with the outer stack pointer: with a 16-bit operand only SP is loaded and ESP[31:16] is free (R509, U15). -/
def State.outerSp (s : State) (sz : Size) (v : Word32) : State :=
  match sz with
  | .s16 => s.setReg32 esp (replaceWord (s.freeWord espSlot) (v.truncate 16))
  | .s32 => s.setSp v

/-- The item of a far return's frame `k` bytes above `sp` (R508 to R513). The rules give `sp + k` no width: that the sum
does not wrap at 64K on a 16-bit stack whose limit is above FFFFH is the model's choice (log entry 39, DESIGN CHOICE). -/
def frameRead (sz : Size) (sp : Word32) (k : Nat) : M Word32 := stackRead sz (sp + BitVec.ofNat 32 k)

/-- The end of a far return with items of size `sz`: `used` bytes have been read from the stack, `iw` bytes of
parameters are released (R508, R509). -/
def returnTo (csel : Word16) (off : Word32) (sz : Size) (used : Nat) (iw : Word16) : M Unit := do
  let s ← get
  let (d, la) ← returnDesc csel
  let r := selRpl csel
  if r == s.cpl then
    require0 (decide (off.toNat ≤ d.limit.toNat)) 13
    loadCs csel d la r
    modify fun s => s.setSp (s.spAbove s.sp (used + iw.toNat))
    branchTo off
  else
    requireHeld s.sp (used + iw.toNat + 2 * sz.bytes)
    let nesp ← frameRead sz s.sp (used + iw.toNat)
    let ssel ← frameRead sz s.sp (used + iw.toNat + sz.bytes)
    let ssel : Word16 := ssel.truncate 16
    require0 (!selNull ssel) 13
    let (sd, sla) ← stackDesc 13 r ssel
    require0 (decide (off.toNat ≤ d.limit.toNat)) 13
    loadCs csel d la r
    setAccessed sd sla
    modify fun s =>
      let s := { s with ss := sd.toSeg ssel }
      let s := s.outerSp sz (nesp + iw.zeroExtend 32)
      { s with es := s.es.outward r, ds := s.ds.outward r, fs := s.fs.outward r, gs := s.gs.outward r }
    branchTo off

/-- IRET in real and virtual-8086 mode (R511). -/
def iretReal (sz : Size) : M Unit := do
  let s ← get
  require0 (!s.v86 || s.flags.iopl == 3) 13
  let off ← stackRead sz s.sp
  let sel ← stackRead sz (s.spAbove s.sp sz.bytes)
  let f ← stackRead sz (s.spAbove s.sp (2 * sz.bytes))
  require0 (decide (off.toNat ≤ s.cs.limit.toNat)) 13
  modify fun s => { s.setSp (s.spAbove s.sp (3 * sz.bytes)) with flags := s.iretFlags sz f }
  farReal (sel.truncate 16) off

/-- Six selectors of a return to virtual-8086 mode put into the segment registers (R513). -/
def State.withSelectors (s : State) (cs ss es ds fs gs : Word16) : State :=
  { s with cs := SegReg.v86 cs, ss := SegReg.v86 ss, es := SegReg.v86 es, ds := SegReg.v86 ds, fs := SegReg.v86 fs,
           gs := SegReg.v86 gs }

/-- IRET to virtual-8086 mode: EIP, CS, EFLAGS, ESP, SS, ES, DS, FS, GS as double words (R513). -/
def iretV86 : M Unit := do
  let s ← get
  requireHeld s.sp 36
  let item (k : Nat) : M Word32 := frameRead .s32 s.sp (4 * k)
  let eip ← item 0
  let cs ← item 1
  let f ← item 2
  let nesp ← item 3
  let ss ← item 4
  let es ← item 5
  let ds ← item 6
  let fs ← item 7
  let gs ← item 8
  let sel (v : Word32) : Word16 := v.truncate 16
  modify fun s =>
    let s := { s with flags := { EFlags.ofWord f with vm := true }, cpl := 3 }
    (s.withSelectors (sel cs) (sel ss) (sel es) (sel ds) (sel fs) (sel gs)).setReg32 esp nesp
  branchTo (eip &&& 0xFFFF)

/-- IRET in protected mode (R512). -/
def iretProtected (sz : Size) : M Unit := do
  let s ← get
  if s.flags.nt then
    let link ← sysRead .w16 s.tr.base
    taskSwitch link .iret s.nextEip false
  else
    requireHeld s.sp (3 * sz.bytes)
    let off ← frameRead sz s.sp 0
    let csel ← frameRead sz s.sp sz.bytes
    let f ← frameRead sz s.sp (2 * sz.bytes)
    if sz = .s32 ∧ f.getLsbD 17 ∧ s.cpl = 0 then iretV86
    else
      returnTo (csel.truncate 16) off sz (3 * sz.bytes) 0
      modify fun t => { t with flags := s.iretFlags sz f }

/-- RETURN FROM AN INTERRUPT OR EXCEPTION (R511 to R513); it ends the blocking of NMI (R665). -/
def iretOp : M Unit := do
  let s ← get
  if s.protectedMode then iretProtected s.osz else iretReal s.osz
  modify fun s => { s with nmiBlocked := false }

/-! ## Faults during delivery, and the end of an instruction -/

/-- A fault leaves the state as before, but for memory and what the other masters have done to it, the accessed and dirty
bits and the look-aside buffer, CR2, the debug registers and the cycles already run (R637, R644). -/
def State.rollback (s t : State) : State :=
  { s with
    mem := t.mem, masters := t.masters, stale := t.stale, tlb := t.tlb, cr2 := t.cr2, dr6 := t.dr6, dr7 := t.dr7, bus := t.bus }

/-- The classes of R633. -/
inductive FaultClass where
  | benign
  | contributory
  | page
deriving DecidableEq, Repr

/-- The class of an exception number (R633). -/
def classOf (vector : Byte) : FaultClass :=
  if vector = 14 then .page
  else if vector = 0 ∨ vector = 10 ∨ vector = 11 ∨ vector = 12 ∨ vector = 13 then .contributory
  else .benign

/-- The class of an event: interrupts are benign (R633). -/
def Event.class (ev : Event) : FaultClass :=
  match ev.kind with
  | .exception => classOf ev.vector
  | _ => .benign

/-- Whether a second exception during the delivery of a first event makes a double fault (R633). An exception 8 detected
in real mode is one (R655). -/
def isDouble (first : FaultClass) (second : Byte) : Bool :=
  second == 8 ||
    match first, classOf second with
    | .contributory, .contributory => true
    | .page, .contributory => true
    | .page, .page => true
    | _, _ => false

/-- An error code with EXT set, for the formats that have it (R642). -/
def extCode (vector : Byte) (code : Option Word32) : Option Word32 :=
  if classOf vector = .contributory then code.map (· ||| 1) else code

/-- The event of a fault whose saved EIP is the current one; its flags image has RF = 1 (R640, R644). -/
def State.faultEvent (s : State) (vector : Byte) (code : Option Word32) : Event :=
  { vector := vector, kind := .exception, ret := s.eip, code := code, rf := true }

/-- Shutdown: one indication cycle, then nothing (R693). That a debug trap which the shadow of a load of SS holds off is
dropped, and not taken after the NMI that ends the shutdown, is the model's choice (log entry 42, DESIGN CHOICE); so is that
the shadow ends (log entry 31). -/
def State.shutDown (s : State) : State :=
  { s with run := .shutdown, bus := .shutdownCycle :: s.bus, pfx := Pfx.none, shadow := .none, midRep := false,
           trap := DebugTrap.none, pending := none }

/-- An exception of a new task waits to be taken before its first instruction (R520). Of the debug traps of the instruction
that switched, the data-breakpoint matches it has made stay pending, and no single-step trap is added for it: R520 is silent,
and R624 and R625 speak of an instruction that completes or faults, so this is the model's choice (log entry 43, DESIGN
CHOICE). DR7.GD is as the task switch left it, also where the event it was to deliver is exception 1 (log entry 46, DESIGN
CHOICE). -/
def State.postpone (s : State) (e : Exc) : State :=
  { s with pending := some (s.faultEvent e.vector e.code), pfx := Pfx.none, shadow := .none, midRep := false,
           run := .executing }

/-- The slot of the RF of a double fault's flags image, which no rule gives. -/
def doubleSlot : Nat := 6

/-- Deliver exception 8 with the EIP of the first event saved (R640); any fault in its delivery shuts the processor down
(R633, R693), but one of the task it has switched to waits there, its error code with EXT (R520, R642). -/
def deliverDouble (s : State) (ret : Word32) : Host.Outcome State Fault Refusal :=
  match enter { s.faultEvent 8 (some 0) with ret := ret, rf := s.freeBit doubleSlot } s with
  | .ok _ t => .next t
  | .error (.exc e) t =>
    if e.newTask then .next (t.postpone { e with code := extCode e.vector e.code })
    else .next (s.rollback t).shutDown
  | .error (.fault f) _ => .fault f
  | .error (.refuse r) _ => .refused r

/-- Deliver an event; a fault in its delivery is combined with it (R633). The chain benign, contributory, page fault is
the longest. -/
def deliverFuel (s : State) (ev : Event) : Nat → Host.Outcome State Fault Refusal
  | 0 => .next s.shutDown
  | n + 1 =>
    match enter ev s with
    | .ok _ t => .next t
    | .error (.exc e) t =>
      let code := if ev.kind = .software then e.code else extCode e.vector e.code
      if e.newTask then .next (t.postpone { e with code := code })
      else if isDouble ev.class e.vector then deliverDouble (s.rollback t) ev.ret
      else deliverFuel (s.rollback t) (s.faultEvent e.vector code) n
    | .error (.fault f) _ => .fault f
    | .error (.refuse r) _ => .refused r

/-- Deliver an event in state `s` (R633, R646, R655). -/
def deliver (s : State) (ev : Event) : Host.Outcome State Fault Refusal := deliverFuel s ev 4

/-- How an instruction that completes ends. -/
inductive Retire where
  /-- Execution goes on at EIP_next (R26). -/
  | next
  /-- EIP has been set by a control transfer. -/
  | jump
  /-- EIP and all flags have been loaded: RF is kept (R644). -/
  | loaded
  /-- One element of a repeated string instruction is done; EIP stays (R441). -/
  | again
  /-- The instruction waits for BUSY#; EIP stays (R608, R609). -/
  | wait
deriving DecidableEq, Repr

/-- The state after an instruction that began in `s` and whose steps left `t`: EIP, RF (R644), the prefixes, the shadow
(R727; a load of SS inside the shadow of another does not extend it, R304) and the single-step trap, TF being sampled at
the start (R624). -/
def retire (s t : State) (r : Retire) : State :=
  let stays := r == .again || r == .wait
  { t with
    eip := if r = .next then t.nextEip else t.eip
    flags := { t.flags with rf := (r == .loaded || stays) && t.flags.rf }
    pfx := Pfx.none
    shadow := if stays then s.shadow else if t.shadow == .ss && s.shadow == .ss then .none else t.shadow
    midRep := r == .again
    trap := { t.trap with step := t.trap.step || (s.flags.tf && r != .wait) } }

/-- The end of an instruction that began in `s`: completion, a fault (R644), an exception of a new task, or a stop.
Exception 8 arises only in the delivery of a software interrupt whose entry lies beyond the limit of the real-mode table
(R655), and saves the EIP of that interrupt, the byte after the instruction (R640). -/
def conclude (s : State) : EStateM.Result Stop State Retire → Host.Outcome State Fault Refusal
  | .ok r t => .next (retire s t r)
  | .error (.exc e) t =>
    if e.newTask then .next (t.postpone e)
    else if e.vector = 8 then deliverDouble (s.rollback t) s.nextEip
    else deliver (s.rollback t) (s.faultEvent e.vector e.code)
  | .error (.fault f) _ => .fault f
  | .error (.refuse r) _ => .refused r

/-- Run the steps of an instruction: the interrupt shadow covers this instruction only (R727). -/
def runSteps (body : M Retire) (s : State) : Host.Outcome State Fault Refusal :=
  conclude s (body { s with shadow := .none })

/-- The legality of the prefixes (R101, R254): LOCK without a lockable form is exception 6, a repeat prefix on an
instruction that is no string instruction is refused (U7). -/
def checkPrefixes (lockable : Bool) : M Unit := do
  let s ← get
  require (!s.pfx.lock || lockable) 6
  if s.pfx.rep.isSome then refuse .repeatPrefix

/-- An instruction that accepts no LOCK and no repeat prefix and ends at EIP_next. -/
def plain (body : M Unit) (s : State) : Host.Outcome State Fault Refusal :=
  runSteps (do checkPrefixes false; body; return .next) s

/-- An instruction that accepts LOCK when `lockable` holds: R101's list, with a memory destination. -/
def withLock (lockable : Bool) (body : M Unit) (s : State) : Host.Outcome State Fault Refusal :=
  runSteps (do checkPrefixes lockable; body; return .next) s

/-- An instruction whose steps say how it ends. -/
def transfer (body : M Retire) (s : State) : Host.Outcome State Fault Refusal :=
  runSteps (do checkPrefixes false; body) s

end Sys2Proof.Machine
end

