-- ==== Sys2Proof/Machine/Arithmetic.lean ====
section
/-!
DEFINITION. The eight two-operand operations and the arithmetic instructions (42_arithmetic_decimal.md R380 to R405).
-/
namespace Sys2Proof.Machine

/-- A two-operand operation with an r/m destination (R264, R340): CMP reads its operand only (R386). -/
def aluRM (op : AluOp) (w : Width) (rm : RM) (b : BitVec w.bits) : M Unit :=
  if op = .cmp then do
    let a ← readRM w rm
    let s ← get
    putFlags (aluCompute op s.freeBit a b s.flags).flags
  else
    modifyRM w rm fun a => do
      let s ← get
      let r := aluCompute op s.freeBit a b s.flags
      putFlags r.flags
      return r.value

/-- A two-operand operation with a register destination (R340). -/
def aluReg (op : AluOp) (w : Width) (d : Fin 8) (b : BitVec w.bits) : M Unit := do
  let s ← get
  let r := aluCompute op s.freeBit (s.reg w d) b s.flags
  if op != .cmp then putReg w d r.value
  putFlags r.flags

/-- The nine operand forms of R340. -/
def aluForm (op : AluOp) (f : AluForm) : M Unit := do
  let s ← get
  let v := s.osz.width
  match f with
  | .ebGb rm r => aluRM op .w8 rm (s.reg .w8 r)
  | .evGv rm r => aluRM op v rm (s.reg v r)
  | .gbEb r rm => aluReg op .w8 r (← readRM .w8 rm)
  | .gvEv r rm => aluReg op v r (← readRM v rm)
  | .alIb imm => aluReg op .w8 eax imm
  | .eaxIv imm => aluReg op v eax (immAs v imm)
  | .ebIb rm imm => aluRM op .w8 rm imm
  | .evIv rm imm => aluRM op v rm (immAs v imm)
  | .evIbs rm imm => aluRM op v rm (sextImm v imm)

/-- The destination of a form is in memory (R101). -/
def aluToMem : AluForm → Bool
  | .ebGb rm _ => isMem rm
  | .evGv rm _ => isMem rm
  | .ebIb rm _ => isMem rm
  | .evIv rm _ => isMem rm
  | .evIbs rm _ => isMem rm
  | _ => false

/-- ADD (R382). -/
def execAdd (f : AluForm) (s : State) : Host.Outcome State Fault Refusal := withLock (aluToMem f) (aluForm .add f) s

/-- ADC (R383). -/
def execAdc (f : AluForm) (s : State) : Host.Outcome State Fault Refusal := withLock (aluToMem f) (aluForm .adc f) s

/-- SUB (R384). -/
def execSub (f : AluForm) (s : State) : Host.Outcome State Fault Refusal := withLock (aluToMem f) (aluForm .sub f) s

/-- SBB (R385). -/
def execSbb (f : AluForm) (s : State) : Host.Outcome State Fault Refusal := withLock (aluToMem f) (aluForm .sbb f) s

/-- CMP (R386): LOCK is never legal. -/
def execCmp (f : AluForm) (s : State) : Host.Outcome State Fault Refusal := plain (aluForm .cmp f) s

/-! ## One operand -/

/-- A one-operand read-modify-write with flags. -/
def unaryRM (w : Width) (rm : RM) (f : BitVec w.bits → EFlags → Result w.bits) : M Unit :=
  modifyRM w rm fun a => do
    let s ← get
    let r := f a s.flags
    putFlags r.flags
    return r.value

/-- INC and DEC (R387, R388). -/
def incForm (op : (n : Nat) → BitVec n → EFlags → Result n) (f : IncForm) : M Unit := do
  let v := (← get).osz.width
  match f with
  | .r r => unaryRM v (.reg r) (op v.bits)
  | .eb rm => unaryRM .w8 rm (op 8)
  | .ev rm => unaryRM v rm (op v.bits)

/-- The destination of INC or DEC is in memory (R101). -/
def incToMem : IncForm → Bool
  | .r _ => false
  | .eb rm => isMem rm
  | .ev rm => isMem rm

/-- INC (R387). -/
def execInc (f : IncForm) (s : State) : Host.Outcome State Fault Refusal :=
  withLock (incToMem f) (incForm (fun _ => incCompute) f) s

/-- DEC (R388). -/
def execDec (f : IncForm) (s : State) : Host.Outcome State Fault Refusal :=
  withLock (incToMem f) (incForm (fun _ => decCompute) f) s

/-- The r/m operand of a form with a byte and an osz variant. -/
def unaryOperand : UnaryForm → RM
  | .eb rm => rm
  | .ev rm => rm

/-- The width of a form with a byte and an osz variant. -/
def unaryWidth (f : UnaryForm) (sz : Size) : Width :=
  match f with
  | .eb _ => .w8
  | .ev _ => sz.width

/-- NEG (R389). -/
def execNeg (f : UnaryForm) (s : State) : Host.Outcome State Fault Refusal :=
  withLock (isMem (unaryOperand f)) (do unaryRM (unaryWidth f (← get).osz) (unaryOperand f) negCompute) s

/-! ## Multiplication and division -/

/-- The register of the high half of a product or dividend: AH, DX or EDX (R392). -/
def highReg : Width → Fin 8
  | .w8 => 4
  | _ => edx

/-- One-operand multiplication (R392, R393): the double-width product goes to AX, DX:AX or EDX:EAX. -/
def mulForm (signed : Bool) (f : UnaryForm) : M Unit := do
  let w := unaryWidth f (← get).osz
  let b ← readRM w (unaryOperand f)
  let s ← get
  let a := s.reg w eax
  let p : Int := if signed then a.toInt * b.toInt else (a.toNat * b.toNat : Nat)
  let lo : BitVec w.bits := BitVec.ofInt w.bits p
  let hi : BitVec w.bits := BitVec.ofInt w.bits (p / 2 ^ w.bits)
  putReg w eax lo
  putReg w (highReg w) hi
  putFlags (mulFlags s.freeBit (if signed then decide (p ≠ lo.toInt) else hi != 0) s.flags)

/-- MUL (R392). -/
def execMul (f : UnaryForm) (s : State) : Host.Outcome State Fault Refusal := plain (mulForm false f) s

/-- IMUL with two or three operands (R394). -/
def imulReg (w : Width) (r : Fin 8) (a b : BitVec w.bits) : M Unit := do
  let s ← get
  let p := a.toInt * b.toInt
  let res : BitVec w.bits := BitVec.ofInt w.bits p
  putReg w r res
  putFlags (mulFlags s.freeBit (decide (p ≠ res.toInt)) s.flags)

/-- The forms of IMUL (R393, R394). -/
def imulForm (f : ImulForm) : M Unit := do
  let s ← get
  let v := s.osz.width
  match f with
  | .gvEvIv r rm imm => imulReg v r (← readRM v rm) (immAs v imm)
  | .gvEvIbs r rm imm => imulReg v r (← readRM v rm) (sextImm v imm)
  | .eb rm => mulForm true (.eb rm)
  | .ev rm => mulForm true (.ev rm)
  | .gvEv r rm => imulReg v r (s.reg v r) (← readRM v rm)

/-- IMUL (R393, R394). -/
def execImul (f : ImulForm) (s : State) : Host.Outcome State Fault Refusal := plain (imulForm f) s

/-- DIV and IDIV (R396, R397): a zero divisor or a quotient that does not fit is exception 0. -/
def divForm (signed : Bool) (f : UnaryForm) : M Unit := do
  let w := unaryWidth f (← get).osz
  let b ← readRM w (unaryOperand f)
  let s ← get
  let n := s.reg w (highReg w) ++ s.reg w eax
  let dividend : Int := if signed then n.toInt else (n.toNat : Nat)
  let divisor : Int := if signed then b.toInt else (b.toNat : Nat)
  require (decide (divisor ≠ 0)) 0
  let q := dividend.tdiv divisor
  let r := dividend.tmod divisor
  let fits := if signed then decide (-(2 : Int) ^ (w.bits - 1) ≤ q ∧ q < 2 ^ (w.bits - 1)) else decide (q < 2 ^ w.bits)
  require fits 0
  putReg w eax (BitVec.ofInt w.bits q)
  putReg w (highReg w) (BitVec.ofInt w.bits r)
  putFlags (freeStatus s.freeBit s.flags)

/-- DIV (R396). -/
def execDiv (f : UnaryForm) (s : State) : Host.Outcome State Fault Refusal := plain (divForm false f) s

/-- IDIV (R397). -/
def execIdiv (f : UnaryForm) (s : State) : Host.Outcome State Fault Refusal := plain (divForm true f) s

/-! ## Decimal adjusts -/

/-- An adjust of AL (R400, R401). -/
def adjustAl (f : (Nat → Bool) → Byte → EFlags → Result 8) : M Unit := do
  let s ← get
  let r := f s.freeBit (s.reg .w8 eax) s.flags
  putReg .w8 eax r.value
  putFlags r.flags

/-- An adjust of AX (R402 to R405). -/
def adjustAx (f : (Nat → Bool) → Word16 → EFlags → Result 16) : M Unit := do
  let s ← get
  let r := f s.freeBit (s.reg .w16 eax) s.flags
  putReg .w16 eax r.value
  putFlags r.flags

/-- DAA (R400). -/
def execDaa (s : State) : Host.Outcome State Fault Refusal := plain (adjustAl daaCompute) s

/-- DAS (R401). -/
def execDas (s : State) : Host.Outcome State Fault Refusal := plain (adjustAl dasCompute) s

/-- AAA (R402). -/
def execAaa (s : State) : Host.Outcome State Fault Refusal := plain (adjustAx aaaCompute) s

/-- AAS (R403). -/
def execAas (s : State) : Host.Outcome State Fault Refusal := plain (adjustAx aasCompute) s

/-- AAM (R404): base 0 is exception 0. -/
def execAam (imm : Byte) (s : State) : Host.Outcome State Fault Refusal :=
  plain (do
    require (imm != 0) 0
    adjustAx fun u ax f => aamCompute u (ax.extractLsb' 0 8) imm f) s

/-- AAD (R405). -/
def execAad (imm : Byte) (s : State) : Host.Outcome State Fault Refusal :=
  plain (adjustAx fun u ax f => aadCompute u ax imm f) s

end Sys2Proof.Machine
end

