-- ==== Sys2Proof/Machine/Bits.lean ====
section
/-!
DEFINITION. Bit and bit-string instructions (44_bit.md R450 to R460).
-/
namespace Sys2Proof.Machine

/-- `BitLoc()` of the register form (R450): the word that holds the bit. In memory the signed bit offset moves the
address, which wraps by asz. -/
def State.bitLoc (s : State) (w : Width) (rm : RM) (r : Fin 8) : Loc :=
  match s.locate rm with
  | .reg x => .reg x
  | .mem seg off =>
    let words : Int := (s.reg w r).toInt / w.bits
    .mem seg (wrapTo s.asz (off + BitVec.ofInt 32 (w.bytes * words)))

/-- A bit instruction on bit `k` of the word at `l` (R451 to R454): BT only reads. Under LOCK the read and the write are one
locked sequence (R100, R101). -/
def bitAt (op : BitOp) (w : Width) (l : Loc) (k : Nat) : M Unit := do
  if op != .test then checkLoc w l
  lockedIf (← get).pfx.lock l do
    let v ← readLoc w l
    let s ← get
    let r := bitCompute op s.freeBit v k s.flags
    if op != .test then writeLoc w l r.value
    putFlags r.flags

/-- The forms of BT, BTS, BTR, BTC (R450). -/
def bitForm (op : BitOp) (f : BitForm) : M Unit := do
  let s ← get
  let w := s.osz.width
  match f with
  | .evGv rm r => bitAt op w (s.bitLoc w rm r) ((s.reg w r).toNat % w.bits)
  | .evIb rm imm => bitAt op w (s.locate rm) (imm.toNat % w.bits)

/-- The r/m operand of a bit instruction is in memory (R101). -/
def bitToMem : BitForm → Bool
  | .evGv rm _ => isMem rm
  | .evIb rm _ => isMem rm

/-- BT (R451). -/
def execBt (f : BitForm) (s : State) : Host.Outcome State Fault Refusal := plain (bitForm .test f) s

/-- BTS (R452). -/
def execBts (f : BitForm) (s : State) : Host.Outcome State Fault Refusal := withLock (bitToMem f) (bitForm .set f) s

/-- BTR (R453). -/
def execBtr (f : BitForm) (s : State) : Host.Outcome State Fault Refusal := withLock (bitToMem f) (bitForm .reset f) s

/-- BTC (R454). -/
def execBtc (f : BitForm) (s : State) : Host.Outcome State Fault Refusal :=
  withLock (bitToMem f) (bitForm .complement f) s

/-- The slot of the undefined destination of BSF and BSR (U13). -/
def scanSlot : Nat := 0

/-- BSF and BSR (R456, R457): with source 0 the destination is a free value. -/
def scanForm (find : (n : Nat) → BitVec n → Nat) (r : Fin 8) (rm : RM) : M Unit := do
  let w := (← get).osz.width
  let v ← readRM w rm
  let s ← get
  let dest : BitVec w.bits :=
    if v = 0 then (s.freeWord scanSlot).truncate w.bits else BitVec.ofNat w.bits (find w.bits v)
  putReg w r dest
  putFlags { freeStatus s.freeBit s.flags with zf := v == 0 }

/-- BSF (R456). -/
def execBsf (r : Fin 8) (rm : RM) (s : State) : Host.Outcome State Fault Refusal :=
  plain (scanForm (fun n v => lowestBit v n 0) r rm) s

/-- BSR (R457). -/
def execBsr (r : Fin 8) (rm : RM) (s : State) : Host.Outcome State Fault Refusal :=
  plain (scanForm (fun n v => highestBit v n) r rm) s

/-! ## Bit-string insert and extract -/

/-- The bytes of memory that hold bits `o` to `o + c - 1` of the bit string at `off`: how many, and where the first one
is (R460, R450). -/
def State.stringBytes (s : State) (off : Word32) (o c : Nat) : Word32 × Nat :=
  (wrapTo s.asz (off + BitVec.ofNat 32 (o / 8)), (o % 8 + c + 7) / 8)

/-- Insert the low `c` bits of `v` at bit `k` of the number `n`. -/
def insertBits (n k c v : Nat) : Nat :=
  n - (n / 2 ^ k % 2 ^ c) * 2 ^ k + (v % 2 ^ c) * 2 ^ k

/-- The start and the length of the field: eAX by osz, and CL; lengths above the operand width are refused (R460). -/
def bitField (w : Width) : M (Nat × Nat) := do
  let s ← get
  let c := (s.reg .w8 ecx).toNat
  if w.bits < c then refuse .bitStringCorner
  return ((s.reg w eax).toNat, c)

/-- XBTS (R460). A field that ends outside a register operand is refused. -/
def xbtsSteps (r : Fin 8) (rm : RM) : M Unit := do
  let w := (← get).osz.width
  let (o, c) ← bitField w
  let s ← get
  let n ← match s.locate rm with
    | .reg x => do
      if w.bits < o + c then refuse .bitStringCorner
      pure ((s.reg w x).toNat / 2 ^ o)
    | .mem seg off => do
      let (a, k) := s.stringBytes off o c
      if c = 0 then pure 0
      else
        let bs ← lreadBytes seg a k
        pure (natOfBytes bs / 2 ^ (o % 8))
  putReg w r (BitVec.ofNat w.bits (n % 2 ^ c))
  putFlags (freeStatus s.freeBit s.flags)

/-- IBTS (R460). A field that ends outside a register operand is refused. -/
def ibtsSteps (rm : RM) (r : Fin 8) : M Unit := do
  let w := (← get).osz.width
  let (o, c) ← bitField w
  let s ← get
  let v := (s.reg w r).toNat
  match s.locate rm with
  | .reg x =>
    if w.bits < o + c then refuse .bitStringCorner
    putReg w x (BitVec.ofNat w.bits (insertBits (s.reg w x).toNat o c v))
  | .mem seg off =>
    let (a, k) := s.stringBytes off o c
    if c = 0 then pure ()
    else
      checkAccess seg a k true
      let bs ← lreadBytes seg a k
      lwriteBytes seg a (bytesOfNat k (insertBits (natOfBytes bs) (o % 8) c v))
  putFlags (freeStatus s.freeBit s.flags)

/-- IBTS and XBTS: exception 6 unless `HAS_IBTS_XBTS`, before anything else, since the encoding is then undefined (R275,
R460). -/
def bitString (body : M Unit) (s : State) : Host.Outcome State Fault Refusal :=
  runSteps (do
    require (← get).cfg.hasIbtsXbts 6
    checkPrefixes false
    body
    return .next) s

/-- XBTS (R460). -/
def execXbts (r : Fin 8) (rm : RM) (s : State) : Host.Outcome State Fault Refusal := bitString (xbtsSteps r rm) s

/-- IBTS (R460). -/
def execIbts (rm : RM) (r : Fin 8) (s : State) : Host.Outcome State Fault Refusal := bitString (ibtsSteps rm r) s

end Sys2Proof.Machine
end

