-- ==== Sys2Proof/Machine/IO.lean ====
section
/-!
DEFINITION. Port input and output (20_memory.md R92) and the permission check (48_system_io.md R584, R585).
-/
namespace Sys2Proof.Machine

/-- The bits of the I/O permission bitmap for `n` ports from `port` on are all 0 and inside the segment; the
processor reads the byte that holds a bit and the one after it (R585). R585 does not say which bits govern the bytes of an
access past port FFFFH, which R92 and U5 call fault-free: that the bits of the numbers from 10000H on are tested, with no wrap
to port 0, and may raise exception 13 (0), is the model's choice (log entry 44, DESIGN CHOICE). -/
def bitmapBits (base : Nat) (port : Nat) : Nat → M Unit
  | 0 => pure ()
  | n + 1 => do
    let s ← get
    let off := base + port / 8
    require0 (decide (off + 1 ≤ s.tr.limit.toNat)) 13
    let b ← sysRead .w16 (s.tr.base + BitVec.ofNat 32 off)
    require0 (!b.getLsbD (port % 8)) 13
    bitmapBits base (port + 1) n

/-- `BitmapCheck(port, nbytes)` (R585). -/
def bitmapCheck (port : Word16) (n : Nat) : M Unit := do
  let s ← get
  require0 s.tr.is386 13
  let base ← sysRead .w16 (s.tr.base + 0x66)
  bitmapBits base.toNat port.toNat n

/-- The I/O instructions may run without the bitmap: the test of CPL or VM against IOPL (R584). -/
def State.ioAllowed (s : State) : Bool :=
  s.realMode ||
    (if s.v86 then s.cfg.v86IoIoplSensitive && s.flags.iopl == 3 else lvlLe s.cpl s.flags.iopl)

/-- The part of the I/O check that looks at the privilege alone: without a bitmap the access is denied (R584). It comes
before the instruction's own steps (R643 (f), R686). With a bitmap it denies nothing, in virtual-8086 mode as elsewhere (log
entry 47, DEDUCED). -/
def ioPrivilege : M Unit := do
  let s ← get
  require0 (s.ioAllowed || s.cfg.hasIoBitmap) 13

/-- `IOCheck(port, nbytes)` (R584). With V86_IO_IOPL_SENSITIVE and HAS_IO_BITMAP both true and IOPL below 3, virtual-8086
mode asks the bitmap, as the steps of R584 do, where R686 and R11 have exception 13 (0) without it (log entry 47, DEDUCED). -/
def ioCheck (port : Word16) (n : Nat) : M Unit := do
  let s ← get
  if s.ioAllowed then pure ()
  else if s.cfg.hasIoBitmap then bitmapCheck port n
  else raiseCode 13 0

/-- The bytes of an `n`-byte read at `port`: free values (R92, U5, log entry 5). -/
def State.portBytes (s : State) (port : Word16) (n : Nat) : List Byte :=
  (List.range n).map fun k => Config.portByte s.tick (port.toNat + k)

/-- The part of a list of bytes, which starts at address `a`, that lies below the next multiple of `size`, and the rest
(R85). -/
def splitAt (size a : Nat) (bs : List Byte) : List Byte × List Byte := bs.splitAt (size - a % size)

/-- A part of a cycle with its address; none without bytes. -/
def cyclePart (a : Nat) (bs : List Byte) : List (Nat × List Byte) := if bs.isEmpty then [] else [(a, bs)]

/-- The cycles of the bytes of one double word, first one first: BS16# splits them at the word, low half first (R85, R214).
Where a cycle covers an address that answers with BS16# and one that does not, the first byte's address decides: the
rules do not say which (log entry 6, DESIGN CHOICE). -/
def dwordCycles (narrow : Nat → Bool) (a : Nat) (bs : List Byte) : List (Nat × List Byte) :=
  if narrow a then
    let p := splitAt 2 a bs
    cyclePart a p.1 ++ cyclePart (a + p.1.length) p.2
  else cyclePart a bs

/-- The bus cycles of an access to the bytes `bs` from address `a` on, first one first (R85, R93): an access across a double
word boundary moves its high part first. `narrow` tells the addresses that answer with BS16#. -/
def accessCycles (narrow : Nat → Bool) (a : Nat) (bs : List Byte) : List (Nat × List Byte) :=
  let p := splitAt 4 a bs
  dwordCycles narrow (a + p.1.length) p.2 ++ dwordCycles narrow a p.1

/-- The port cycles of the bytes `bs` from `port` on, newest first (R92, R93); the bytes above FFFFH go to the I/O addresses
above, where no device answers (U5). -/
def State.portCycles (s : State) (f : Nat → List Byte → BusEvent) (port : Nat) (bs : List Byte) : List BusEvent :=
  ((accessCycles (s.cfg.isBus16 true) port bs).map fun p => f p.1 p.2).reverse

/-- `IORead(port, n)` of width `w` (R92). -/
def ioRead (w : Width) (port : Word16) : M (BitVec w.bits) := do
  let s ← get
  let bs := s.portBytes port w.bytes
  modify fun s => { s with bus := s.portCycles .ioRead port.toNat bs ++ s.bus }
  return valueOf w bs

/-- `IOWrite(port, n, v)` of width `w` (R92). -/
def ioWrite (w : Width) (port : Word16) (v : BitVec w.bits) : M Unit :=
  modify fun s => { s with bus := s.portCycles .ioWrite port.toNat (bytesOf w v) ++ s.bus }

end Sys2Proof.Machine
end

