-- ==== Sys2Proof/Machine/System.lean ====
section
/-!
DEFINITION. System and input/output instructions (48_system_io.md R550 to R585). The moves to and from control, debug and
test registers stand here and are forms of MOV (DataMovement.lean).
-/
namespace Sys2Proof.Machine

/-- The privileged instructions run at CPL 0 only (R558). -/
def requireCpl0 : M Unit := do require0 ((← get).cpl == 0) 13

/-- The instructions that exist in protected mode only raise exception 6 elsewhere (R554 to R570). -/
def requireProtected : M Unit := do require (← get).protectedMode 6

/-- Write a 16-bit value to an r/m operand; a 32-bit register destination has a free upper half (U10). -/
def storeWord (rm : RM) (v : Word16) : M Unit := do
  let s ← get
  match rm, s.osz with
  | .reg r, .s32 => putReg .w32 r (replaceWord (s.freeWord 0) v)
  | _, _ => writeRM .w16 rm v

/-! ## Descriptor-table registers -/

/-- The 6-byte operand of LGDT and LIDT (R550): 24 bits of base with osz = 16. The operand is checked as a whole (R87, R170;
log entry 28). -/
def readTable (m : MemOp) : M TableReg := do
  requireCpl0
  let s ← get
  let (seg, off) := s.ea m
  checkAccess seg off 6 false
  let limit ← lread .w16 seg off
  let base ← lread .w32 seg (off + 2)
  return { base := if s.osz = .s16 then base &&& 0x00FFFFFF else base, limit := limit }

/-- Store a table register (R552): the sixth byte is a free value with osz = 16 (U17). The six bytes are checked as a whole
before any is written (R87, R170; log entry 28). -/
def storeTable (m : MemOp) (t : TableReg) : M Unit := do
  let s ← get
  let (seg, off) := s.ea m
  let base := bytesOf .w32 t.base
  let as ← accessAddrs seg off 6 true
  let la := linear (s.seg seg) off
  writeChecked 4 la (as.take 2) (bytesOf .w16 t.limit)
  writeChecked 4 (la + 2) (as.drop 2) (match s.osz with
    | .s16 => base.take 3 ++ [s.freeByte 0]
    | .s32 => base)

/-- LGDT (R550). -/
def execLgdt (m : MemOp) (s : State) : Host.Outcome State Fault Refusal :=
  plain (do
    let t ← readTable m
    modify fun s => { s with gdtr := t }) s

/-- LIDT (R551). -/
def execLidt (m : MemOp) (s : State) : Host.Outcome State Fault Refusal :=
  plain (do
    let t ← readTable m
    modify fun s => { s with idtr := t }) s

/-- SGDT (R552). -/
def execSgdt (m : MemOp) (s : State) : Host.Outcome State Fault Refusal :=
  plain (do storeTable m (← get).gdtr) s

/-- SIDT (R553). -/
def execSidt (m : MemOp) (s : State) : Host.Outcome State Fault Refusal :=
  plain (do storeTable m (← get).idtr) s

/-- The GDT descriptor of a selector operand of LLDT and LTR: its type is one of `types`, and it is present. -/
def systemDesc (sel : Word16) (types : List Nat) : M Desc := do
  let s ← get
  requireSel (s.inGdt sel) 13 sel
  let d ← readDesc (s.gdtAddr sel)
  requireSel (!d.isSegment && types.contains d.type) 13 sel
  requireSel d.present 11 sel
  return d

/-- LLDT (R554). -/
def execLldt (rm : RM) (s : State) : Host.Outcome State Fault Refusal :=
  plain (do
    requireProtected
    requireCpl0
    let sel ← readRM .w16 rm
    if selNull sel then modify fun s => { s with ldtr := { s.ldtr with selector := sel, valid := false } }
    else
      let d ← systemDesc sel [2]
      modify fun s => { s with ldtr := { selector := sel, valid := true, base := d.base, limit := d.limit } }) s

/-- SLDT (R555). -/
def execSldt (rm : RM) (s : State) : Host.Outcome State Fault Refusal :=
  plain (do
    requireProtected
    storeWord rm (← get).ldtr.selector) s

/-- LTR (R556): the descriptor becomes busy; no task switch happens. -/
def execLtr (rm : RM) (s : State) : Host.Outcome State Fault Refusal :=
  plain (do
    requireProtected
    requireCpl0
    let sel ← readRM .w16 rm
    require0 (!selNull sel) 13
    let d ← systemDesc sel [1, 9]
    orDescHigh ((← get).gdtAddr sel) 0x200
    modify fun s => { s with tr := { selector := sel, base := d.base, limit := d.limit, is386 := d.type == 9 } }) s

/-- STR (R557). -/
def execStr (rm : RM) (s : State) : Host.Outcome State Fault Refusal :=
  plain (do
    requireProtected
    storeWord rm (← get).tr.selector) s

/-! ## Control, debug and test registers -/

/-- All six status flags become free values (R560, R561). -/
def freeFlags : M Unit := do
  let s ← get
  putFlags (freeStatus s.freeBit s.flags)

/-- The register numbers of MOV to and from CRn, DRn and TRn (R49, R55, R56, D9). A number that names no register is
exception 6 before the privilege is looked at: R643 (d), (f), D14 (log entry 14). -/
def requireNumber (named : Fin 8 → Bool) (n : Fin 8) : M Unit := do
  require (named n) 6
  requireCpl0

/-- MOV r32, CRn (R560). -/
def movFromCr (r n : Fin 8) : M Unit := do
  requireNumber namesCr n
  let s ← get
  match n.val with
  | 0 => putReg .w32 r s.cr0.toWord
  | 2 => putReg .w32 r s.cr2
  | _ => putReg .w32 r s.cr3
  freeFlags

/-- The slot of the choice of `tlbAfterSwitch`. -/
def flushSlot : Nat := 24

/-- The look-aside buffer after a change of PG or PE: R560 empties it, R113 and D8 keep it; a free choice (log
entry 11). -/
def State.tlbAfterSwitch (s : State) : List TlbEntry := s.tlb.filter fun _ => !s.freeBit flushSlot

/-- `s` with the page mapping in force kept for bytes already prefetched, where `changed` says that it is about to change
(R111, U4). -/
def State.keepMap (s : State) (changed : Bool) : State :=
  if changed then
    { s with stale := { s.stale with maps := { pg := s.cr0.pg, cr3 := s.cr3, tlb := s.tlb } :: s.stale.maps } }
  else s

/-- Load CR0 (R560): PG without PE is exception 13. -/
def loadCr0 (v : Word32) : M Unit := do
  require0 (!v.getLsbD 31 || v.getLsbD 0) 13
  modify fun s =>
    let c := Cr0.ofWord v
    { s.keepMap (c.pg != s.cr0.pg) with
      cr0 := c, tlb := if c.pg == s.cr0.pg && c.pe == s.cr0.pe then s.tlb else s.tlbAfterSwitch }

/-- MOV CRn, r32 (R560). -/
def movToCr (n r : Fin 8) : M Unit := do
  requireNumber namesCr n
  let v := (← get).reg32 r
  match n.val with
  | 0 => loadCr0 v
  | 2 => modify fun s => { s with cr2 := v }
  | _ => modify fun s => ({ s.keepMap s.cr0.pg with cr3 := v &&& 0xFFFFF000 } : State).tlbFlush
  freeFlags

/-- The checks of the moves to and from debug registers (R561): DR4 and DR5 are exception 6; DR7.GD is exception 1, with
DR6.BD set and GD cleared. -/
def debugGuard (n : Fin 8) : M Unit := do
  requireNumber namesDr n
  if (← get).dr7.getLsbD 13 then
    modify fun s => { s with dr6 := s.dr6 ||| 0x2000, dr7 := s.dr7 &&& 0xFFFFDFFF }
    raise 1

/-- The value a debug register reads as: the reserved bits of DR6, and bit 10 of DR7, are free (R561, U3). Bits 11, 12, 14
and 15 of DR7 read 0 where 0 was written; where 1 was written R561 has them read 1 and U3 lets them read anything: free is
the model's choice (log entry 7, DEDUCED). -/
def State.debugValue (s : State) (n : Fin 8) : Word32 :=
  match n.val with
  | 0 => s.dr0
  | 1 => s.dr1
  | 2 => s.dr2
  | 3 => s.dr3
  | 6 => (s.dr6 &&& 0x0000E00F) ||| (s.freeWord 0 &&& 0xFFFF1FF0)
  | _ => (s.dr7 &&& 0xFFFF23FF) ||| (s.freeWord 0 &&& 0x00000400) ||| (s.freeWord 0 &&& s.dr7 &&& 0x0000D800)

/-- MOV r32, DRn (R561). -/
def movFromDr (r n : Fin 8) : M Unit := do
  debugGuard n
  putReg .w32 r ((← get).debugValue n)
  freeFlags

/-- A RW or LEN field of 10 in a value for DR7 (U3). -/
def badDebugControl (v : Word32) : Bool :=
  [16, 18, 20, 22, 24, 26, 28, 30].any fun k => v.extractLsb' k 2 == 2

/-- MOV DRn, r32 (R561). -/
def movToDr (n r : Fin 8) : M Unit := do
  debugGuard n
  let v := (← get).reg32 r
  match n.val with
  | 0 => modify fun s => { s with dr0 := v }
  | 1 => modify fun s => { s with dr1 := v }
  | 2 => modify fun s => { s with dr2 := v }
  | 3 => modify fun s => { s with dr3 := v }
  | 6 => modify fun s => { s with dr6 := v }
  | _ =>
    if badDebugControl v then stopFault .debugField
    modify fun s => { s with dr7 := v }
  freeFlags

/-- MOV to and from TRn (R562): refused for TR6 and TR7 (U20). -/
def movTest (n : Fin 8) : M Unit := do
  requireNumber namesTr n
  refuse .testRegister

/-- LMSW (R563): MP, EM and TS are loaded, PE can only be set. -/
def execLmsw (rm : RM) (s : State) : Host.Outcome State Fault Refusal :=
  plain (do
    requireCpl0
    let v ← readRM .w16 rm
    modify fun s =>
      { s with cr0 := { s.cr0 with
          mp := v.getLsbD 1, em := v.getLsbD 2, ts := v.getLsbD 3, pe := s.cr0.pe || v.getLsbD 0 } }) s

/-- SMSW (R564). -/
def execSmsw (rm : RM) (s : State) : Host.Outcome State Fault Refusal :=
  plain (do storeWord rm ((← get).cr0.toWord.truncate 16)) s

/-- CLTS (R565). -/
def execClts (s : State) : Host.Outcome State Fault Refusal :=
  plain (do
    requireCpl0
    modify fun s => { s with cr0 := { s.cr0 with ts := false } }) s

/-! ## Protection queries -/

/-- Set ZF alone. -/
def putZf (z : Bool) : M Unit := modify fun s => { s with flags := { s.flags with zf := z } }

/-- The descriptor a query may look at: the selector is not null and inside its table, and `ok` accepts what it names
at the current privilege (R566 to R569). -/
def queryDesc (sel : Word16) (ok : BitVec 2 → Desc → Bool) : M (Option Desc) := do
  let s ← get
  if selNull sel then return none
  match s.descAddr sel with
  | none => return none
  | some la =>
    let d ← readDesc la
    return if ok s.cpl d then some d else none

/-- The privilege test of the queries: conforming code, or CPL and RPL at most DPL (R566). -/
def queryPriv (cpl : BitVec 2) (sel : Word16) (d : Desc) : Bool := d.conforming || privOk cpl sel d

/-- LAR and LSL (R566, R567): `types` are the system types accepted, `result` the value. Operand and destination have the
operand size, and the selector is the low word of the operand. That the operand has it, and is no word as R271 lists it, is
DEDUCED (log entry 40). -/
def queryLoad (types : List Nat) (result : Desc → Word32) (r : Fin 8) (rm : RM) : M Unit := do
  requireProtected
  let w := (← get).osz.width
  let sel : Word16 := (← readRM w rm).truncate 16
  let d ← queryDesc sel fun cpl d => (d.isSegment || types.contains d.type) && queryPriv cpl sel d
  match d with
  | some d =>
    putReg w r ((result d).truncate w.bits)
    putZf true
  | none => putZf false

/-- The access rights LAR returns: bits 15..8 and 23..20 of the second double word; with a 16-bit destination the former
only (R566). -/
def accessRights (sz : Size) (d : Desc) : Word32 :=
  (d.extractLsb' 32 32) &&& (if sz = .s32 then 0x00F0FF00 else 0xFF00)

/-- LAR (R566). -/
def execLar (r : Fin 8) (rm : RM) (s : State) : Host.Outcome State Fault Refusal :=
  plain (do queryLoad [1, 2, 3, 4, 5, 9, 11, 12] (accessRights (← get).osz) r rm) s

/-- LSL (R567). -/
def execLsl (r : Fin 8) (rm : RM) (s : State) : Host.Outcome State Fault Refusal :=
  plain (queryLoad [1, 2, 3, 9, 11] Desc.limit r rm) s

/-- VERR (R568). -/
def execVerr (rm : RM) (s : State) : Host.Outcome State Fault Refusal :=
  plain (do
    requireProtected
    let sel ← readRM .w16 rm
    let d ← queryDesc sel fun cpl d => d.readable && queryPriv cpl sel d
    putZf d.isSome) s

/-- VERW (R569). -/
def execVerw (rm : RM) (s : State) : Host.Outcome State Fault Refusal :=
  plain (do
    requireProtected
    let sel ← readRM .w16 rm
    let d ← queryDesc sel fun cpl d => d.writable && privOk cpl sel d
    putZf d.isSome) s

/-- ARPL (R570). The operand is read under a read check and written, where it must be, under a write check, as the rule
lists them; that it is no read-modify-write of R264 is the model's choice (log entry 33, DESIGN CHOICE). -/
def execArpl (rm : RM) (r : Fin 8) (s : State) : Host.Outcome State Fault Refusal :=
  plain (do
    requireProtected
    let s ← get
    let d ← readRM .w16 rm
    let src := s.reg .w16 r
    if (selRpl d).toNat < (selRpl src).toNat then
      writeLoc .w16 (s.locate rm) ((d &&& 0xFFFC) ||| (src &&& 3))
      putZf true
    else putZf false) s

/-! ## HLT, input and output -/

/-- HLT (R574). -/
def execHlt (s : State) : Host.Outcome State Fault Refusal :=
  plain (do
    requireCpl0
    modify fun s => { s with run := .halted, bus := .haltCycle :: s.bus }) s

/-- A read of a port into AL, AX or EAX (R580, R581). -/
def inSteps (w : Width) (port : Word16) : M Unit := do
  ioCheck port w.bytes
  let v ← ioRead w port
  putReg w eax v

/-- A write of AL, AX or EAX to a port (R582, R583). -/
def outSteps (w : Width) (port : Word16) : M Unit := do
  ioCheck port w.bytes
  ioWrite w port ((← get).reg w eax)

/-- IN (R580, R581). -/
def execInPort (f : InForm) (s : State) : Host.Outcome State Fault Refusal :=
  plain (do
    let s ← get
    match f with
    | .alIb imm => inSteps .w8 (imm.zeroExtend 16)
    | .eaxIb imm => inSteps s.osz.width (imm.zeroExtend 16)
    | .alDx => inSteps .w8 (s.reg .w16 edx)
    | .eaxDx => inSteps s.osz.width (s.reg .w16 edx)) s

/-- OUT (R582, R583). -/
def execOutPort (f : OutForm) (s : State) : Host.Outcome State Fault Refusal :=
  plain (do
    let s ← get
    match f with
    | .ibAl imm => outSteps .w8 (imm.zeroExtend 16)
    | .ibEax imm => outSteps s.osz.width (imm.zeroExtend 16)
    | .dxAl => outSteps .w8 (s.reg .w16 edx)
    | .dxEax => outSteps s.osz.width (s.reg .w16 edx)) s

end Sys2Proof.Machine
end

