-- ==== Sys2Proof/Machine/DataMovement.lean ====
section
/-!
DEFINITION. Data movement (40_data_movement.md R301 to R316).
-/
namespace Sys2Proof.Machine

/-- The offset field of the direct-offset moves, zero-extended (R303). -/
def directOffset : ImmV → Word32 := immWord

/-- Load the accumulator from a direct offset (R303). -/
def loadDirect (w : Width) (off : ImmV) : M Unit := do
  let s ← get
  putReg w eax (← lread w (s.segOr .ds) (directOffset off))

/-- Store the accumulator at a direct offset (R303). -/
def storeDirect (w : Width) (off : ImmV) : M Unit := do
  let s ← get
  lwrite w (s.segOr .ds) (directOffset off) (s.reg w eax)

/-- MOV Sreg, r/m16 (R304): a load of SS begins a shadow. -/
def movToSeg (sr : SReg) (rm : RM) : M Unit := do
  require (sr != .cs) 6
  let sel ← readRM .w16 rm
  loadSeg sr sel
  if sr = .ss then modify fun s => { s with shadow := .ss }

/-- The forms of MOV (R301 to R305, R560 to R562). -/
def movForm (f : MovForm) : M Unit := do
  let s ← get
  let v := s.osz.width
  match f with
  | .ebGb rm r => writeRM .w8 rm (s.reg .w8 r)
  | .evGv rm r => writeRM v rm (s.reg v r)
  | .gbEb r rm => putReg .w8 r (← readRM .w8 rm)
  | .gvEv r rm => putReg v r (← readRM v rm)
  | .ewSw rm sr => storeWord rm (s.seg sr).selector
  | .swEw sr rm => movToSeg sr rm
  | .alOb off => loadDirect .w8 off
  | .eaxOv off => loadDirect v off
  | .obAl off => storeDirect .w8 off
  | .ovEax off => storeDirect v off
  | .r8Ib r imm => putReg .w8 r imm
  | .rIv r imm => putReg v r (immAs v imm)
  | .ebIb rm imm => writeRM .w8 rm imm
  | .evIv rm imm => writeRM v rm (immAs v imm)
  | .r32Cr r n => movFromCr r n
  | .r32Dr r n => movFromDr r n
  | .crR32 n r => movToCr n r
  | .drR32 n r => movToDr n r
  | .r32Tr _ n => movTest n
  | .trR32 n _ => movTest n

/-- MOV (R301 to R305, R560 to R562). -/
def execMov (f : MovForm) (s : State) : Host.Outcome State Fault Refusal := plain (movForm f) s

/-- Extend a source of 8 or 16 bits into a register of operand size (R308, R309). -/
def movxForm (ext : (n m : Nat) → BitVec n → BitVec m) (f : MovxForm) : M Unit := do
  let v := (← get).osz.width
  match f with
  | .gvEb r rm => putReg v r (ext 8 v.bits (← readRM .w8 rm))
  | .gvEw r rm => putReg v r (ext 16 v.bits (← readRM .w16 rm))

/-- MOVZX (R308). -/
def execMovzx (f : MovxForm) (s : State) : Host.Outcome State Fault Refusal :=
  plain (movxForm (fun _ m x => x.zeroExtend m) f) s

/-- MOVSX (R309). -/
def execMovsx (f : MovxForm) (s : State) : Host.Outcome State Fault Refusal :=
  plain (movxForm (fun _ m x => x.signExtend m) f) s

/-- CBW, CWDE (R310). -/
def execCbwCwde (s : State) : Host.Outcome State Fault Refusal :=
  plain (do
    let s ← get
    match s.osz with
    | .s16 => putReg .w16 eax ((s.reg .w8 eax).signExtend 16)
    | .s32 => putReg .w32 eax ((s.reg .w16 eax).signExtend 32)) s

/-- CWD, CDQ (R311). -/
def execCwdCdq (s : State) : Host.Outcome State Fault Refusal :=
  plain (do
    let s ← get
    let w := s.osz.width
    putReg w edx (if (s.reg w eax).msb then BitVec.allOnes w.bits else 0)) s

/-- LEA (R312): no access, no check. -/
def execLea (r : Fin 8) (m : MemOp) (s : State) : Host.Outcome State Fault Refusal :=
  plain (do
    let s ← get
    let w := s.osz.width
    putReg w r ((s.ea m).2.truncate w.bits)) s

/-- A far pointer in memory (R268, R313): the offset, then the selector, at the next offset modulo 2^32 (00_scope.md R16). -/
def readFar (m : MemOp) : M (Word32 × Word16) := do
  let s ← get
  let (seg, off) := s.ea m
  let o ← lread s.osz.width seg off
  let sel ← lread .w16 seg (off + BitVec.ofNat 32 s.osz.bytes)
  return (o.zeroExtend 32, sel)

/-- LDS, LES, LSS, LFS, LGS (R313). -/
def loadFar (sr : SReg) (r : Fin 8) (m : MemOp) : M Unit := do
  let w := (← get).osz.width
  let (o, sel) ← readFar m
  loadSeg sr sel
  putReg w r (o.truncate w.bits)

/-- LDS (R313). -/
def execLds (r : Fin 8) (m : MemOp) (s : State) : Host.Outcome State Fault Refusal := plain (loadFar .ds r m) s

/-- LES (R313). -/
def execLes (r : Fin 8) (m : MemOp) (s : State) : Host.Outcome State Fault Refusal := plain (loadFar .es r m) s

/-- LSS (R313). -/
def execLss (r : Fin 8) (m : MemOp) (s : State) : Host.Outcome State Fault Refusal := plain (loadFar .ss r m) s

/-- LFS (R313). -/
def execLfs (r : Fin 8) (m : MemOp) (s : State) : Host.Outcome State Fault Refusal := plain (loadFar .fs r m) s

/-- LGS (R313). -/
def execLgs (r : Fin 8) (m : MemOp) (s : State) : Host.Outcome State Fault Refusal := plain (loadFar .gs r m) s

/-- XLAT (R314). -/
def execXlat (s : State) : Host.Outcome State Fault Refusal :=
  plain (do
    let s ← get
    let off := wrapTo s.asz (s.addrReg s.asz ebx + (s.reg .w8 eax).zeroExtend 32)
    putReg .w8 eax (← lread .w8 (s.segOr .ds) off)) s

/-- XCHG of a register with an r/m operand (R316): in memory the exchange is locked with or without a LOCK prefix
(R100). -/
def xchgRM (w : Width) (rm : RM) (r : Fin 8) : M Unit := do
  let s ← get
  let l := s.locate rm
  checkLoc w l
  let t ← lockedIf true l do
    let t ← readLoc w l
    writeLoc w l (s.reg w r)
    return t
  putReg w r t

/-- The forms of XCHG (R316). -/
def xchgForm (f : XchgForm) : M Unit := do
  let v := (← get).osz.width
  match f with
  | .ebGb rm r => xchgRM .w8 rm r
  | .evGv rm r => xchgRM v rm r
  | .eaxR r => xchgRM v (.reg eax) r

/-- The operand of XCHG is in memory (R101). -/
def xchgToMem : XchgForm → Bool
  | .ebGb rm _ => isMem rm
  | .evGv rm _ => isMem rm
  | .eaxR _ => false

/-- XCHG (R316). -/
def execXchg (f : XchgForm) (s : State) : Host.Outcome State Fault Refusal := withLock (xchgToMem f) (xchgForm f) s

end Sys2Proof.Machine
end

