-- ==== Sys2Proof/Machine/Stack.lean ====
section
/-!
DEFINITION. Stack instructions (45_stack.md R471 to R484).
-/
namespace Sys2Proof.Machine

/-- A general register of operand size `sz`, zero-extended to 32 bits. -/
def State.regSized (s : State) (sz : Size) (r : Fin 8) : Word32 := s.addrReg sz r

/-- Write a general register of operand size `sz` from a stack item. -/
def putSized (sz : Size) (r : Fin 8) (v : Word32) : M Unit := modify fun s => s.setAddrReg sz r v

/-- A value of operand size `sz` read from an r/m operand, zero-extended to 32 bits. -/
def readSized (sz : Size) (rm : RM) : M Word32 := do return (← readRM sz.width rm).zeroExtend 32

/-- The forms of PUSH (R471 to R473). -/
def pushForm (f : PushForm) : M Unit := do
  let s ← get
  match f with
  | .r r => push s.osz (s.regSized s.osz r)
  | .iv imm => push s.osz (immWord imm)
  | .ibs imm => push s.osz (imm.signExtend 32)
  | .ev rm => push s.osz (← readSized s.osz rm)

/-- PUSH (R471, R472, R473). -/
def execPush (f : PushForm) (s : State) : Host.Outcome State Fault Refusal := plain (pushForm f) s

/-- PUSH Sreg (R474): with a 32-bit operand the upper two bytes written are free values (U10). -/
def pushSeg (r : SReg) : M Unit := do
  let s ← get
  let sel := bytesOf .w16 (s.seg r).selector
  pushBytes (match s.osz with
    | .s16 => sel
    | .s32 => sel ++ [s.freeByte 0, s.freeByte 1])

/-- PUSH ES (R474). -/
def execPushEs (s : State) : Host.Outcome State Fault Refusal := plain (pushSeg .es) s

/-- PUSH CS (R474). -/
def execPushCs (s : State) : Host.Outcome State Fault Refusal := plain (pushSeg .cs) s

/-- PUSH SS (R474). -/
def execPushSs (s : State) : Host.Outcome State Fault Refusal := plain (pushSeg .ss) s

/-- PUSH DS (R474). -/
def execPushDs (s : State) : Host.Outcome State Fault Refusal := plain (pushSeg .ds) s

/-- PUSH FS (R474). -/
def execPushFs (s : State) : Host.Outcome State Fault Refusal := plain (pushSeg .fs) s

/-- PUSH GS (R474). -/
def execPushGs (s : State) : Host.Outcome State Fault Refusal := plain (pushSeg .gs) s

/-- The forms of POP (R475): a memory destination is addressed after the stack pointer has moved. -/
def popForm (f : PopForm) : M Unit := do
  let sz := (← get).osz
  let v ← pop sz
  match f with
  | .r r => putSized sz r v
  | .ev rm => writeRM sz.width rm (v.truncate sz.width.bits)

/-- POP (R475). -/
def execPop (f : PopForm) (s : State) : Host.Outcome State Fault Refusal := plain (popForm f) s

/-- POP Sreg (R476): the stack pointer moves after the segment register is loaded; POP SS begins a shadow. -/
def popSeg (r : SReg) : M Unit := do
  let s ← get
  let v ← stackRead s.osz s.sp
  loadSeg r (v.truncate 16)
  modify fun t => t.setSp (t.spAbove t.sp s.osz.bytes)
  if r = .ss then modify fun t => { t with shadow := .ss }

/-- POP ES (R476). -/
def execPopEs (s : State) : Host.Outcome State Fault Refusal := plain (popSeg .es) s

/-- POP SS (R476). -/
def execPopSs (s : State) : Host.Outcome State Fault Refusal := plain (popSeg .ss) s

/-- POP DS (R476). -/
def execPopDs (s : State) : Host.Outcome State Fault Refusal := plain (popSeg .ds) s

/-- POP FS (R476). -/
def execPopFs (s : State) : Host.Outcome State Fault Refusal := plain (popSeg .fs) s

/-- POP GS (R476). -/
def execPopGs (s : State) : Host.Outcome State Fault Refusal := plain (popSeg .gs) s

/-- PUSHA, PUSHAD (R477): the whole block is checked before the first write. The stack pointer is pushed with the width of the
operand: that a 32-bit one on a 16-bit stack pushes all of ESP, and not SP extended with zeros, is the model's choice (log entry
48, DESIGN CHOICE). -/
def execPusha (s : State) : Host.Outcome State Fault Refusal :=
  plain (do
    let s ← get
    requireRoom s.osz 8
    pushAll s.osz ([eax, ecx, edx, ebx, esp, ebp, esi, edi].map (s.regSized s.osz))) s

/-- Read `n` stack items of size `sz` from `sp` upward (R478, R504). The parameters of a call gate are read so too: that the
offset goes on modulo the size of the old stack pointer, which R504 does not say, is the model's choice (log entry 41,
DESIGN CHOICE). -/
def stackItems (sz : Size) (sp : Word32) : Nat → M (List Word32)
  | 0 => pure []
  | n + 1 => do
    let v ← stackRead sz sp
    let vs ← stackItems sz ((← get).spAbove sp sz.bytes) n
    return v :: vs

/-- POPA, POPAD (R478): all eight items are read first; the one for (E)SP is skipped. -/
def popaSteps : M Unit := do
  let s ← get
  let v ← stackItems s.osz s.sp 8
  modify fun t => t.setSp (t.spAbove t.sp (8 * s.osz.bytes))
  putSized s.osz edi (v.getD 0 0)
  putSized s.osz esi (v.getD 1 0)
  putSized s.osz ebp (v.getD 2 0)
  putSized s.osz ebx (v.getD 4 0)
  putSized s.osz edx (v.getD 5 0)
  putSized s.osz ecx (v.getD 6 0)
  putSized s.osz eax (v.getD 7 0)

/-- POPA, POPAD (R478). -/
def execPopa (s : State) : Host.Outcome State Fault Refusal := plain popaSteps s

/-- PUSHF, POPF, INT n and IRET run in virtual-8086 mode only with IOPL = 3 (R480, R481, R510, R686). -/
def State.v86Allowed (s : State) : Bool := !s.v86 || s.flags.iopl == 3

/-- PUSHF, PUSHFD (R480): VM and RF are pushed as 0. -/
def execPushf (s : State) : Host.Outcome State Fault Refusal :=
  plain (do
    let s ← get
    require0 s.v86Allowed 13
    push s.osz (s.flags.toWord &&& 0x00FCFFFF)) s

/-- POPF, POPFD (R481). -/
def execPopf (s : State) : Host.Outcome State Fault Refusal :=
  plain (do
    let s ← get
    require0 s.v86Allowed 13
    let v ← pop s.osz
    modify fun t => { t with flags := t.poppedFlags v }) s

/-- Copy `n` display entries of the enclosing frame (R483). -/
def copyDisplay (sz : Size) : Nat → M Unit
  | 0 => pure ()
  | n + 1 => do
    modify fun s => s.setAddrReg s.ssz ebp (s.spBelow (s.addrReg s.ssz ebp) sz.bytes)
    let s ← get
    let v ← stackRead sz (s.addrReg s.ssz ebp)
    push sz v
    copyDisplay sz n

/-- ENTER (R483): the level is taken modulo 32. The frame pointer has the width of the stack pointer, but is pushed and put
into eBP with the operand's: that SP is zero-extended where a 32-bit operand meets a 16-bit stack is the model's choice
(log entry 38, DESIGN CHOICE). -/
def enterSteps (iw : Word16) (ib : Byte) : M Unit := do
  let sz := (← get).osz
  let level := ib.toNat % 32
  push sz ((← get).regSized sz ebp)
  let frame := (← get).sp
  if level = 0 then pure ()
  else
    copyDisplay sz (level - 1)
    push sz frame
  putSized sz ebp frame
  modify fun s => s.setSp (s.spBelow s.sp iw.toNat)

/-- ENTER (R483). -/
def execEnter (imm : Word16) (imm2 : Byte) (s : State) : Host.Outcome State Fault Refusal :=
  plain (enterSteps imm imm2) s

/-- LEAVE (R484). -/
def execLeave (s : State) : Host.Outcome State Fault Refusal :=
  plain (do
    modify fun s => s.setSp (s.addrReg s.ssz ebp)
    let sz := (← get).osz
    let v ← pop sz
    putSized sz ebp v) s

end Sys2Proof.Machine
end

