-- ==== Sys2Proof/Machine/Control.lean ====
section
/-!
DEFINITION. Control transfer (46_control_transfer.md R490 to R522).
-/
namespace Sys2Proof.Machine

/-- A target truncated to 16 bits with a 16-bit operand size (R490). -/
def State.nearTarget (s : State) (t : Word32) : Word32 := wrapTo s.osz t

/-- The test of a target against the code segment limit (R490). -/
def requireTarget (t : Word32) : M Unit := do require0 (decide (t.toNat ≤ (← get).cs.limit.toNat)) 13

/-- `NearBranch(t)` (R490). -/
def nearBranch (t : Word32) : M Retire := do
  let t := (← get).nearTarget t
  requireTarget t
  branchTo t
  return .jump

/-- A relative transfer (R491). -/
def branchBy (disp : Word32) : M Retire := do nearBranch ((← get).nextEip + disp)

/-- A relative transfer if `c` holds, else the next instruction (R493). -/
def branchIf (c : Bool) (disp : Word32) : M Retire := if c then branchBy disp else return .next

/-- The displacement of a conditional jump (R493). -/
def jccDisp : JccForm → Word32
  | .jb imm => imm.signExtend 32
  | .jv imm => immDisp imm

/-- Jcc (R493). -/
def jccSteps (c : Cond) (f : JccForm) : M Retire := do branchIf (c.holds (← get).flags) (jccDisp f)

/-- LOOP, LOOPE, LOOPNE (R495): the counter is CX or ECX by asz; `test` is the condition on ZF. -/
def loopSteps (test : Bool → Bool) (disp : Byte) : M Retire := do
  modify fun s => s.setAddrReg s.asz ecx (s.addrReg s.asz ecx - 1)
  let s ← get
  branchIf (s.addrReg s.asz ecx != 0 && test s.flags.zf) (disp.signExtend 32)

/-- LOOP (R495). -/
def execLoop (imm : Byte) (s : State) : Host.Outcome State Fault Refusal := transfer (loopSteps (fun _ => true) imm) s

/-- LOOPE (R495). -/
def execLoope (imm : Byte) (s : State) : Host.Outcome State Fault Refusal := transfer (loopSteps (fun z => z) imm) s

/-- LOOPNE (R495). -/
def execLoopne (imm : Byte) (s : State) : Host.Outcome State Fault Refusal := transfer (loopSteps (fun z => !z) imm) s

/-- JCXZ, JECXZ (R494). -/
def execJcxz (imm : Byte) (s : State) : Host.Outcome State Fault Refusal :=
  transfer (do
    let s ← get
    branchIf (s.addrReg s.asz ecx == 0) (imm.signExtend 32)) s

/-! ## Far transfers -/

/-- How control comes to a code segment: a jump or a call. -/
inductive Via where
  | jump
  | call
deriving DecidableEq, Repr

/-- The kind of the task switch a transfer makes (R505). -/
def Via.switch : Via → SwitchKind
  | .jump => .jmp
  | .call => .call

/-- A call pushes CS and EIP_next as items of size `sz` (R502, R503). -/
def pushReturn (via : Via) (sz : Size) : M Unit := do
  let s ← get
  match via with
  | .jump => pure ()
  | .call => pushAll sz [selItem s.cs, s.nextEip]

/-- The room a call needs on the stack (R502, R503). -/
def callRoom (via : Via) (sz : Size) : M Unit :=
  match via with
  | .jump => pure ()
  | .call => requireRoom sz 2

/-- A far jump or call in real and virtual-8086 mode (R500). -/
def farRealSteps (via : Via) (sel : Word16) (off : Word32) : M Retire := do
  let sz := (← get).osz
  callRoom via sz
  requireTarget off
  pushReturn via sz
  farReal sel off
  return .jump

/-- The checks of a direct transfer to a code segment (R501). -/
def directCode (sel : Word16) (d : Desc) : M Unit := do
  let s ← get
  requireSel (if d.conforming then lvlLe d.dpl s.cpl else lvlLe (selRpl sel) s.cpl && d.dpl == s.cpl) 13 sel
  requireSel d.present 11 sel

/-- The end of a transfer at the same privilege: `sz` is the size of the items a call pushes (R501 to R503). -/
def sameLevel (via : Via) (sz : Size) (sel : Word16) (d : Desc) (la : Word32) (off : Word32) : M Retire := do
  callRoom via sz
  require0 (decide (off.toNat ≤ d.limit.toNat)) 13
  pushReturn via sz
  loadCs sel d la (← get).cpl
  branchTo off
  return .jump

/-- The number of parameters a call gate copies (R149, R504). -/
def gateCount (g : Desc) : Nat := (g.extractLsb' 32 5).toNat

/-- An inner call through gate `g` to the segment `d` (R504). -/
def innerCall (g : Desc) (csel : Word16) (d : Desc) (la : Word32) (off : Word32) : M Retire := do
  let s ← get
  let sz := gateSize g
  let i ← innerStack d.dpl sz.bytes (4 + gateCount g)
  require0 (decide (off.toNat ≤ d.limit.toNat)) 13
  let params ← stackItems sz s.sp (gateCount g)
  switchStack i d.dpl
  pushAll sz ([selItem s.ss, s.reg32 esp] ++ params.reverse ++ [selItem s.cs, s.nextEip])
  loadCs csel d la d.dpl
  branchTo off
  return .jump

/-- A call or jump through a call gate (R503). -/
def throughGate (via : Via) (sel : Word16) (g : Desc) : M Retire := do
  let s ← get
  requireSel (privOk s.cpl sel g) 13 sel
  requireSel g.present 11 sel
  let csel := gateSelector g
  require0 (!selNull csel) 13
  let (d, la) ← fetchDesc 13 csel
  requireSel (d.isCode && lvlLe d.dpl s.cpl) 13 csel
  requireSel (via == .call || d.conforming || d.dpl == s.cpl) 13 csel
  requireSel d.present 11 csel
  let off := gateOffset g (gateSize g)
  if via == .call && !d.conforming && d.dpl != s.cpl then innerCall g csel d la off
  else sameLevel via (gateSize g) csel d la off

/-- A jump or call that names a task state segment or a task gate (R505). -/
def toTask (via : Via) (sel : Word16) (d : Desc) : M Retire := do
  let s ← get
  requireSel (privOk s.cpl sel d) 13 sel
  if d.type == 5 then
    requireSel d.present 11 sel
    taskSwitch (gateSelector d) via.switch s.nextEip false
  else taskSwitch sel via.switch s.nextEip false
  return .loaded

/-- A far jump or call in protected mode (R501 to R505). -/
def farProtectedSteps (via : Via) (sel : Word16) (off : Word32) : M Retire := do
  require0 (!selNull sel) 13
  let (d, la) ← fetchDesc 13 sel
  let s ← get
  if d.isCode then
    directCode sel d
    sameLevel via s.osz sel d la off
  else if !d.isSegment && (d.type == 4 || d.type == 12) then throughGate via sel d
  else if !d.isSegment && (d.type == 1 || d.type == 9 || d.type == 5) then toTask via sel d
  else raiseSel 13 sel

/-- A far jump or call (R500 to R505). -/
def farSteps (via : Via) (sel : Word16) (off : Word32) : M Retire := do
  if (← get).protectedMode then farProtectedSteps via sel off else farRealSteps via sel off

/-- CALL near (R496). -/
def callNear (t : Word32) : M Retire := do
  let s ← get
  let t := s.nearTarget t
  requireTarget t
  push s.osz s.nextEip
  branchTo t
  return .jump

/-- The forms of CALL (R496, R500). -/
def callForm (f : CallForm) : M Retire := do
  let s ← get
  match f with
  | .farAp p => farSteps .call p.sel (immWord p.off)
  | .jv imm => callNear (s.nextEip + immDisp imm)
  | .ev rm => callNear (← readSized s.osz rm)
  | .farMp m => do
    let (off, sel) ← readFar m
    farSteps .call sel off

/-- CALL (R496, R500 to R505). -/
def execCall (f : CallForm) (s : State) : Host.Outcome State Fault Refusal := transfer (callForm f) s

/-- The forms of JMP (R491, R492, R500). -/
def jmpForm (f : JmpForm) : M Retire := do
  let s ← get
  match f with
  | .jv imm => branchBy (immDisp imm)
  | .farAp p => farSteps .jump p.sel (immWord p.off)
  | .jb imm => branchBy (imm.signExtend 32)
  | .ev rm => nearBranch (← readSized s.osz rm)
  | .farMp m => do
    let (off, sel) ← readFar m
    farSteps .jump sel off

/-- JMP (R491, R492, R500 to R505). -/
def execJmp (f : JmpForm) (s : State) : Host.Outcome State Fault Refusal := transfer (jmpForm f) s

/-- RET near (R498). -/
def retNear (iw : Word16) : M Retire := do
  let t ← pop (← get).osz
  requireTarget t
  modify fun s => s.setSp (s.spAbove s.sp iw.toNat)
  branchTo t
  return .jump

/-- RET far (R500, R508, R509). -/
def retFar (iw : Word16) : M Retire := do
  let s ← get
  let sz := s.osz
  if s.protectedMode then
    requireHeld s.sp (2 * sz.bytes)
    let off ← frameRead sz s.sp 0
    let sel ← frameRead sz s.sp sz.bytes
    returnTo (sel.truncate 16) off sz (2 * sz.bytes) iw
  else
    let off ← stackRead sz s.sp
    let sel ← stackRead sz (s.spAbove s.sp sz.bytes)
    requireTarget off
    modify fun s => s.setSp (s.spAbove s.sp (2 * sz.bytes + iw.toNat))
    farReal (sel.truncate 16) off
  return .jump

/-- The forms of RET (R498, R500). -/
def retForm (f : RetForm) : M Retire :=
  match f with
  | .nearIw imm => retNear imm
  | .near => retNear 0
  | .farIw imm => retFar imm
  | .far => retFar 0

/-- RET (R498, R500, R508, R509). -/
def execRet (f : RetForm) (s : State) : Host.Outcome State Fault Refusal := transfer (retForm f) s

/-! ## Interrupt instructions, BOUND, IRET -/

/-- A software interrupt (R510): the saved EIP is EIP_next. -/
def softInt (vector : Byte) : M Retire := do
  enter { vector := vector, kind := .software, ret := (← get).nextEip, code := none, rf := false }
  return .loaded

/-- INT 3 (R510). -/
def execInt3 (s : State) : Host.Outcome State Fault Refusal := transfer (softInt 3) s

/-- INT n (R510): sensitive to IOPL in virtual-8086 mode. -/
def execInt (imm : Byte) (s : State) : Host.Outcome State Fault Refusal :=
  transfer (do
    require0 (← get).v86Allowed 13
    softInt imm) s

/-- INTO (R518). -/
def execInto (s : State) : Host.Outcome State Fault Refusal :=
  transfer (do if (← get).flags.ovf then softInt 4 else return .next) s

/-- BOUND (R519). -/
def execBound (r : Fin 8) (m : MemOp) (s : State) : Host.Outcome State Fault Refusal :=
  plain (do
    let s ← get
    let w := s.osz.width
    let (seg, off) := s.ea m
    let lower ← lread w seg off
    let upper ← lread w seg (off + BitVec.ofNat 32 w.bytes)
    let i := s.reg w r
    require (!(i.slt lower) && !(upper.slt i)) 5) s

/-- IRET (R511 to R513). -/
def execIret (s : State) : Host.Outcome State Fault Refusal :=
  transfer (do
    iretOp
    return .loaded) s

/-! ## Conditional jumps -/

/-- JO (R493). -/
def execJo (f : JccForm) (s : State) : Host.Outcome State Fault Refusal := transfer (jccSteps .o f) s

/-- JNO (R493). -/
def execJno (f : JccForm) (s : State) : Host.Outcome State Fault Refusal := transfer (jccSteps .no f) s

/-- JB (R493). -/
def execJb (f : JccForm) (s : State) : Host.Outcome State Fault Refusal := transfer (jccSteps .b f) s

/-- JAE (R493). -/
def execJae (f : JccForm) (s : State) : Host.Outcome State Fault Refusal := transfer (jccSteps .ae f) s

/-- JE (R493). -/
def execJe (f : JccForm) (s : State) : Host.Outcome State Fault Refusal := transfer (jccSteps .e f) s

/-- JNE (R493). -/
def execJne (f : JccForm) (s : State) : Host.Outcome State Fault Refusal := transfer (jccSteps .ne f) s

/-- JBE (R493). -/
def execJbe (f : JccForm) (s : State) : Host.Outcome State Fault Refusal := transfer (jccSteps .be f) s

/-- JA (R493). -/
def execJa (f : JccForm) (s : State) : Host.Outcome State Fault Refusal := transfer (jccSteps .a f) s

/-- JS (R493). -/
def execJs (f : JccForm) (s : State) : Host.Outcome State Fault Refusal := transfer (jccSteps .s f) s

/-- JNS (R493). -/
def execJns (f : JccForm) (s : State) : Host.Outcome State Fault Refusal := transfer (jccSteps .ns f) s

/-- JP (R493). -/
def execJp (f : JccForm) (s : State) : Host.Outcome State Fault Refusal := transfer (jccSteps .p f) s

/-- JNP (R493). -/
def execJnp (f : JccForm) (s : State) : Host.Outcome State Fault Refusal := transfer (jccSteps .np f) s

/-- JL (R493). -/
def execJl (f : JccForm) (s : State) : Host.Outcome State Fault Refusal := transfer (jccSteps .l f) s

/-- JGE (R493). -/
def execJge (f : JccForm) (s : State) : Host.Outcome State Fault Refusal := transfer (jccSteps .ge f) s

/-- JLE (R493). -/
def execJle (f : JccForm) (s : State) : Host.Outcome State Fault Refusal := transfer (jccSteps .le f) s

/-- JG (R493). -/
def execJg (f : JccForm) (s : State) : Host.Outcome State Fault Refusal := transfer (jccSteps .g f) s

end Sys2Proof.Machine
end

