-- ==== Sys2Proof/Machine/Coprocessor.lean ====
section
/-!
DEFINITION. The coprocessor interface (49_coprocessor.md R600 to R613): what the 80386 does for an ESC instruction. The
coprocessor is an external agent (D24): it is sent the opcode and the operand bytes, and the bytes it returns are free
values (U18, log entry 12).
-/
namespace Sys2Proof.Machine

/-- The operand sizes of R602's table; `e` and `s` are 14 and 94 bytes with osz = 16, 28 and 108 with osz = 32. -/
inductive EscSize where
  | fixed (n : Nat)
  | environment
  | save
deriving DecidableEq, Repr

/-- The number of bytes of an operand (R602). -/
def EscSize.bytes (z : EscSize) (sz : Size) : Nat :=
  match z, sz with
  | .fixed n, _ => n
  | .environment, .s16 => 14
  | .environment, .s32 => 28
  | .save, .s16 => 94
  | .save, .s32 => 108

/-- The operand of an ESC instruction: none, memory that is read or written, or AX for the status word (R602). -/
inductive EscOperand where
  | none
  | load (m : MemOp) (z : EscSize)
  | store (m : MemOp) (z : EscSize)
  | ax
deriving DecidableEq, Repr

/-- An ESC instruction as the 80386 sees it: the 11-bit opcode, the operand, whether it waits for BUSY# and tests ERROR#
(R609), and whether it is a control instruction, which leaves the kept addresses alone (R613). -/
structure Esc where
  opcode : BitVec 11
  operand : EscOperand
  waits : Bool
  control : Bool
deriving DecidableEq, Repr

/-- The 11-bit opcode: the low three bits of the first byte and the ModRM byte (R603). -/
def escOpcode (first : Nat) (modrm : Byte) : BitVec 11 := BitVec.ofNat 3 first ++ modrm

/-- A register form: first byte D8 + `first`, ModRM C0 + 8 `reg` + `i`. -/
def escReg (first : Nat) (reg i : Fin 8) : Esc :=
  { opcode := escOpcode first (fieldsByte 3 reg i), operand := .none, waits := true, control := false }

/-- A form that reads memory. -/
def escLoad (first : Nat) (reg : Fin 8) (m : MemOp) (z : EscSize) : Esc :=
  { opcode := escOpcode first ((m.encode reg).headD 0), operand := .load m z, waits := true, control := false }

/-- A form that writes memory. -/
def escStore (first : Nat) (reg : Fin 8) (m : MemOp) (z : EscSize) : Esc :=
  { opcode := escOpcode first ((m.encode reg).headD 0), operand := .store m z, waits := true, control := false }

/-- CR0.ET does not fit the fitted coprocessor (R612, U19). -/
def State.etWrong (s : State) : Bool :=
  match s.cfg.coproc with
  | .none => false
  | .i80287 => s.cr0.et
  | .i80387 => !s.cr0.et

/-- BUSY# as the 80386 samples it: inactive when no coprocessor is fitted (R603). -/
def State.busy (s : State) : Bool := s.cfg.coproc != .none && s.pins.busy

/-- ERROR# as the 80386 samples it (R603). -/
def State.copError (s : State) : Bool := s.cfg.coproc != .none && s.pins.error

/-- PEREQ as the 80386 samples it: inactive when no coprocessor is fitted (R207, R603). CR0.EM plays no part in it (log entry 12,
DESIGN CHOICE). -/
def State.pereq (s : State) : Bool := s.cfg.coproc != .none && s.pins.pereq

/-- Run a cycle of the coprocessor interface. -/
def busCycle (e : BusEvent) : M Unit := modify fun s => { s with bus := e :: s.bus }

/-- `n` bytes from the coprocessor: free values (R603, U18). -/
def State.copBytes (s : State) (n : Nat) : List Byte := (List.range n).map s.freeByte

/-- `Coproc.issue` (R603, R609 step 5); an instruction that is no control instruction leaves its addresses (R613). -/
def copIssue (e : Esc) (sel : Word16) (off : Word32) : M Unit := do
  let s ← get
  busCycle (.copIssue e.opcode s.cs.selector s.eip sel off)
  if !e.control then
    modify fun s =>
      { s with cop :=
        { s.cop with cs := s.cs.selector, eip := s.eip, opcode := e.opcode, sel := sel, off := off } }

/-- The size of an item on the coprocessor's side: 32 bits in the protocol of the 80387, 16 in that of the 80287 (R87, R610,
R612). -/
def State.copItem (s : State) : Nat := if s.cr0.et then 4 else 2

/-- `s` after the bytes of an operand have passed the coprocessor's data port, one cycle for each item (R610). -/
def State.copMoved (s : State) (f : List Byte → BusEvent) (bs : List Byte) : State :=
  { s with bus := ((piecesOf s.copItem bs.length bs).map f).reverse ++ s.bus }

/-- `s` after the 80386 has made the store that was due: it fetches the bytes from the coprocessor and writes them to the
addresses checked before, item by item (R610). -/
def State.copStored (s : State) : State :=
  match s.cop.due with
  | none => s
  | some d =>
    let bs := s.copBytes d.addrs.length
    (({ s with cop := { s.cop with due := none } } : State).copMoved .copGet bs).checkedWrite s.copItem d.la d.addrs bs

/-- Make the store that is due and wait: the instruction begins again (R610; log entry 12). With CR0.ET wrong for the fitted
coprocessor the result is undefined (R612, U19). -/
def makeDueStore : M Retire := do
  if (← get).etWrong then stopFault .etMismatch
  modify State.copStored
  return .wait

/-- The slot of the choice of `storeLater`. -/
def lateSlot : Nat := 25

/-- The coprocessor raises PEREQ for a store only after the 80386 has gone on (R610): a free choice where the pin is not
active already; without a coprocessor the store is made at once (log entry 12). -/
def State.storeLater (s : State) : Bool := s.cfg.coproc != .none && !s.pins.pereq && s.freeBit lateSlot

/-- Steps 4 to 7 of R609: the check of the whole operand, the issue, the transfer to or from the addresses checked (R610). An
instruction with no operand in memory is issued with the address 0:0, which R613 leaves open (log entry 12, DESIGN CHOICE). -/
def copTransfer (e : Esc) : M Unit := do
  let s ← get
  match e.operand with
  | .none => copIssue e 0 0
  | .load m z =>
    let (seg, off) := s.ea m
    let addrs ← accessAddrs seg off (z.bytes s.osz) false
    copIssue e (s.seg seg).selector off
    let bs ← readChecked s.copItem (linear (s.seg seg) off) addrs
    modify fun t => t.copMoved .copPut bs
  | .store m z =>
    let (seg, off) := s.ea m
    let bs := s.copBytes (z.bytes s.osz)
    let addrs ← accessAddrs seg off bs.length true
    copIssue e (s.seg seg).selector off
    if s.storeLater then
      modify fun t => { t with cop := { t.cop with due := some { la := linear (s.seg seg) off, addrs := addrs } } }
    else
      modify fun t => t.copMoved .copGet bs
      writeChecked s.copItem (linear (s.seg seg) off) addrs bs
  | .ax =>
    copIssue e 0 0
    let bs := s.copBytes 2
    modify fun t => t.copMoved .copGet bs
    putReg .w16 eax (valueOf .w16 bs)

/-- An ESC instruction (R606, R609). A store that is still due is made first: the 80386 holds one operand address (R207;
log entry 12). -/
def escSteps (e : Esc) : M Retire := do
  let s ← get
  require (!s.cr0.em && !s.cr0.ts) 7
  if s.etWrong then stopFault .etMismatch
  if e.waits && s.busy then return .wait
  if s.cop.due.isSome then return (← makeDueStore)
  require (!(e.waits && s.copError)) 16
  copTransfer e
  return .next

/-- WAIT (R608): after it a store the coprocessor owed has been made (R610), with CR0.EM set too (log entry 12, DESIGN
CHOICE). -/
def execWait (s : State) : Host.Outcome State Fault Refusal :=
  transfer (do
    let s ← get
    require (!(s.cr0.mp && s.cr0.ts)) 7
    if s.busy then return .wait
    if s.cop.due.isSome then return (← makeDueStore)
    require (!s.copError) 16
    return .next) s

/-! ## The table of R602 -/

/-- FADD to FDIVR: `reg` is ModRM.reg, `rev` that of the form with destination ST(i). -/
def arithEsc (reg rev : Fin 8) (f : FArithForm) : Esc :=
  match f with
  | .m32 m => escLoad 0 reg m (.fixed 4)
  | .stSti i => escReg 0 reg i
  | .m64 m => escLoad 4 reg m (.fixed 8)
  | .stiSt i => escReg 4 rev i

/-- FCOM and FCOMP. -/
def comEsc (reg : Fin 8) (f : FComForm) : Esc :=
  match f with
  | .m32 m => escLoad 0 reg m (.fixed 4)
  | .stSti i => escReg 0 reg i
  | .m64 m => escLoad 4 reg m (.fixed 8)

/-- FLD. -/
def fldEsc (f : FLoadForm) : Esc :=
  match f with
  | .m32 m => escLoad 1 0 m (.fixed 4)
  | .sti i => escReg 1 0 i
  | .m80 m => escLoad 3 5 m (.fixed 10)
  | .m64 m => escLoad 5 0 m (.fixed 8)

/-- FST. -/
def fstEsc (f : FStoreForm) : Esc :=
  match f with
  | .m32 m => escStore 1 2 m (.fixed 4)
  | .m64 m => escStore 5 2 m (.fixed 8)
  | .sti i => escReg 5 2 i

/-- FSTP. -/
def fstpEsc (f : FLoadForm) : Esc :=
  match f with
  | .m32 m => escStore 1 3 m (.fixed 4)
  | .sti i => escReg 5 3 i
  | .m80 m => escStore 3 7 m (.fixed 10)
  | .m64 m => escStore 5 3 m (.fixed 8)

/-- FIADD to FIDIVR. -/
def intEsc (reg : Fin 8) (f : FIntForm) : Esc :=
  match f with
  | .m32 m => escLoad 2 reg m (.fixed 4)
  | .m16 m => escLoad 6 reg m (.fixed 2)

/-- FILD. -/
def fildEsc (f : FIntLoadForm) : Esc :=
  match f with
  | .m32 m => escLoad 3 0 m (.fixed 4)
  | .m16 m => escLoad 7 0 m (.fixed 2)
  | .m64 m => escLoad 7 5 m (.fixed 8)

/-- FIST. -/
def fistEsc (f : FIntForm) : Esc :=
  match f with
  | .m32 m => escStore 3 2 m (.fixed 4)
  | .m16 m => escStore 7 2 m (.fixed 2)

/-- FISTP. -/
def fistpEsc (f : FIntLoadForm) : Esc :=
  match f with
  | .m32 m => escStore 3 3 m (.fixed 4)
  | .m16 m => escStore 7 3 m (.fixed 2)
  | .m64 m => escStore 7 7 m (.fixed 8)

/-- A control instruction that waits: FLDENV, FLDCW, FRSTOR (R609, R613). -/
def controlEsc (e : Esc) : Esc := { e with control := true }

/-- A control instruction that does not wait (R609). -/
def noWaitEsc (e : Esc) : Esc := { e with waits := false, control := true }

/-- DB E0 to E7: FENI, FDISI, FNCLEX, FNINIT, FSETPM and three that name no instruction; FNCLEX and FNINIT do not wait
(R602, R609). -/
def feniEsc (i : Fin 8) : Esc :=
  if i = 2 ∨ i = 3 then noWaitEsc (escReg 3 4 i)
  else if i.val < 5 then controlEsc (escReg 3 4 i)
  else escReg 3 4 i

/-- DF E0 to E7: only DF E0 is FNSTSW AX (R602). -/
def fnstswAxEsc (i : Fin 8) : Esc :=
  if i = 0 then { noWaitEsc (escReg 7 4 i) with operand := .ax } else escReg 7 4 i

/-- A memory form that no instruction uses: its operand size is not defined, so it is refused (R602), after the test of
exception 7 that every ESC makes first (R606). -/
def reservedSteps : M Retire := do
  let s ← get
  require (!s.cr0.em && !s.cr0.ts) 7
  refuse .escReservedMemory

/-- The ESC memory forms that no instruction uses (R602). -/
def execEscReserved (f : ReservedForm) (s : State) : Host.Outcome State Fault Refusal :=
  match f with
  | .d9M1 _ => transfer reservedSteps s
  | .dbM1 _ => transfer reservedSteps s
  | .dbM4 _ => transfer reservedSteps s
  | .dbM6 _ => transfer reservedSteps s
  | .ddM1 _ => transfer reservedSteps s
  | .ddM5 _ => transfer reservedSteps s
  | .dfM1 _ => transfer reservedSteps s

/-- FADD (R602, R609). -/
def execFadd (f : FArithForm) (s : State) : Host.Outcome State Fault Refusal := transfer (escSteps (arithEsc 0 0 f)) s

/-- FMUL (R602, R609). -/
def execFmul (f : FArithForm) (s : State) : Host.Outcome State Fault Refusal := transfer (escSteps (arithEsc 1 1 f)) s

/-- FCOM (R602, R609). -/
def execFcom (f : FComForm) (s : State) : Host.Outcome State Fault Refusal := transfer (escSteps (comEsc 2 f)) s

/-- FCOMP (R602, R609). -/
def execFcomp (f : FComForm) (s : State) : Host.Outcome State Fault Refusal := transfer (escSteps (comEsc 3 f)) s

/-- FSUB (R602, R609). -/
def execFsub (f : FArithForm) (s : State) : Host.Outcome State Fault Refusal := transfer (escSteps (arithEsc 4 5 f)) s

/-- FSUBR (R602, R609). -/
def execFsubr (f : FArithForm) (s : State) : Host.Outcome State Fault Refusal := transfer (escSteps (arithEsc 5 4 f)) s

/-- FDIV (R602, R609). -/
def execFdiv (f : FArithForm) (s : State) : Host.Outcome State Fault Refusal := transfer (escSteps (arithEsc 6 7 f)) s

/-- FDIVR (R602, R609). -/
def execFdivr (f : FArithForm) (s : State) : Host.Outcome State Fault Refusal := transfer (escSteps (arithEsc 7 6 f)) s

/-- FLD (R602, R609). -/
def execFld (f : FLoadForm) (s : State) : Host.Outcome State Fault Refusal := transfer (escSteps (fldEsc f)) s

/-- FST (R602, R609). -/
def execFst (f : FStoreForm) (s : State) : Host.Outcome State Fault Refusal := transfer (escSteps (fstEsc f)) s

/-- FSTP (R602, R609). -/
def execFstp (f : FLoadForm) (s : State) : Host.Outcome State Fault Refusal := transfer (escSteps (fstpEsc f)) s

/-- FLDENV (R602, R609). -/
def execFldenv (m : MemOp) (s : State) : Host.Outcome State Fault Refusal :=
  transfer (escSteps (controlEsc (escLoad 1 4 m .environment))) s

/-- FLDCW (R602, R609). -/
def execFldcw (m : MemOp) (s : State) : Host.Outcome State Fault Refusal :=
  transfer (escSteps (controlEsc (escLoad 1 5 m (.fixed 2)))) s

/-- FNSTENV (R602, R609). -/
def execFnstenv (m : MemOp) (s : State) : Host.Outcome State Fault Refusal :=
  transfer (escSteps (noWaitEsc (escStore 1 6 m .environment))) s

/-- FNSTCW (R602, R609). -/
def execFnstcw (m : MemOp) (s : State) : Host.Outcome State Fault Refusal :=
  transfer (escSteps (noWaitEsc (escStore 1 7 m (.fixed 2)))) s

/-- FXCH (R602, R609). -/
def execFxch (i : Fin 8) (s : State) : Host.Outcome State Fault Refusal := transfer (escSteps (escReg 1 1 i)) s

/-- FNOP (R602, R609). -/
def execFnop (i : Fin 8) (s : State) : Host.Outcome State Fault Refusal := transfer (escSteps (escReg 1 2 i)) s

/-- ESC D9 D8+i (R602, R609). -/
def execEscD9D8 (i : Fin 8) (s : State) : Host.Outcome State Fault Refusal := transfer (escSteps (escReg 1 3 i)) s

/-- FCHS FABS FTST FXAM (R602, R609). -/
def execFchsGroup (i : Fin 8) (s : State) : Host.Outcome State Fault Refusal := transfer (escSteps (escReg 1 4 i)) s

/-- FLD1 FLDL2T FLDL2E FLDPI FLDLG2 FLDLN2 FLDZ (R602, R609). -/
def execFld1Group (i : Fin 8) (s : State) : Host.Outcome State Fault Refusal := transfer (escSteps (escReg 1 5 i)) s

/-- F2XM1 FYL2X FPTAN FPATAN FXTRACT FPREM1 FDECSTP FINCSTP (R602, R609). -/
def execF2xm1Group (i : Fin 8) (s : State) : Host.Outcome State Fault Refusal := transfer (escSteps (escReg 1 6 i)) s

/-- FPREM FYL2XP1 FSQRT FSINCOS FRNDINT FSCALE FSIN FCOS (R602, R609). -/
def execFpremGroup (i : Fin 8) (s : State) : Host.Outcome State Fault Refusal := transfer (escSteps (escReg 1 7 i)) s

/-- FIADD (R602, R609). -/
def execFiadd (f : FIntForm) (s : State) : Host.Outcome State Fault Refusal := transfer (escSteps (intEsc 0 f)) s

/-- FIMUL (R602, R609). -/
def execFimul (f : FIntForm) (s : State) : Host.Outcome State Fault Refusal := transfer (escSteps (intEsc 1 f)) s

/-- FICOM (R602, R609). -/
def execFicom (f : FIntForm) (s : State) : Host.Outcome State Fault Refusal := transfer (escSteps (intEsc 2 f)) s

/-- FICOMP (R602, R609). -/
def execFicomp (f : FIntForm) (s : State) : Host.Outcome State Fault Refusal := transfer (escSteps (intEsc 3 f)) s

/-- FISUB (R602, R609). -/
def execFisub (f : FIntForm) (s : State) : Host.Outcome State Fault Refusal := transfer (escSteps (intEsc 4 f)) s

/-- FISUBR (R602, R609). -/
def execFisubr (f : FIntForm) (s : State) : Host.Outcome State Fault Refusal := transfer (escSteps (intEsc 5 f)) s

/-- FIDIV (R602, R609). -/
def execFidiv (f : FIntForm) (s : State) : Host.Outcome State Fault Refusal := transfer (escSteps (intEsc 6 f)) s

/-- FIDIVR (R602, R609). -/
def execFidivr (f : FIntForm) (s : State) : Host.Outcome State Fault Refusal := transfer (escSteps (intEsc 7 f)) s

/-- ESC DA C0+i (R602, R609). -/
def execEscDaC0 (i : Fin 8) (s : State) : Host.Outcome State Fault Refusal := transfer (escSteps (escReg 2 0 i)) s

/-- ESC DA C8+i (R602, R609). -/
def execEscDaC8 (i : Fin 8) (s : State) : Host.Outcome State Fault Refusal := transfer (escSteps (escReg 2 1 i)) s

/-- ESC DA D0+i (R602, R609). -/
def execEscDaD0 (i : Fin 8) (s : State) : Host.Outcome State Fault Refusal := transfer (escSteps (escReg 2 2 i)) s

/-- ESC DA D8+i (R602, R609). -/
def execEscDaD8 (i : Fin 8) (s : State) : Host.Outcome State Fault Refusal := transfer (escSteps (escReg 2 3 i)) s

/-- ESC DA E0+i (R602, R609). -/
def execEscDaE0 (i : Fin 8) (s : State) : Host.Outcome State Fault Refusal := transfer (escSteps (escReg 2 4 i)) s

/-- FUCOMPP (R602, R609). -/
def execFucompp (i : Fin 8) (s : State) : Host.Outcome State Fault Refusal := transfer (escSteps (escReg 2 5 i)) s

/-- ESC DA F0+i (R602, R609). -/
def execEscDaF0 (i : Fin 8) (s : State) : Host.Outcome State Fault Refusal := transfer (escSteps (escReg 2 6 i)) s

/-- ESC DA F8+i (R602, R609). -/
def execEscDaF8 (i : Fin 8) (s : State) : Host.Outcome State Fault Refusal := transfer (escSteps (escReg 2 7 i)) s

/-- FILD (R602, R609). -/
def execFild (f : FIntLoadForm) (s : State) : Host.Outcome State Fault Refusal := transfer (escSteps (fildEsc f)) s

/-- FIST (R602, R609). -/
def execFist (f : FIntForm) (s : State) : Host.Outcome State Fault Refusal := transfer (escSteps (fistEsc f)) s

/-- FISTP (R602, R609). -/
def execFistp (f : FIntLoadForm) (s : State) : Host.Outcome State Fault Refusal := transfer (escSteps (fistpEsc f)) s

/-- ESC DB C0+i (R602, R609). -/
def execEscDbC0 (i : Fin 8) (s : State) : Host.Outcome State Fault Refusal := transfer (escSteps (escReg 3 0 i)) s

/-- ESC DB C8+i (R602, R609). -/
def execEscDbC8 (i : Fin 8) (s : State) : Host.Outcome State Fault Refusal := transfer (escSteps (escReg 3 1 i)) s

/-- ESC DB D0+i (R602, R609). -/
def execEscDbD0 (i : Fin 8) (s : State) : Host.Outcome State Fault Refusal := transfer (escSteps (escReg 3 2 i)) s

/-- ESC DB D8+i (R602, R609). -/
def execEscDbD8 (i : Fin 8) (s : State) : Host.Outcome State Fault Refusal := transfer (escSteps (escReg 3 3 i)) s

/-- FENI FDISI FNCLEX FNINIT FSETPM (R602, R609). -/
def execFeniGroup (i : Fin 8) (s : State) : Host.Outcome State Fault Refusal := transfer (escSteps (feniEsc i)) s

/-- ESC DB E8+i (R602, R609). -/
def execEscDbE8 (i : Fin 8) (s : State) : Host.Outcome State Fault Refusal := transfer (escSteps (escReg 3 5 i)) s

/-- ESC DB F0+i (R602, R609). -/
def execEscDbF0 (i : Fin 8) (s : State) : Host.Outcome State Fault Refusal := transfer (escSteps (escReg 3 6 i)) s

/-- ESC DB F8+i (R602, R609). -/
def execEscDbF8 (i : Fin 8) (s : State) : Host.Outcome State Fault Refusal := transfer (escSteps (escReg 3 7 i)) s

/-- ESC DC D0+i (R602, R609). -/
def execEscDcD0 (i : Fin 8) (s : State) : Host.Outcome State Fault Refusal := transfer (escSteps (escReg 4 2 i)) s

/-- ESC DC D8+i (R602, R609). -/
def execEscDcD8 (i : Fin 8) (s : State) : Host.Outcome State Fault Refusal := transfer (escSteps (escReg 4 3 i)) s

/-- FRSTOR (R602, R609). -/
def execFrstor (m : MemOp) (s : State) : Host.Outcome State Fault Refusal :=
  transfer (escSteps (controlEsc (escLoad 5 4 m .save))) s

/-- FNSAVE (R602, R609). -/
def execFnsave (m : MemOp) (s : State) : Host.Outcome State Fault Refusal :=
  transfer (escSteps (noWaitEsc (escStore 5 6 m .save))) s

/-- FNSTSW (R602, R609). -/
def execFnstsw (m : MemOp) (s : State) : Host.Outcome State Fault Refusal :=
  transfer (escSteps (noWaitEsc (escStore 5 7 m (.fixed 2)))) s

/-- FFREE (R602, R609). -/
def execFfree (i : Fin 8) (s : State) : Host.Outcome State Fault Refusal := transfer (escSteps (escReg 5 0 i)) s

/-- ESC DD C8+i (R602, R609). -/
def execEscDdC8 (i : Fin 8) (s : State) : Host.Outcome State Fault Refusal := transfer (escSteps (escReg 5 1 i)) s

/-- FUCOM (R602, R609). -/
def execFucom (i : Fin 8) (s : State) : Host.Outcome State Fault Refusal := transfer (escSteps (escReg 5 4 i)) s

/-- FUCOMP (R602, R609). -/
def execFucomp (i : Fin 8) (s : State) : Host.Outcome State Fault Refusal := transfer (escSteps (escReg 5 5 i)) s

/-- ESC DD F0+i (R602, R609). -/
def execEscDdF0 (i : Fin 8) (s : State) : Host.Outcome State Fault Refusal := transfer (escSteps (escReg 5 6 i)) s

/-- ESC DD F8+i (R602, R609). -/
def execEscDdF8 (i : Fin 8) (s : State) : Host.Outcome State Fault Refusal := transfer (escSteps (escReg 5 7 i)) s

/-- FADDP (R602, R609). -/
def execFaddp (i : Fin 8) (s : State) : Host.Outcome State Fault Refusal := transfer (escSteps (escReg 6 0 i)) s

/-- FMULP (R602, R609). -/
def execFmulp (i : Fin 8) (s : State) : Host.Outcome State Fault Refusal := transfer (escSteps (escReg 6 1 i)) s

/-- ESC DE D0+i (R602, R609). -/
def execEscDeD0 (i : Fin 8) (s : State) : Host.Outcome State Fault Refusal := transfer (escSteps (escReg 6 2 i)) s

/-- FCOMPP (R602, R609). -/
def execFcompp (i : Fin 8) (s : State) : Host.Outcome State Fault Refusal := transfer (escSteps (escReg 6 3 i)) s

/-- FSUBRP (R602, R609). -/
def execFsubrp (i : Fin 8) (s : State) : Host.Outcome State Fault Refusal := transfer (escSteps (escReg 6 4 i)) s

/-- FSUBP (R602, R609). -/
def execFsubp (i : Fin 8) (s : State) : Host.Outcome State Fault Refusal := transfer (escSteps (escReg 6 5 i)) s

/-- FDIVRP (R602, R609). -/
def execFdivrp (i : Fin 8) (s : State) : Host.Outcome State Fault Refusal := transfer (escSteps (escReg 6 6 i)) s

/-- FDIVP (R602, R609). -/
def execFdivp (i : Fin 8) (s : State) : Host.Outcome State Fault Refusal := transfer (escSteps (escReg 6 7 i)) s

/-- FBLD (R602, R609). -/
def execFbld (m : MemOp) (s : State) : Host.Outcome State Fault Refusal :=
  transfer (escSteps (escLoad 7 4 m (.fixed 10))) s

/-- FBSTP (R602, R609). -/
def execFbstp (m : MemOp) (s : State) : Host.Outcome State Fault Refusal :=
  transfer (escSteps (escStore 7 6 m (.fixed 10))) s

/-- ESC DF C0+i (R602, R609). -/
def execEscDfC0 (i : Fin 8) (s : State) : Host.Outcome State Fault Refusal := transfer (escSteps (escReg 7 0 i)) s

/-- ESC DF C8+i (R602, R609). -/
def execEscDfC8 (i : Fin 8) (s : State) : Host.Outcome State Fault Refusal := transfer (escSteps (escReg 7 1 i)) s

/-- ESC DF D0+i (R602, R609). -/
def execEscDfD0 (i : Fin 8) (s : State) : Host.Outcome State Fault Refusal := transfer (escSteps (escReg 7 2 i)) s

/-- ESC DF D8+i (R602, R609). -/
def execEscDfD8 (i : Fin 8) (s : State) : Host.Outcome State Fault Refusal := transfer (escSteps (escReg 7 3 i)) s

/-- FNSTSW AX (R602, R609). -/
def execFnstswAx (i : Fin 8) (s : State) : Host.Outcome State Fault Refusal := transfer (escSteps (fnstswAxEsc i)) s

/-- ESC DF E8+i (R602, R609). -/
def execEscDfE8 (i : Fin 8) (s : State) : Host.Outcome State Fault Refusal := transfer (escSteps (escReg 7 5 i)) s

/-- ESC DF F0+i (R602, R609). -/
def execEscDfF0 (i : Fin 8) (s : State) : Host.Outcome State Fault Refusal := transfer (escSteps (escReg 7 6 i)) s

/-- ESC DF F8+i (R602, R609). -/
def execEscDfF8 (i : Fin 8) (s : State) : Host.Outcome State Fault Refusal := transfer (escSteps (escReg 7 7 i)) s

end Sys2Proof.Machine
end

