-- ==== Sys2Proof/Machine/FlagControl.lean ====
section
/-!
DEFINITION. Flag control, SETcc and NOP (47_flag_misc.md R530 to R545).
-/
namespace Sys2Proof.Machine

/-- Change the flags. -/
def modifyFlags (f : EFlags → EFlags) : M Unit := modify fun s => { s with flags := f s.flags }

/-- CLC (R530). -/
def execClc (s : State) : Host.Outcome State Fault Refusal := plain (modifyFlags fun f => { f with cf := false }) s

/-- STC (R531). -/
def execStc (s : State) : Host.Outcome State Fault Refusal := plain (modifyFlags fun f => { f with cf := true }) s

/-- CMC (R532). -/
def execCmc (s : State) : Host.Outcome State Fault Refusal := plain (modifyFlags fun f => { f with cf := !f.cf }) s

/-- CLD (R534). -/
def execCld (s : State) : Host.Outcome State Fault Refusal := plain (modifyFlags fun f => { f with df := false }) s

/-- STD (R535). -/
def execStd (s : State) : Host.Outcome State Fault Refusal := plain (modifyFlags fun f => { f with df := true }) s

/-- CLI and STI may run (R536, R537): always in real mode, with IOPL = 3 in virtual-8086 mode, else with CPL <= IOPL. -/
def State.ifAllowed (s : State) : Bool :=
  s.realMode || (if s.v86 then s.flags.iopl == 3 else lvlLe s.cpl s.flags.iopl)

/-- CLI (R536). -/
def execCli (s : State) : Host.Outcome State Fault Refusal :=
  plain (do
    require0 (← get).ifAllowed 13
    modifyFlags fun f => { f with intf := false }) s

/-- STI (R537): with IF clear before, INTR is held off for one more instruction. -/
def execSti (s : State) : Host.Outcome State Fault Refusal :=
  plain (do
    require0 (← get).ifAllowed 13
    modify fun s => { s with shadow := if s.flags.intf then s.shadow else .sti }
    modifyFlags fun f => { f with intf := true }) s

/-- LAHF (R540): AH takes the low byte of EFLAGS. -/
def execLahf (s : State) : Host.Outcome State Fault Refusal :=
  plain (do putReg .w8 4 ((← get).flags.toWord.truncate 8)) s

/-- SAHF (R541): SF, ZF, AF, PF and CF from AH. -/
def execSahf (s : State) : Host.Outcome State Fault Refusal :=
  plain (do
    let ah := (← get).reg .w8 4
    modifyFlags fun f =>
      { f with sf := ah.getLsbD 7, zf := ah.getLsbD 6, af := ah.getLsbD 4, pf := ah.getLsbD 2, cf := ah.getLsbD 0 }) s

/-- NOP (R545). -/
def execNop (s : State) : Host.Outcome State Fault Refusal := plain (pure ()) s

/-- SETcc (R543). -/
def setByte (c : Cond) (rm : RM) : M Unit := do
  writeRM .w8 rm (if c.holds (← get).flags then 1 else 0)

/-- SETO (R543). -/
def execSeto (rm : RM) (s : State) : Host.Outcome State Fault Refusal := plain (setByte .o rm) s

/-- SETNO (R543). -/
def execSetno (rm : RM) (s : State) : Host.Outcome State Fault Refusal := plain (setByte .no rm) s

/-- SETB (R543). -/
def execSetb (rm : RM) (s : State) : Host.Outcome State Fault Refusal := plain (setByte .b rm) s

/-- SETAE (R543). -/
def execSetae (rm : RM) (s : State) : Host.Outcome State Fault Refusal := plain (setByte .ae rm) s

/-- SETE (R543). -/
def execSete (rm : RM) (s : State) : Host.Outcome State Fault Refusal := plain (setByte .e rm) s

/-- SETNE (R543). -/
def execSetne (rm : RM) (s : State) : Host.Outcome State Fault Refusal := plain (setByte .ne rm) s

/-- SETBE (R543). -/
def execSetbe (rm : RM) (s : State) : Host.Outcome State Fault Refusal := plain (setByte .be rm) s

/-- SETA (R543). -/
def execSeta (rm : RM) (s : State) : Host.Outcome State Fault Refusal := plain (setByte .a rm) s

/-- SETS (R543). -/
def execSets (rm : RM) (s : State) : Host.Outcome State Fault Refusal := plain (setByte .s rm) s

/-- SETNS (R543). -/
def execSetns (rm : RM) (s : State) : Host.Outcome State Fault Refusal := plain (setByte .ns rm) s

/-- SETP (R543). -/
def execSetp (rm : RM) (s : State) : Host.Outcome State Fault Refusal := plain (setByte .p rm) s

/-- SETNP (R543). -/
def execSetnp (rm : RM) (s : State) : Host.Outcome State Fault Refusal := plain (setByte .np rm) s

/-- SETL (R543). -/
def execSetl (rm : RM) (s : State) : Host.Outcome State Fault Refusal := plain (setByte .l rm) s

/-- SETGE (R543). -/
def execSetge (rm : RM) (s : State) : Host.Outcome State Fault Refusal := plain (setByte .ge rm) s

/-- SETLE (R543). -/
def execSetle (rm : RM) (s : State) : Host.Outcome State Fault Refusal := plain (setByte .le rm) s

/-- SETG (R543). -/
def execSetg (rm : RM) (s : State) : Host.Outcome State Fault Refusal := plain (setByte .g rm) s

end Sys2Proof.Machine
end

