-- ==== Sys2Proof/Machine/Logic.lean ====
section
/-!
DEFINITION. Logic, shifts, rotates and double shifts (41_logic_shift_rotate.md R340 to R369).
-/
namespace Sys2Proof.Machine

/-- AND (R341). -/
def execAnd (f : AluForm) (s : State) : Host.Outcome State Fault Refusal := withLock (aluToMem f) (aluForm .and f) s

/-- OR (R342). -/
def execOr (f : AluForm) (s : State) : Host.Outcome State Fault Refusal := withLock (aluToMem f) (aluForm .or f) s

/-- XOR (R343). -/
def execXor (f : AluForm) (s : State) : Host.Outcome State Fault Refusal := withLock (aluToMem f) (aluForm .xor f) s

/-- NOT (R344): no flag is written. -/
def execNot (f : UnaryForm) (s : State) : Host.Outcome State Fault Refusal :=
  withLock (isMem (unaryOperand f)) (do modifyRM (unaryWidth f (← get).osz) (unaryOperand f) fun a => return ~~~a) s

/-- TEST of two operands (R345): only the flags are written. -/
def testFlags (w : Width) (a b : BitVec w.bits) : M Unit := do
  let s ← get
  putFlags (logicFlags s.freeBit (a &&& b) s.flags).flags

/-- The forms of TEST (R345). -/
def testForm (f : TestForm) : M Unit := do
  let s ← get
  let v := s.osz.width
  match f with
  | .ebGb rm r => testFlags .w8 (← readRM .w8 rm) (s.reg .w8 r)
  | .evGv rm r => testFlags v (← readRM v rm) (s.reg v r)
  | .alIb imm => testFlags .w8 (s.reg .w8 eax) imm
  | .eaxIv imm => testFlags v (s.reg v eax) (immAs v imm)
  | .ebIb rm imm => testFlags .w8 (← readRM .w8 rm) imm
  | .evIv rm imm => testFlags v (← readRM v rm) (immAs v imm)

/-- TEST (R345). -/
def execTest (f : TestForm) (s : State) : Host.Outcome State Fault Refusal := plain (testForm f) s

/-! ## Shifts and rotates -/

/-- A shift or rotate of an r/m operand by the masked count: with a count of 0 the operand is checked and read, and
nothing is written (R360, R361). -/
def shiftRM (op : ShiftOp) (w : Width) (rm : RM) (count : Byte) : M Unit := do
  if maskCount count = 0 then
    let l := (← get).locate rm
    checkLoc w l
    let _ ← readLoc w l
  else
    modifyRM w rm fun d => do
      let s ← get
      let r := shiftCompute op s.freeBit d (maskCount count) s.flags
      putFlags r.flags
      return r.value

/-- The count register CL. -/
def State.cl (s : State) : Byte := s.reg .w8 ecx

/-- The forms of group 2 (R360). -/
def shiftForm (op : ShiftOp) (f : ShiftForm) : M Unit := do
  let s ← get
  let v := s.osz.width
  match f with
  | .ebIb rm imm => shiftRM op .w8 rm imm
  | .evIb rm imm => shiftRM op v rm imm
  | .eb1 rm => shiftRM op .w8 rm 1
  | .ev1 rm => shiftRM op v rm 1
  | .ebCl rm => shiftRM op .w8 rm s.cl
  | .evCl rm => shiftRM op v rm s.cl

/-- ROL (R364). -/
def execRol (f : ShiftForm) (s : State) : Host.Outcome State Fault Refusal := plain (shiftForm .rol f) s

/-- ROR (R365). -/
def execRor (f : ShiftForm) (s : State) : Host.Outcome State Fault Refusal := plain (shiftForm .ror f) s

/-- RCL (R366). -/
def execRcl (f : ShiftForm) (s : State) : Host.Outcome State Fault Refusal := plain (shiftForm .rcl f) s

/-- RCR (R367). -/
def execRcr (f : ShiftForm) (s : State) : Host.Outcome State Fault Refusal := plain (shiftForm .rcr f) s

/-- SHL (R361). -/
def execShl (f : ShiftForm) (s : State) : Host.Outcome State Fault Refusal := plain (shiftForm .shl f) s

/-- SHR (R362). -/
def execShr (f : ShiftForm) (s : State) : Host.Outcome State Fault Refusal := plain (shiftForm .shr f) s

/-- SAR (R363). -/
def execSar (f : ShiftForm) (s : State) : Host.Outcome State Fault Refusal := plain (shiftForm .sar f) s

/-! ## Double shifts -/

/-- The slot of the undefined result of a double shift (U23). -/
def shdSlot : Nat := 0

/-- A double shift (R368, R369): with a masked count of 0 nothing is done. -/
def doubleShiftRM (left : Bool) (rm : RM) (r : Fin 8) (count : Byte) : M Unit := do
  let w := (← get).osz.width
  if maskCount count = 0 then pure ()
  else
    modifyRM w rm fun d => do
      let s ← get
      let v := (s.freeWord shdSlot).truncate w.bits
      let res := doubleShift left s.freeBit v d (s.reg w r) (maskCount count) s.flags
      putFlags res.flags
      return res.value

/-- The forms of SHLD and SHRD. -/
def shdForm (left : Bool) (f : ShdForm) : M Unit := do
  match f with
  | .evGvIb rm r imm => doubleShiftRM left rm r imm
  | .evGvCl rm r => doubleShiftRM left rm r (← get).cl

/-- SHLD (R368). -/
def execShld (f : ShdForm) (s : State) : Host.Outcome State Fault Refusal := plain (shdForm true f) s

/-- SHRD (R369). -/
def execShrd (f : ShdForm) (s : State) : Host.Outcome State Fault Refusal := plain (shdForm false f) s

end Sys2Proof.Machine
end

