-- ==== Sys2Proof/Machine/Prefix.lean ====
section
/-!
DEFINITION. The prefix bytes (30_encoding.md R254, R278). Reading one is a step that records it for the instruction that
follows; EIP stays at the first of them (log entry 3).
-/
namespace Sys2Proof.Machine

/-- `s` with one more prefix byte read. -/
def State.addPrefix (s : State) (f : Pfx → Pfx) : State :=
  { s with pfx := { f s.pfx with count := s.pfx.count + 1 } }

/-- ES: segment override; the last one given is used. -/
def execPrefixEs (s : State) : Host.Outcome State Fault Refusal :=
  .next (s.addPrefix fun p => { p with seg := some .es })

/-- CS: segment override; the last one given is used. -/
def execPrefixCs (s : State) : Host.Outcome State Fault Refusal :=
  .next (s.addPrefix fun p => { p with seg := some .cs })

/-- SS: segment override; the last one given is used. -/
def execPrefixSs (s : State) : Host.Outcome State Fault Refusal :=
  .next (s.addPrefix fun p => { p with seg := some .ss })

/-- DS: segment override; the last one given is used. -/
def execPrefixDs (s : State) : Host.Outcome State Fault Refusal :=
  .next (s.addPrefix fun p => { p with seg := some .ds })

/-- FS: segment override; the last one given is used. -/
def execPrefixFs (s : State) : Host.Outcome State Fault Refusal :=
  .next (s.addPrefix fun p => { p with seg := some .fs })

/-- GS: segment override; the last one given is used. -/
def execPrefixGs (s : State) : Host.Outcome State Fault Refusal :=
  .next (s.addPrefix fun p => { p with seg := some .gs })

/-- 66: operand size; giving it twice toggles once. -/
def execPrefixOpsize (s : State) : Host.Outcome State Fault Refusal :=
  .next (s.addPrefix fun p => { p with o66 := true })

/-- 67: address size; giving it twice toggles once. -/
def execPrefixAdsize (s : State) : Host.Outcome State Fault Refusal :=
  .next (s.addPrefix fun p => { p with a67 := true })

/-- F0: LOCK (R101). -/
def execPrefixLock (s : State) : Host.Outcome State Fault Refusal :=
  .next (s.addPrefix fun p => { p with lock := true })

/-- F2: REPNE; the last of F2 and F3 is used. -/
def execPrefixRepne (s : State) : Host.Outcome State Fault Refusal :=
  .next (s.addPrefix fun p => { p with rep := some .repne })

/-- F3: REP, REPE; the last of F2 and F3 is used. -/
def execPrefixRep (s : State) : Host.Outcome State Fault Refusal :=
  .next (s.addPrefix fun p => { p with rep := some .repe })

end Sys2Proof.Machine
end

