-- ==== Sys2Proof/Machine/Strings.lean ====
section
/-!
DEFINITION. String instructions and the repeat prefixes (43_string.md R420 to R441). One element of a repeated
instruction is one step of the machine (R441).
-/
namespace Sys2Proof.Machine

/-- The element width of the byte and the osz forms (R420). -/
def State.elementWidth (s : State) (byte : Bool) : Width := if byte then .w8 else s.osz.width

/-- `Adv` of index register `i` by one element (R420). -/
def advance (w : Width) (i : Fin 8) : M Unit :=
  modify fun s =>
    let v := s.addrReg s.asz i
    let step := BitVec.ofNat 32 w.bytes
    s.setAddrReg s.asz i (if s.flags.df then v - step else v + step)

/-- The source element: DS or the override, at SI or ESI (R420). -/
def readSource (w : Width) : M (BitVec w.bits) := do
  let s ← get
  lread w (s.segOr .ds) (s.addrReg s.asz esi)

/-- The destination element as an operand of a comparison: ES at DI or EDI (R420). -/
def readDest (w : Width) : M (BitVec w.bits) := do
  let s ← get
  lread w .es (s.addrReg s.asz edi)

/-- Store the destination element (R420). -/
def writeDest (w : Width) (v : BitVec w.bits) : M Unit := do
  let s ← get
  lwrite w .es (s.addrReg s.asz edi) v

/-- The flags of `Sub(n, a, b, 0)` (R422). -/
def compareFlags (w : Width) (a b : BitVec w.bits) : M Unit := do
  let s ← get
  putFlags (subFlags a b false s.flags).flags

/-- One element of MOVS (R421). -/
def movsElement (byte : Bool) : M Unit := do
  let w := (← get).elementWidth byte
  let t ← readSource w
  writeDest w t
  advance w esi
  advance w edi

/-- One element of CMPS (R422). -/
def cmpsElement (byte : Bool) : M Unit := do
  let w := (← get).elementWidth byte
  let a ← readSource w
  let b ← readDest w
  compareFlags w a b
  advance w esi
  advance w edi

/-- One element of SCAS (R423). -/
def scasElement (byte : Bool) : M Unit := do
  let w := (← get).elementWidth byte
  let b ← readDest w
  compareFlags w ((← get).reg w eax) b
  advance w edi

/-- One element of LODS (R424). -/
def lodsElement (byte : Bool) : M Unit := do
  let w := (← get).elementWidth byte
  putReg w eax (← readSource w)
  advance w esi

/-- One element of STOS (R425). -/
def stosElement (byte : Bool) : M Unit := do
  let w := (← get).elementWidth byte
  writeDest w ((← get).reg w eax)
  advance w edi

/-- One element of INS (R430): the destination is checked before the port is read, and not again (D39). -/
def insElement (byte : Bool) : M Unit := do
  let s ← get
  let w := s.elementWidth byte
  ioCheck (s.reg .w16 edx) w.bytes
  let off := s.addrReg s.asz edi
  let as ← accessAddrs .es off w.bytes true
  let t ← ioRead w (s.reg .w16 edx)
  writeChecked 4 (linear s.es off) as (bytesOf w t)
  advance w edi

/-- One element of OUTS (R431). -/
def outsElement (byte : Bool) : M Unit := do
  let s ← get
  let w := s.elementWidth byte
  ioCheck (s.reg .w16 edx) w.bytes
  let t ← readSource w
  ioWrite w (s.reg .w16 edx) t
  advance w esi

/-- The repeat count: CX or ECX by asz (R440). -/
def State.repCount (s : State) : Word32 := s.addrReg s.asz ecx

/-- Whether ZF ends the repetition of a comparing instruction (R440). -/
def repEnds (rep : Rep) (zf : Bool) : Bool :=
  match rep with
  | .repe => !zf
  | .repne => zf

/-- A string instruction with its repeat prefix (R440): one element of it, and whether it goes on. `compares` tells CMPS
and SCAS from the others, before which F2 has no defined meaning (U7); `permit` is the privilege check, which comes before
anything is done, whatever the count (R643 (f), R686). -/
def stringSteps (compares : Bool) (permit element : M Unit) : M Retire := do
  let s ← get
  require (!s.pfx.lock) 6
  if !compares && s.pfx.rep == some .repne then refuse .repeatPrefix
  permit
  match s.pfx.rep with
  | none =>
    element
    return .next
  | some rep =>
    if s.repCount = 0 then return .next
    element
    modify fun s => s.setAddrReg s.asz ecx (s.repCount - 1)
    let s ← get
    if s.repCount = 0 || (compares && repEnds rep s.flags.zf) then return .next
    return .again

/-- A string operation on memory and registers: it needs no privilege. -/
def memString (compares : Bool) (element : M Unit) : M Retire := stringSteps compares (pure ()) element

/-- INS and OUTS: the privilege of input and output comes first (R584). -/
def portString (element : M Unit) : M Retire := stringSteps false ioPrivilege element

/-- MOVSB (R421). -/
def execMovsb (s : State) : Host.Outcome State Fault Refusal := runSteps (memString false (movsElement true)) s

/-- MOVSW, MOVSD (R421). -/
def execMovswD (s : State) : Host.Outcome State Fault Refusal := runSteps (memString false (movsElement false)) s

/-- CMPSB (R422). -/
def execCmpsb (s : State) : Host.Outcome State Fault Refusal := runSteps (memString true (cmpsElement true)) s

/-- CMPSW, CMPSD (R422). -/
def execCmpswD (s : State) : Host.Outcome State Fault Refusal := runSteps (memString true (cmpsElement false)) s

/-- SCASB (R423). -/
def execScasb (s : State) : Host.Outcome State Fault Refusal := runSteps (memString true (scasElement true)) s

/-- SCASW, SCASD (R423). -/
def execScaswD (s : State) : Host.Outcome State Fault Refusal := runSteps (memString true (scasElement false)) s

/-- LODSB (R424). -/
def execLodsb (s : State) : Host.Outcome State Fault Refusal := runSteps (memString false (lodsElement true)) s

/-- LODSW, LODSD (R424). -/
def execLodswD (s : State) : Host.Outcome State Fault Refusal := runSteps (memString false (lodsElement false)) s

/-- STOSB (R425). -/
def execStosb (s : State) : Host.Outcome State Fault Refusal := runSteps (memString false (stosElement true)) s

/-- STOSW, STOSD (R425). -/
def execStoswD (s : State) : Host.Outcome State Fault Refusal := runSteps (memString false (stosElement false)) s

/-- INSB (R430). -/
def execInsb (s : State) : Host.Outcome State Fault Refusal := runSteps (portString (insElement true)) s

/-- INSW, INSD (R430). -/
def execInswD (s : State) : Host.Outcome State Fault Refusal := runSteps (portString (insElement false)) s

/-- OUTSB (R431). -/
def execOutsb (s : State) : Host.Outcome State Fault Refusal := runSteps (portString (outsElement true)) s

/-- OUTSW, OUTSD (R431). -/
def execOutswD (s : State) : Host.Outcome State Fault Refusal := runSteps (portString (outsElement false)) s

end Sys2Proof.Machine
end

