-- ==== Sys2Proof/Machine/Dispatch.lean ====
section
/-!
DEFINITION. The dispatch: one arm per constructor of Instr, each one call of the instruction's meaning.
-/
namespace Sys2Proof.Machine

def exec (i : Instr) (s : State) : Host.Outcome State Fault Refusal :=
  match i with
  | .add f => Sys2Proof.Machine.execAdd f s
  | .or f => Sys2Proof.Machine.execOr f s
  | .adc f => Sys2Proof.Machine.execAdc f s
  | .sbb f => Sys2Proof.Machine.execSbb f s
  | .and f => Sys2Proof.Machine.execAnd f s
  | .sub f => Sys2Proof.Machine.execSub f s
  | .xor f => Sys2Proof.Machine.execXor f s
  | .cmp f => Sys2Proof.Machine.execCmp f s
  | .pushEs => Sys2Proof.Machine.execPushEs s
  | .popEs => Sys2Proof.Machine.execPopEs s
  | .pushCs => Sys2Proof.Machine.execPushCs s
  | .pushSs => Sys2Proof.Machine.execPushSs s
  | .popSs => Sys2Proof.Machine.execPopSs s
  | .pushDs => Sys2Proof.Machine.execPushDs s
  | .popDs => Sys2Proof.Machine.execPopDs s
  | .daa => Sys2Proof.Machine.execDaa s
  | .das => Sys2Proof.Machine.execDas s
  | .aaa => Sys2Proof.Machine.execAaa s
  | .aas => Sys2Proof.Machine.execAas s
  | .inc f => Sys2Proof.Machine.execInc f s
  | .dec f => Sys2Proof.Machine.execDec f s
  | .push f => Sys2Proof.Machine.execPush f s
  | .pop f => Sys2Proof.Machine.execPop f s
  | .pusha => Sys2Proof.Machine.execPusha s
  | .popa => Sys2Proof.Machine.execPopa s
  | .bound r m => Sys2Proof.Machine.execBound r m s
  | .arpl rm r => Sys2Proof.Machine.execArpl rm r s
  | .imul f => Sys2Proof.Machine.execImul f s
  | .insb => Sys2Proof.Machine.execInsb s
  | .inswD => Sys2Proof.Machine.execInswD s
  | .outsb => Sys2Proof.Machine.execOutsb s
  | .outswD => Sys2Proof.Machine.execOutswD s
  | .jo f => Sys2Proof.Machine.execJo f s
  | .jno f => Sys2Proof.Machine.execJno f s
  | .jb f => Sys2Proof.Machine.execJb f s
  | .jae f => Sys2Proof.Machine.execJae f s
  | .je f => Sys2Proof.Machine.execJe f s
  | .jne f => Sys2Proof.Machine.execJne f s
  | .jbe f => Sys2Proof.Machine.execJbe f s
  | .ja f => Sys2Proof.Machine.execJa f s
  | .js f => Sys2Proof.Machine.execJs f s
  | .jns f => Sys2Proof.Machine.execJns f s
  | .jp f => Sys2Proof.Machine.execJp f s
  | .jnp f => Sys2Proof.Machine.execJnp f s
  | .jl f => Sys2Proof.Machine.execJl f s
  | .jge f => Sys2Proof.Machine.execJge f s
  | .jle f => Sys2Proof.Machine.execJle f s
  | .jg f => Sys2Proof.Machine.execJg f s
  | .test f => Sys2Proof.Machine.execTest f s
  | .xchg f => Sys2Proof.Machine.execXchg f s
  | .mov f => Sys2Proof.Machine.execMov f s
  | .lea r m => Sys2Proof.Machine.execLea r m s
  | .nop => Sys2Proof.Machine.execNop s
  | .cbwCwde => Sys2Proof.Machine.execCbwCwde s
  | .cwdCdq => Sys2Proof.Machine.execCwdCdq s
  | .call f => Sys2Proof.Machine.execCall f s
  | .wait => Sys2Proof.Machine.execWait s
  | .pushf => Sys2Proof.Machine.execPushf s
  | .popf => Sys2Proof.Machine.execPopf s
  | .sahf => Sys2Proof.Machine.execSahf s
  | .lahf => Sys2Proof.Machine.execLahf s
  | .movsb => Sys2Proof.Machine.execMovsb s
  | .movswD => Sys2Proof.Machine.execMovswD s
  | .cmpsb => Sys2Proof.Machine.execCmpsb s
  | .cmpswD => Sys2Proof.Machine.execCmpswD s
  | .stosb => Sys2Proof.Machine.execStosb s
  | .stoswD => Sys2Proof.Machine.execStoswD s
  | .lodsb => Sys2Proof.Machine.execLodsb s
  | .lodswD => Sys2Proof.Machine.execLodswD s
  | .scasb => Sys2Proof.Machine.execScasb s
  | .scaswD => Sys2Proof.Machine.execScaswD s
  | .rol f => Sys2Proof.Machine.execRol f s
  | .ror f => Sys2Proof.Machine.execRor f s
  | .rcl f => Sys2Proof.Machine.execRcl f s
  | .rcr f => Sys2Proof.Machine.execRcr f s
  | .shl f => Sys2Proof.Machine.execShl f s
  | .shr f => Sys2Proof.Machine.execShr f s
  | .sar f => Sys2Proof.Machine.execSar f s
  | .ret f => Sys2Proof.Machine.execRet f s
  | .les r m => Sys2Proof.Machine.execLes r m s
  | .lds r m => Sys2Proof.Machine.execLds r m s
  | .enter imm imm2 => Sys2Proof.Machine.execEnter imm imm2 s
  | .leave => Sys2Proof.Machine.execLeave s
  | .int3 => Sys2Proof.Machine.execInt3 s
  | .int imm => Sys2Proof.Machine.execInt imm s
  | .into => Sys2Proof.Machine.execInto s
  | .iret => Sys2Proof.Machine.execIret s
  | .aam imm => Sys2Proof.Machine.execAam imm s
  | .aad imm => Sys2Proof.Machine.execAad imm s
  | .xlat => Sys2Proof.Machine.execXlat s
  | .fadd f => Sys2Proof.Machine.execFadd f s
  | .fmul f => Sys2Proof.Machine.execFmul f s
  | .fcom f => Sys2Proof.Machine.execFcom f s
  | .fcomp f => Sys2Proof.Machine.execFcomp f s
  | .fsub f => Sys2Proof.Machine.execFsub f s
  | .fsubr f => Sys2Proof.Machine.execFsubr f s
  | .fdiv f => Sys2Proof.Machine.execFdiv f s
  | .fdivr f => Sys2Proof.Machine.execFdivr f s
  | .fld f => Sys2Proof.Machine.execFld f s
  | .escReserved f => Sys2Proof.Machine.execEscReserved f s
  | .fst f => Sys2Proof.Machine.execFst f s
  | .fstp f => Sys2Proof.Machine.execFstp f s
  | .fldenv m => Sys2Proof.Machine.execFldenv m s
  | .fldcw m => Sys2Proof.Machine.execFldcw m s
  | .fnstenv m => Sys2Proof.Machine.execFnstenv m s
  | .fnstcw m => Sys2Proof.Machine.execFnstcw m s
  | .fxch st => Sys2Proof.Machine.execFxch st s
  | .fnop st => Sys2Proof.Machine.execFnop st s
  | .escD9D8 st => Sys2Proof.Machine.execEscD9D8 st s
  | .fchsGroup st => Sys2Proof.Machine.execFchsGroup st s
  | .fld1Group st => Sys2Proof.Machine.execFld1Group st s
  | .f2xm1Group st => Sys2Proof.Machine.execF2xm1Group st s
  | .fpremGroup st => Sys2Proof.Machine.execFpremGroup st s
  | .fiadd f => Sys2Proof.Machine.execFiadd f s
  | .fimul f => Sys2Proof.Machine.execFimul f s
  | .ficom f => Sys2Proof.Machine.execFicom f s
  | .ficomp f => Sys2Proof.Machine.execFicomp f s
  | .fisub f => Sys2Proof.Machine.execFisub f s
  | .fisubr f => Sys2Proof.Machine.execFisubr f s
  | .fidiv f => Sys2Proof.Machine.execFidiv f s
  | .fidivr f => Sys2Proof.Machine.execFidivr f s
  | .escDaC0 st => Sys2Proof.Machine.execEscDaC0 st s
  | .escDaC8 st => Sys2Proof.Machine.execEscDaC8 st s
  | .escDaD0 st => Sys2Proof.Machine.execEscDaD0 st s
  | .escDaD8 st => Sys2Proof.Machine.execEscDaD8 st s
  | .escDaE0 st => Sys2Proof.Machine.execEscDaE0 st s
  | .fucompp st => Sys2Proof.Machine.execFucompp st s
  | .escDaF0 st => Sys2Proof.Machine.execEscDaF0 st s
  | .escDaF8 st => Sys2Proof.Machine.execEscDaF8 st s
  | .fild f => Sys2Proof.Machine.execFild f s
  | .fist f => Sys2Proof.Machine.execFist f s
  | .fistp f => Sys2Proof.Machine.execFistp f s
  | .escDbC0 st => Sys2Proof.Machine.execEscDbC0 st s
  | .escDbC8 st => Sys2Proof.Machine.execEscDbC8 st s
  | .escDbD0 st => Sys2Proof.Machine.execEscDbD0 st s
  | .escDbD8 st => Sys2Proof.Machine.execEscDbD8 st s
  | .feniGroup st => Sys2Proof.Machine.execFeniGroup st s
  | .escDbE8 st => Sys2Proof.Machine.execEscDbE8 st s
  | .escDbF0 st => Sys2Proof.Machine.execEscDbF0 st s
  | .escDbF8 st => Sys2Proof.Machine.execEscDbF8 st s
  | .escDcD0 st => Sys2Proof.Machine.execEscDcD0 st s
  | .escDcD8 st => Sys2Proof.Machine.execEscDcD8 st s
  | .frstor m => Sys2Proof.Machine.execFrstor m s
  | .fnsave m => Sys2Proof.Machine.execFnsave m s
  | .fnstsw m => Sys2Proof.Machine.execFnstsw m s
  | .ffree st => Sys2Proof.Machine.execFfree st s
  | .escDdC8 st => Sys2Proof.Machine.execEscDdC8 st s
  | .fucom st => Sys2Proof.Machine.execFucom st s
  | .fucomp st => Sys2Proof.Machine.execFucomp st s
  | .escDdF0 st => Sys2Proof.Machine.execEscDdF0 st s
  | .escDdF8 st => Sys2Proof.Machine.execEscDdF8 st s
  | .faddp st => Sys2Proof.Machine.execFaddp st s
  | .fmulp st => Sys2Proof.Machine.execFmulp st s
  | .escDeD0 st => Sys2Proof.Machine.execEscDeD0 st s
  | .fcompp st => Sys2Proof.Machine.execFcompp st s
  | .fsubrp st => Sys2Proof.Machine.execFsubrp st s
  | .fsubp st => Sys2Proof.Machine.execFsubp st s
  | .fdivrp st => Sys2Proof.Machine.execFdivrp st s
  | .fdivp st => Sys2Proof.Machine.execFdivp st s
  | .fbld m => Sys2Proof.Machine.execFbld m s
  | .fbstp m => Sys2Proof.Machine.execFbstp m s
  | .escDfC0 st => Sys2Proof.Machine.execEscDfC0 st s
  | .escDfC8 st => Sys2Proof.Machine.execEscDfC8 st s
  | .escDfD0 st => Sys2Proof.Machine.execEscDfD0 st s
  | .escDfD8 st => Sys2Proof.Machine.execEscDfD8 st s
  | .fnstswAx st => Sys2Proof.Machine.execFnstswAx st s
  | .escDfE8 st => Sys2Proof.Machine.execEscDfE8 st s
  | .escDfF0 st => Sys2Proof.Machine.execEscDfF0 st s
  | .escDfF8 st => Sys2Proof.Machine.execEscDfF8 st s
  | .loopne imm => Sys2Proof.Machine.execLoopne imm s
  | .loope imm => Sys2Proof.Machine.execLoope imm s
  | .loop imm => Sys2Proof.Machine.execLoop imm s
  | .jcxz imm => Sys2Proof.Machine.execJcxz imm s
  | .inPort f => Sys2Proof.Machine.execInPort f s
  | .outPort f => Sys2Proof.Machine.execOutPort f s
  | .jmp f => Sys2Proof.Machine.execJmp f s
  | .hlt => Sys2Proof.Machine.execHlt s
  | .cmc => Sys2Proof.Machine.execCmc s
  | .not f => Sys2Proof.Machine.execNot f s
  | .neg f => Sys2Proof.Machine.execNeg f s
  | .mul f => Sys2Proof.Machine.execMul f s
  | .div f => Sys2Proof.Machine.execDiv f s
  | .idiv f => Sys2Proof.Machine.execIdiv f s
  | .clc => Sys2Proof.Machine.execClc s
  | .stc => Sys2Proof.Machine.execStc s
  | .cli => Sys2Proof.Machine.execCli s
  | .sti => Sys2Proof.Machine.execSti s
  | .cld => Sys2Proof.Machine.execCld s
  | .std => Sys2Proof.Machine.execStd s
  | .sldt rm => Sys2Proof.Machine.execSldt rm s
  | .str rm => Sys2Proof.Machine.execStr rm s
  | .lldt rm => Sys2Proof.Machine.execLldt rm s
  | .ltr rm => Sys2Proof.Machine.execLtr rm s
  | .verr rm => Sys2Proof.Machine.execVerr rm s
  | .verw rm => Sys2Proof.Machine.execVerw rm s
  | .sgdt m => Sys2Proof.Machine.execSgdt m s
  | .sidt m => Sys2Proof.Machine.execSidt m s
  | .lgdt m => Sys2Proof.Machine.execLgdt m s
  | .lidt m => Sys2Proof.Machine.execLidt m s
  | .smsw rm => Sys2Proof.Machine.execSmsw rm s
  | .lmsw rm => Sys2Proof.Machine.execLmsw rm s
  | .lar r rm => Sys2Proof.Machine.execLar r rm s
  | .lsl r rm => Sys2Proof.Machine.execLsl r rm s
  | .clts => Sys2Proof.Machine.execClts s
  | .seto rm => Sys2Proof.Machine.execSeto rm s
  | .setno rm => Sys2Proof.Machine.execSetno rm s
  | .setb rm => Sys2Proof.Machine.execSetb rm s
  | .setae rm => Sys2Proof.Machine.execSetae rm s
  | .sete rm => Sys2Proof.Machine.execSete rm s
  | .setne rm => Sys2Proof.Machine.execSetne rm s
  | .setbe rm => Sys2Proof.Machine.execSetbe rm s
  | .seta rm => Sys2Proof.Machine.execSeta rm s
  | .sets rm => Sys2Proof.Machine.execSets rm s
  | .setns rm => Sys2Proof.Machine.execSetns rm s
  | .setp rm => Sys2Proof.Machine.execSetp rm s
  | .setnp rm => Sys2Proof.Machine.execSetnp rm s
  | .setl rm => Sys2Proof.Machine.execSetl rm s
  | .setge rm => Sys2Proof.Machine.execSetge rm s
  | .setle rm => Sys2Proof.Machine.execSetle rm s
  | .setg rm => Sys2Proof.Machine.execSetg rm s
  | .pushFs => Sys2Proof.Machine.execPushFs s
  | .popFs => Sys2Proof.Machine.execPopFs s
  | .pushGs => Sys2Proof.Machine.execPushGs s
  | .popGs => Sys2Proof.Machine.execPopGs s
  | .bt f => Sys2Proof.Machine.execBt f s
  | .shld f => Sys2Proof.Machine.execShld f s
  | .xbts r rm => Sys2Proof.Machine.execXbts r rm s
  | .ibts rm r => Sys2Proof.Machine.execIbts rm r s
  | .bts f => Sys2Proof.Machine.execBts f s
  | .shrd f => Sys2Proof.Machine.execShrd f s
  | .lss r m => Sys2Proof.Machine.execLss r m s
  | .btr f => Sys2Proof.Machine.execBtr f s
  | .lfs r m => Sys2Proof.Machine.execLfs r m s
  | .lgs r m => Sys2Proof.Machine.execLgs r m s
  | .movzx f => Sys2Proof.Machine.execMovzx f s
  | .btc f => Sys2Proof.Machine.execBtc f s
  | .bsf r rm => Sys2Proof.Machine.execBsf r rm s
  | .bsr r rm => Sys2Proof.Machine.execBsr r rm s
  | .movsx f => Sys2Proof.Machine.execMovsx f s
  | .prefixEs => Sys2Proof.Machine.execPrefixEs s
  | .prefixCs => Sys2Proof.Machine.execPrefixCs s
  | .prefixSs => Sys2Proof.Machine.execPrefixSs s
  | .prefixDs => Sys2Proof.Machine.execPrefixDs s
  | .prefixFs => Sys2Proof.Machine.execPrefixFs s
  | .prefixGs => Sys2Proof.Machine.execPrefixGs s
  | .prefixOpsize => Sys2Proof.Machine.execPrefixOpsize s
  | .prefixAdsize => Sys2Proof.Machine.execPrefixAdsize s
  | .prefixLock => Sys2Proof.Machine.execPrefixLock s
  | .prefixRepne => Sys2Proof.Machine.execPrefixRepne s
  | .prefixRep => Sys2Proof.Machine.execPrefixRep s

end Sys2Proof.Machine
end

