-- ==== Sys2Proof/Machine/Fetch.lean ====
section
/-!
DEFINITION. Instruction fetch and decoding (30_encoding.md R278, 21_segmentation_paging.md R138, 20_memory.md R110), and
the placing of an instruction's bytes where the next fetch reads them.
-/
namespace Sys2Proof.Machine

/-- The values a fetch of the byte at physical address `a` may return: the present one, and those the byte has held since
the last control transfer (R110). -/
def State.fetchChoices (s : State) (a : Word32) : List Byte :=
  s.physByte a :: (s.stale.cells.filter fun c => c.1 == a.toNat).map (·.2)

/-- The byte the fetch returns: with no stale value the present one, else a free choice (R110, U4). -/
def State.fetchedByte (s : State) (a : Word32) : Byte :=
  match s.fetchChoices a with
  | [b] => b
  | bs => bs.getD (Config.stalePick s.tick a.toNat % bs.length) (s.physByte a)

/-- The byte the prefetch read at linear address `la` through an earlier page mapping, if that mapping let it (R111). That
this sets no accessed bit in the tables of that mapping, nor loads the look-aside buffer, is the model's choice (R166, log
entry 32, DESIGN CHOICE). -/
def State.mappedByte (s : State) (la : Word32) (m : PageMap) : Option Byte :=
  let s' := { s with cr0 := { s.cr0 with pg := m.pg }, cr3 := m.cr3, tlb := m.tlb, masters := [] }
  match translate la false s.userLevel s' with
  | .ok a _ => some (s.fetchedByte a)
  | .error _ _ => none

/-- The byte at linear address `la` as an earlier page mapping gave it, where the queue still holds it: a free choice
(R111, U4, log entry 32). -/
def State.prefetched (s : State) (la : Word32) : Option Byte :=
  match s.stale.maps with
  | [] => none
  | m :: ms =>
    match Config.mapPick s.tick la.toNat % (ms.length + 2) with
    | 0 => none
    | k + 1 => (m :: ms)[k]?.bind (s.mappedByte la)

/-- Fetch the byte at offset `off` of the code segment (R138): beyond the limit, and in real mode beyond FFFFH (R638),
is exception 13 (0). That an instruction which begins below 10000H in a 16-bit code segment with a limit above FFFFH goes on
with the bytes from offset 10000H up is the model's choice (R27, R138; log entry 45, DESIGN CHOICE). -/
def fetchByte (off : Nat) : M Byte := do
  let s ← get
  require0 (decide (off ≤ s.cs.limit.toNat) && (!s.realMode || decide (off ≤ 0xFFFF))) 13
  let la := s.cs.base + BitVec.ofNat 32 off
  match s.prefetched la with
  | some b => return b
  | none => do
    let a ← translate la false s.userLevel
    modify State.turned
    return (← get).fetchedByte a

/-- The decoding procedure (R278): bytes are fetched one by one until they make an instruction; a sixteenth byte is
exception 13 (0). `bs` are the bytes already fetched after the prefixes. -/
def fetchFrom : Nat → List Byte → M Decoded
  | 0, _ => raiseCode 13 0
  | n + 1, bs => do
    let s ← get
    let b ← fetchByte (s.codeOffset.toNat + s.pfx.count + bs.length)
    let bs := bs ++ [b]
    require0 (decide (s.pfx.count + bs.length ≤ maxLength)) 13
    match decode s.osz s.asz bs with
    | none => fetchFrom n bs
    | some (d, _) => do
      modify fun s => { s with nextEip := s.wrapEip (s.eip + BitVec.ofNat 32 (s.pfx.count + bs.length)) }
      return d

/-- Fetch and decode the next instruction. -/
def fetchInstr : M Decoded := fetchFrom (maxLength + 1) []

/-- Fetch, decode and execute one instruction (R278): an undefined encoding is exception 6, an undocumented one is
refused (R275, U9). -/
def fetchExec (s : State) : Host.Outcome State Fault Refusal :=
  match fetchInstr s with
  | .ok (.instr i) t => exec i t
  | .ok .invalid t => conclude t (.error (.exc { vector := 6, code := none, newTask := false }) t)
  | .ok .undocumented _ => .refused .undocumentedOpcode
  | .error e t => conclude s (.error e t)

/-- The physical address the fetch of offset `off` reads. -/
def State.fetchAddress (s : State) (off : Nat) : Word32 :=
  let la := s.cs.base + BitVec.ofNat 32 off
  match translate la false s.userLevel s with
  | .ok a _ => a
  | .error _ _ => la

/-- `s` with bytes placed at offset `off` of the code segment. -/
def State.placeBytes (s : State) (off : Nat) : List Byte → State
  | [] => s
  | b :: bs => ({ s with mem := memWrite s.mem (s.fetchAddress off).toNat b }).placeBytes (off + 1) bs

/-- `s` about to start the instruction at EIP: executing, at an instruction boundary, with nothing pending, no other master
about to use the bus and no stale instruction bytes. -/
def State.atBoundary (s : State) : State :=
  { s with
    run := .executing
    pfx := Pfx.none
    pending := none
    trap := DebugTrap.none
    nmiLatch := false
    pins := { s.pins with intr := none, pereq := false, hold := false, reset := false }
    hlda := false
    masters := []
    stale := Stale.none }

/-- `s` with the table instruction `w` of `nbits` bits at the place the next step fetches from. -/
def State.withInstrAtEip (s : State) (nbits w : Nat) : State :=
  s.atBoundary.placeBytes s.codeOffset.toNat (tableBytes maxLength (w % 2 ^ nbits))

end Sys2Proof.Machine
end

