-- ==== Sys2Proof/Machine/Boundary.lean ====
section
/-!
DEFINITION. The instruction boundary: RESET (60_exceptions.md R667), HOLD (22_bus_interface.md R206, R230), the order of the
pending events (R643), debug traps and instruction breakpoints (R624, R625), NMI (R664), INTR (R662), the halted and shutdown
states (R692, R693).
-/
namespace Sys2Proof.Machine

/-- The state while RESET is active (R667, 70_reset_and_hazards.md R710): memory, the pins and what
the other masters do are not the processor's. -/
def State.applyReset (s : State) : State :=
  { State.resetWith s.cfg with mem := s.mem, masters := s.masters, pins := s.pins, bus := s.bus, tick := s.tick }

/-- The first slot of the free bits of DR6.B0 to B3 (U22). -/
def quietSlot : Nat := 16

/-- Four free bits. -/
def State.freeConditions (s : State) : BitVec 4 := conditions fun n => s.freeBit (quietSlot + n.val)

/-- Some of the bits of `m`, freely chosen, set in DR6.B0 to B3 (U22). -/
def State.maySetB (s : State) (m : BitVec 4) : State :=
  { s with dr6 := s.dr6 ||| (m &&& s.freeConditions).zeroExtend 32 }

/-- The matches of data conditions that are not enabled leave free bits in DR6 (U22). -/
def State.settleQuiet (s : State) : State :=
  { s.maySetB s.trap.quiet with trap := { s.trap with quiet := 0 } }

/-- A debug trap waits (R624, R625). -/
def State.trapDue (s : State) : Bool := s.trap.hits != 0 || s.trap.step || s.trap.task

/-- The bits of DR6 that the waiting debug traps set: B3..B0, BS (14), BT (15) (R55, R624, R625). -/
def DebugTrap.bits (t : DebugTrap) : Word32 :=
  (bit t.task ++ bit t.step ++ 0#10 ++ t.hits).zeroExtend 32

/-- Take the debug traps that wait, all in one exception 1 (R625). -/
def takeTrap (s : State) : Host.Outcome State Fault Refusal :=
  deliver { s with dr6 := s.dr6 ||| s.trap.bits, trap := DebugTrap.none }
    { vector := 1, kind := .exception, ret := s.eip, code := none, rf := s.midRep }

/-- Take the latched NMI (R664, R665). -/
def takeNmi (s : State) : Host.Outcome State Fault Refusal :=
  deliver { s with nmiLatch := false, nmiBlocked := true }
    { vector := 2, kind := .external, ret := s.eip, code := none, rf := s.midRep }

/-- Acknowledge INTR and take the interrupt (R661, R662). That the request is gone with the acknowledge is the model's
choice: the spec says that the acknowledge lets the controller drop it (log entry 4, DESIGN CHOICE). -/
def takeIntr (s : State) (vector : Byte) : Host.Outcome State Fault Refusal :=
  deliver { s with pins := { s.pins with intr := none }, bus := .intAck vector :: s.bus }
    { vector := vector, kind := .external, ret := s.eip, code := none, rf := s.midRep }

/-- The instruction conditions whose address is that of the next instruction, enabled or not (R625 (a)). -/
def State.fetchMatches (s : State) (enabled : Bool) : BitVec 4 :=
  conditions fun n => s.bpEnabled n == enabled && s.bpKind n == 0 && s.breakpoint n == linear s.cs s.codeOffset

/-- Start the next instruction: an enabled instruction breakpoint is exception 1 as a fault, unless RF is set or a
repeated string instruction goes on (R625 (a), R644). -/
def startInstr (s : State) : Host.Outcome State Fault Refusal :=
  let t := s.maySetB (s.fetchMatches false)
  if s.fetchMatches true != 0 && !s.flags.rf && !s.midRep then
    deliver { t with dr6 := t.dr6 ||| (s.fetchMatches true).zeroExtend 32 }
      { s.faultEvent 1 none with rf := false }
  else fetchExec t

/-- An NMI that may be taken now: not blocked, and not in the shadow of a load of SS (R664, R665). -/
def State.nmiDue (s : State) : Bool := s.nmiLatch && !s.nmiBlocked && s.shadow != .ss

/-- The vector of a maskable interrupt that may be taken now (R662). -/
def State.intrDue (s : State) : Option Byte :=
  if s.flags.intf && s.shadow == .none then s.pins.intr else none

/-- The events at an instruction boundary in the order of R643, then the next instruction. -/
def atBoundary (s : State) : Host.Outcome State Fault Refusal :=
  match s.pending with
  | some ev => deliver { s with pending := none } ev
  | none =>
    let s := s.settleQuiet
    if s.run = .shutdown then (if s.nmiDue then takeNmi s else .next s)
    else if s.trapDue && s.shadow != .ss then takeTrap s
    else if s.nmiDue then takeNmi s
    else
      match s.intrDue with
      | some v => takeIntr s v
      | none => if s.run = .halted then .next s else startInstr s

/-- A step that the processor has the bus for: a store the coprocessor asks for by PEREQ (R207, R610), else the next
instruction; between a prefix byte and its instruction no event of R643 but RESET is served (R254). No rule says when such
a store is made among the events of R643, nor whether a processor that executes nothing makes it, nor whether it comes
between a prefix byte and its instruction: that it comes first, only while the processor executes, so that no data
breakpoint arises in the halted or the shutdown state (R692, D25), and after a prefix byte as at a boundary, is the model's
choice (log entries 3 and 12, DESIGN CHOICE). So is that it is made with CR0.EM set too, where R243 and R604 have the processor
behave as if there were no coprocessor (log entry 12, DESIGN CHOICE). With CR0.ET wrong for the fitted coprocessor the result of
the store is undefined (R612, U19). -/
def runStep (s : State) : Host.Outcome State Fault Refusal :=
  if s.run == .executing && s.pereq && s.cop.due.isSome then
    if s.etWrong then .fault .etMismatch else .next s.copStored
  else if s.pfx.count = 0 then atBoundary s
  else fetchExec s

/-- One step: RESET over everything (R667). It is looked at between two steps only, so that no instruction is cut between its bus
cycles with a part of its stores made: the model's choice (R212, R667, R700; log entry 49, DESIGN CHOICE). While
HOLD is active the processor is in the hold state Th, in which it does nothing and looks at no other input, and which it leaves
when HOLD goes inactive (R206, R230, R232, R233, R666); that no execution goes on meanwhile is the model's choice (log entry 35,
DESIGN CHOICE). The other masters have the bus once at the start of every step, and again before every bus cycle of it (R12,
R106, log entry 36). The counter of the free values advances (log entry 7). -/
def stepOnce (s : State) : Host.Outcome State Fault Refusal :=
  let s := { s with tick := s.tick + 1 }
  if s.pins.reset then .next s.applyReset
  else if s.pins.hold then .next { s.turned with hlda := true }
  else runStep { s.turned with hlda := false }

end Sys2Proof.Machine
end

