-- ==== Sys2Proof/Safety.lean ====
section
/-!
DEFINITION. What claims are stated in: outcomes, the invariants of the machine, and, for a machine without paging, when
an operand access completes, the value it reads and the state it leaves.
-/
namespace Sys2Proof.Machine

/-! ## Invariants -/

/-- The mode is one of the three of R136 with its privilege level: CPL is 0 and VM is clear without protection (R682,
R680), CPL is 3 in virtual-8086 mode (R135), and paging needs protection (R560). -/
def State.modeOk (s : State) : Bool :=
  (s.cr0.pe || (s.cpl == 0 && !s.flags.vm)) && (!s.flags.vm || s.cpl == 3) && (!s.cr0.pg || s.cr0.pe)

/-- The paging structures of the processor: the reserved bits of CR3 are 0 (R51), the look-aside buffer holds at most
`TLB_ENTRIES` entries (R112), no two for one page (R163). -/
def State.pagingOk (s : State) : Prop :=
  s.cr3.extractLsb' 0 12 = 0 ∧ s.tlb.length ≤ s.cfg.tlbEntries ∧ s.tlb.Pairwise fun a b => a.page ≠ b.page

/-! ## Accesses without paging -/

/-- Paging is off (R160), and no other master is about to use the bus (R12): what an access does is then a function of
memory alone. -/
def State.flat (s : State) : Bool := !s.cr0.pg && s.masters.isEmpty

/-- The segment checks of R140 pass for the `n` bytes at `off`. -/
def State.segAllows (s : State) (r : SReg) (off : Word32) (n : Nat) (write : Bool) : Bool :=
  (s.realMode || (s.seg r).usable) && (s.realMode || hasRights (s.seg r) write) && s.inReach (s.seg r) off n

/-- An access to the `n` bytes at `off` completes in memory that only the processor uses: the segment checks pass. -/
def State.canAccess (s : State) (r : SReg) (off : Word32) (n : Nat) (write : Bool) : Bool :=
  s.flat && s.segAllows r off n write

/-- The addresses of `n` bytes from `la` on, modulo 2^32 (R80). -/
def byteAddrs (la : Word32) (n : Nat) : List Word32 := (List.range n).map fun k => la + BitVec.ofNat 32 k

/-- The bytes of an operand in memory, paging being off. -/
def State.operandBytes (s : State) (r : SReg) (off : Word32) (n : Nat) : List Byte :=
  (byteAddrs (linear (s.seg r) off) n).map s.physByte

/-- The value of an operand in memory, paging being off. -/
def State.operand (s : State) (w : Width) (r : SReg) (off : Word32) : BitVec w.bits :=
  valueOf w (s.operandBytes r off w.bytes)

/-- `s` after a read of an operand: only data breakpoints may have become pending (R625). -/
def State.afterLoad (s : State) (r : SReg) (off : Word32) (n : Nat) : State :=
  s.noteAccess (linear (s.seg r) off) n false

/-- `s` after a write of an operand, paging being off. -/
def State.afterStore (s : State) (r : SReg) (off : Word32) (bs : List Byte) : State :=
  (s.setPhysBytes (byteAddrs (linear (s.seg r) off) bs.length) bs).noteAccess (linear (s.seg r) off) bs.length true

/-- The operand at a place can be read. -/
def State.readable (s : State) (w : Width) : Loc → Bool
  | .reg _ => true
  | .mem r off => s.canAccess r off w.bytes false

/-- The operand at a place can be read and written. -/
def State.updatable (s : State) (w : Width) : Loc → Bool
  | .reg _ => true
  | .mem r off => s.canAccess r off w.bytes false && s.canAccess r off w.bytes true

/-- The operand at a place can be written. -/
def State.storable (s : State) (w : Width) : Loc → Bool
  | .reg _ => true
  | .mem r off => s.canAccess r off w.bytes true

/-- The value at a place, paging being off. -/
def State.valueAt (s : State) (w : Width) : Loc → BitVec w.bits
  | .reg i => s.reg w i
  | .mem r off => s.operand w r off

/-- `s` after the operand at a place has been read. -/
def State.afterRead (s : State) (w : Width) : Loc → State
  | .reg _ => s
  | .mem r off => s.afterLoad r off w.bytes

/-- `s` after the operand at a place has been written. -/
def State.afterWrite (s : State) (w : Width) (l : Loc) (v : BitVec w.bits) : State :=
  match l with
  | .reg i => s.setReg w i v
  | .mem r off => s.afterStore r off (bytesOf w v)

/-- An item of size `sz` can be pushed: paging is off and the bytes below the stack pointer can be written (R470). -/
def State.canPush (s : State) (sz : Size) : Bool := s.canAccess .ss (s.spBelow s.sp sz.bytes) sz.bytes true

/-- `s` after an item has been pushed (R470). -/
def State.pushed (s : State) (sz : Size) (v : Word32) : State :=
  let new := s.spBelow s.sp sz.bytes
  (s.afterStore .ss new (bytesOfNat sz.bytes v.toNat)).setSp new

/-- The stack item of size `sz` at stack pointer `sp` can be read. -/
def State.canPeek (s : State) (sz : Size) (sp : Word32) : Bool := s.canAccess .ss sp sz.bytes false

/-- The stack item of size `sz` at stack pointer `sp`, zero-extended. -/
def State.peek (s : State) (sz : Size) (sp : Word32) : Word32 :=
  BitVec.ofNat 32 (natOfBytes (s.operandBytes .ss sp sz.bytes))

/-- `s` after the stack item at `sp` has been read. -/
def State.afterPeek (s : State) (sz : Size) (sp : Word32) : State := s.afterLoad .ss sp sz.bytes

/-- `s` after a pop (R470). -/
def State.popped (s : State) (sz : Size) : State := (s.afterPeek sz s.sp).setSp (s.spAbove s.sp sz.bytes)

/-! ## Instructions -/

/-- No repeat prefix, and LOCK only where it is legal (R101, R254). -/
def State.prefixesOk (s : State) (lockable : Bool) : Prop :=
  s.pfx.rep = none ∧ (s.pfx.lock = true → lockable = true)

/-- `s` as the steps of an instruction find it: the shadow of an earlier one is over (R727). -/
def State.begun (s : State) : State := { s with shadow := .none }

/-- `s` with other flags. -/
def State.withFlags (s : State) (f : EFlags) : State := { s with flags := f }

end Sys2Proof.Machine
end

