-- ==== Sys2Proof/Certificates/Slice0/Obligations.lean ====
section
/-!
DEFINITION. The statements for the provers, `def Obligations.<Name> : Prop`, and before each group, in Sys2Proof.Claims,
the words it is stated in. An instruction's result is an equation for `exec`: the state after it is built from `s.begun`
with the functions of Safety.lean, so every field that no function names is unchanged. Operands in memory are accessed
with paging off; paging has statements of its own.
-/
namespace Sys2Proof.Claims

open Sys2Proof.Machine

/-! ## Sizes and addresses in numbers -/

/-- The number of values of a size: what an offset or a stack pointer of this size is taken modulo. -/
def modulus : Size → Nat
  | .s16 => 2 ^ 16
  | .s32 => 2 ^ 32

/-- The 32-bit size where `wide` holds, else the 16-bit size. -/
def sizeIf (wide : Prop) [Decidable wide] : Size := if wide then .s32 else .s16

/-- The code segment is a 32-bit one: protected mode, and D = 1 in its descriptor (R255). -/
def wideCode (s : State) : Bool := s.cr0.pe && !s.flags.vm && s.cs.db

/-- The number of 1 bits of a byte is even (R33: PF). -/
def evenOnes (b : Byte) : Bool := decide (((List.range 8).filter fun k => b.getLsbD k).length % 2 = 0)

/-- The segment of a memory operand without an override: SS where the base register is BP, ESP or EBP, else DS (R260,
R261, R263). -/
def defaultSegment : MemOp → SReg
  | .direct16 _ => .ds
  | .based16 b _ => if b = .bp ∨ b = .bpSi ∨ b = .bpDi then .ss else .ds
  | .direct32 _ => .ds
  | .based32 b _ => if b = 4 ∨ b = 5 then .ss else .ds
  | .sib _ _ b _ => if b = 4 ∨ b = 5 then .ss else .ds
  | .sibDirect _ _ _ => .ds

/-- The registers of a 16-bit form: BX is 3, BP 5, SI 6, DI 7 (R260). -/
def baseRegs : Base16 → List (Fin 8)
  | .bxSi => [3, 6]
  | .bxDi => [3, 7]
  | .bpSi => [5, 6]
  | .bpDi => [5, 7]
  | .si => [6]
  | .di => [7]
  | .bp => [5]
  | .bx => [3]

/-- A displacement of a 16-bit form as an integer: a byte is sign-extended (R260). -/
def disp16Number : Disp16 → Int
  | .none => 0
  | .d8 d => d.toInt
  | .d16 d => (d.toNat : Int)

/-- A displacement of a 32-bit form as an integer: a byte is sign-extended (R261). -/
def disp32Number : Disp32 → Int
  | .none => 0
  | .d8 d => d.toInt
  | .d32 d => (d.toNat : Int)

/-- A SIB sum in integers: `rest`, and the index times 1, 2, 4 or 8. Index 4 is none; with a scale other than 1 it makes the
whole offset free (R261, U8). -/
def sibNumber (s : State) (scale : Fin 4) (index : Fin 8) (rest : Int) : Int :=
  if index ≠ 4 then (rest + (s.reg32 index).toNat * 2 ^ scale.val) % 2 ^ 32
  else if scale = 0 then rest % 2 ^ 32
  else (s.freeWord eaSlot).toNat

/-- The offset of a memory operand in integers: modulo 2^16 in the 16-bit forms, modulo 2^32 in the others (R260 to
R262). -/
def offsetNumber (s : State) : MemOp → Int
  | .direct16 d => (d.toNat : Int)
  | .based16 b d => (((baseRegs b).map fun r => ((s.reg32 r).toNat : Int)).sum + disp16Number d) % 2 ^ 16
  | .direct32 d => (d.toNat : Int)
  | .based32 b d => ((s.reg32 b).toNat + disp32Number d) % 2 ^ 32
  | .sib scale index b d => sibNumber s scale index ((s.reg32 b).toNat + disp32Number d)
  | .sibDirect scale index d => sibNumber s scale index d.toNat

/-! ## Source operands -/

/-- A source operand: at a place, or in the instruction. -/
inductive Source (w : Width) where
  | place (l : Loc)
  | imm (v : BitVec w.bits)

/-- The source can be read. -/
def Source.readable {w : Width} (x : Source w) (s : State) : Bool :=
  match x with
  | .place l => s.readable w l
  | .imm _ => true

/-- The value of the source. -/
def Source.value {w : Width} (x : Source w) (s : State) : BitVec w.bits :=
  match x with
  | .place l => s.valueAt w l
  | .imm v => v

/-- `s` after the source has been read. -/
def Source.after {w : Width} (x : Source w) (s : State) : State :=
  match x with
  | .place l => s.afterRead w l
  | .imm _ => s

/-! ## Two-operand operations -/

/-- The eight instructions of R340 and R380. -/
def aluInstr (op : AluOp) (f : AluForm) : Instr :=
  match op with
  | .add => .add f
  | .or => .or f
  | .adc => .adc f
  | .sbb => .sbb f
  | .and => .and f
  | .sub => .sub f
  | .xor => .xor f
  | .cmp => .cmp f

/-- The width of a form (R340). -/
def aluWidth (s : State) : AluForm → Width
  | .ebGb _ _ => .w8
  | .evGv _ _ => s.osz.width
  | .gbEb _ _ => .w8
  | .gvEv _ _ => s.osz.width
  | .alIb _ => .w8
  | .eaxIv _ => s.osz.width
  | .ebIb _ _ => .w8
  | .evIv _ _ => s.osz.width
  | .evIbs _ _ => s.osz.width

/-- The place of the destination (R340). -/
def aluDest (s : State) : AluForm → Loc
  | .ebGb rm _ => s.locate rm
  | .evGv rm _ => s.locate rm
  | .gbEb r _ => .reg r
  | .gvEv r _ => .reg r
  | .alIb _ => .reg eax
  | .eaxIv _ => .reg eax
  | .ebIb rm _ => s.locate rm
  | .evIv rm _ => s.locate rm
  | .evIbs rm _ => s.locate rm

/-- The source operand of a form (R340): an immediate byte of the last form is sign-extended. -/
def aluSource (s : State) (w : Width) : AluForm → Source w
  | .ebGb _ r => .place (.reg r)
  | .evGv _ r => .place (.reg r)
  | .gbEb _ rm => .place (s.locate rm)
  | .gvEv _ rm => .place (s.locate rm)
  | .alIb imm => .imm (imm.truncate w.bits)
  | .eaxIv imm => .imm (immAs w imm)
  | .ebIb _ imm => .imm (imm.truncate w.bits)
  | .evIv _ imm => .imm (immAs w imm)
  | .evIbs _ imm => .imm (sextImm w imm)

/-- The operands are accessible: CMP only reads its destination. -/
def aluReady (op : AluOp) (f : AluForm) (s : State) : Bool :=
  let w := aluWidth s f
  let d := aluDest s f
  (aluSource s w f).readable s && (if op = .cmp then s.readable w d else s.updatable w d)

/-- The state a two-operand operation leaves. -/
def aluAfter (op : AluOp) (f : AluForm) (s : State) : State :=
  let w := aluWidth s f
  let d := aluDest s f
  let src := aluSource s w f
  let r := aluCompute op s.freeBit (s.valueAt w d) (src.value s) s.flags
  let t := (src.after (s.afterRead w d)).withFlags r.flags
  if op = .cmp then t else t.afterWrite w d r.value

/-! ## One-operand operations -/

/-- INC, DEC, NEG, NOT. -/
inductive OneOp where
  | inc (f : IncForm)
  | dec (f : IncForm)
  | neg (f : UnaryForm)
  | not (f : UnaryForm)

/-- The instruction. -/
def OneOp.instr : OneOp → Instr
  | .inc f => .inc f
  | .dec f => .dec f
  | .neg f => .neg f
  | .not f => .not f

/-- The width and the operand of a form of INC or DEC. -/
def incOperand (s : State) : IncForm → Width × RM
  | .r r => (s.osz.width, .reg r)
  | .eb rm => (.w8, rm)
  | .ev rm => (s.osz.width, rm)

/-- The width and the operand of a form of NEG, NOT, MUL, DIV. -/
def unaryParts (s : State) : UnaryForm → Width × RM
  | .eb rm => (.w8, rm)
  | .ev rm => (s.osz.width, rm)

/-- The width and the operand. -/
def OneOp.parts (s : State) : OneOp → Width × RM
  | .inc f => incOperand s f
  | .dec f => incOperand s f
  | .neg f => unaryParts s f
  | .not f => unaryParts s f

/-- The result and flags (R344, R387 to R389). -/
def OneOp.compute {n : Nat} (op : OneOp) (a : BitVec n) (f : EFlags) : Result n :=
  match op with
  | .inc _ => incCompute a f
  | .dec _ => decCompute a f
  | .neg _ => negCompute a f
  | .not _ => { value := ~~~a, flags := f }

/-- The state a one-operand operation leaves. -/
def OneOp.after (op : OneOp) (s : State) : State :=
  let w := (op.parts s).1
  let l := s.locate (op.parts s).2
  let r := op.compute (s.valueAt w l) s.flags
  ((s.afterRead w l).withFlags r.flags).afterWrite w l r.value

/-! ## TEST -/

/-- The width of a form of TEST. -/
def testWidth (s : State) : TestForm → Width
  | .ebGb _ _ => .w8
  | .evGv _ _ => s.osz.width
  | .alIb _ => .w8
  | .eaxIv _ => s.osz.width
  | .ebIb _ _ => .w8
  | .evIv _ _ => s.osz.width

/-- The first operand of TEST. -/
def testPlace (s : State) : TestForm → Loc
  | .ebGb rm _ => s.locate rm
  | .evGv rm _ => s.locate rm
  | .alIb _ => .reg eax
  | .eaxIv _ => .reg eax
  | .ebIb rm _ => s.locate rm
  | .evIv rm _ => s.locate rm

/-- The value of the second operand of TEST: a register or an immediate. -/
def testOther (s : State) (w : Width) : TestForm → BitVec w.bits
  | .ebGb _ r => s.reg w r
  | .evGv _ r => s.reg w r
  | .alIb imm => imm.truncate w.bits
  | .eaxIv imm => immAs w imm
  | .ebIb _ imm => imm.truncate w.bits
  | .evIv _ imm => immAs w imm

/-- The state TEST leaves: only the flags change (R345). -/
def testAfter (f : TestForm) (s : State) : State :=
  let w := testWidth s f
  let l := testPlace s f
  (s.afterRead w l).withFlags (logicFlags s.freeBit (s.valueAt w l &&& testOther s w f) s.flags).flags

/-! ## Shifts and rotates -/

/-- The seven instructions of group 2. -/
def shiftInstr (op : ShiftOp) (f : ShiftForm) : Instr :=
  match op with
  | .rol => .rol f
  | .ror => .ror f
  | .rcl => .rcl f
  | .rcr => .rcr f
  | .shl => .shl f
  | .shr => .shr f
  | .sar => .sar f

/-- The width, the operand and the count of a form. -/
def shiftParts (s : State) : ShiftForm → Width × RM × Byte
  | .ebIb rm imm => (.w8, rm, imm)
  | .evIb rm imm => (s.osz.width, rm, imm)
  | .eb1 rm => (.w8, rm, 1)
  | .ev1 rm => (s.osz.width, rm, 1)
  | .ebCl rm => (.w8, rm, s.reg .w8 ecx)
  | .evCl rm => (s.osz.width, rm, s.reg .w8 ecx)

/-- The state a shift or rotate leaves: with a count that is 0 modulo 32 nothing is written (R360). -/
def shiftAfter (op : ShiftOp) (f : ShiftForm) (s : State) : State :=
  let w := (shiftParts s f).1
  let l := s.locate (shiftParts s f).2.1
  let c := (shiftParts s f).2.2.toNat % 32
  let r := shiftCompute op s.freeBit (s.valueAt w l) c s.flags
  if c = 0 then s.afterRead w l else ((s.afterRead w l).withFlags r.flags).afterWrite w l r.value

/-- SHLD and SHRD. -/
def doubleInstr (left : Bool) (f : ShdForm) : Instr := if left then .shld f else .shrd f

/-- The operand, the second register and the count of a form of SHLD and SHRD. -/
def doubleParts (s : State) : ShdForm → RM × Fin 8 × Byte
  | .evGvIb rm r imm => (rm, r, imm)
  | .evGvCl rm r => (rm, r, s.reg .w8 ecx)

/-- The state SHLD or SHRD leaves: with a count that is 0 modulo 32 it does nothing (R368). -/
def doubleAfter (left : Bool) (f : ShdForm) (s : State) : State :=
  let w := s.osz.width
  let l := s.locate (doubleParts s f).1
  let c := (doubleParts s f).2.2.toNat % 32
  let r := doubleShift left s.freeBit ((s.freeWord shdSlot).truncate w.bits) (s.valueAt w l)
    (s.reg w (doubleParts s f).2.1) c s.flags
  if c = 0 then s else ((s.afterRead w l).withFlags r.flags).afterWrite w l r.value

/-- The operands of SHLD or SHRD are accessible. -/
def doubleReady (f : ShdForm) (s : State) : Bool :=
  (doubleParts s f).2.2.toNat % 32 == 0 || s.updatable s.osz.width (s.locate (doubleParts s f).1)

/-! ## Multiplication and division -/

/-- MUL, and IMUL with one operand. -/
def mulInstr (signed : Bool) (f : UnaryForm) : Instr :=
  if signed then .imul (match f with
    | .eb rm => .eb rm
    | .ev rm => .ev rm)
  else .mul f

/-- A number in a bit vector, signed or not. -/
def number {n : Nat} (signed : Bool) (v : BitVec n) : Int := if signed then v.toInt else (v.toNat : Nat)

/-- The state after AX, DX:AX or EDX:EAX has taken a double-width value, low half and high half (R392). -/
def putPair (s : State) (w : Width) (lo hi : BitVec w.bits) : State := (s.setReg w eax lo).setReg w (highReg w) hi

/-- The flags of a multiplication: CF and OF both tell whether the product is too wide for the low half, the other status
flags are free (R392 to R394). -/
def productFlags (s : State) (wide : Bool) : EFlags :=
  { s.flags with cf := wide, ovf := wide, pf := s.freeBit 1, af := s.freeBit 2, zf := s.freeBit 3, sf := s.freeBit 4 }

/-- The state after `p`, a product of operands of width `w`, has been stored: CF and OF are set exactly where it needs the
high half, as an unsigned or a signed number (R392, R393). -/
def productAfter (s : State) (signed : Bool) (w : Width) (p : Int) : State :=
  let lo := BitVec.ofInt w.bits p
  let hi := BitVec.ofInt w.bits (p / 2 ^ w.bits)
  let wide := if signed then decide (p < -(2 : Int) ^ (w.bits - 1) ∨ (2 : Int) ^ (w.bits - 1) ≤ p)
    else decide ((2 : Int) ^ w.bits ≤ p)
  (putPair s w lo hi).withFlags (productFlags s wide)

/-- The state MUL or one-operand IMUL leaves. -/
def mulAfter (signed : Bool) (f : UnaryForm) (s : State) : State :=
  let w := (unaryParts s f).1
  let l := s.locate (unaryParts s f).2
  productAfter (s.afterRead w l) signed w (number signed (s.reg w eax) * number signed (s.valueAt w l))

/-- The operands of IMUL with two or three operands: the destination, the place read, the other factor (R394). -/
inductive ShortImul where
  | byImm (r : Fin 8) (rm : RM) (imm : ImmV)
  | byByte (r : Fin 8) (rm : RM) (imm : Byte)
  | byReg (r : Fin 8) (rm : RM)

/-- The instruction. -/
def ShortImul.instr : ShortImul → Instr
  | .byImm r rm imm => .imul (.gvEvIv r rm imm)
  | .byByte r rm imm => .imul (.gvEvIbs r rm imm)
  | .byReg r rm => .imul (.gvEv r rm)

/-- The destination register. -/
def ShortImul.dest : ShortImul → Fin 8
  | .byImm r _ _ => r
  | .byByte r _ _ => r
  | .byReg r _ => r

/-- The r/m operand. -/
def ShortImul.operand : ShortImul → RM
  | .byImm _ rm _ => rm
  | .byByte _ rm _ => rm
  | .byReg _ rm => rm

/-- The other factor. -/
def ShortImul.factor (s : State) (w : Width) : ShortImul → BitVec w.bits
  | .byImm _ _ imm => immAs w imm
  | .byByte _ _ imm => sextImm w imm
  | .byReg r _ => s.reg w r

/-- The state IMUL with two or three operands leaves: the product modulo the width, CF and OF where it does not fit
(R394). -/
def ShortImul.after (i : ShortImul) (s : State) : State :=
  let w := s.osz.width
  let l := s.locate i.operand
  let p := (s.valueAt w l).toInt * (i.factor s w).toInt
  let wide := decide (p < -(2 : Int) ^ (w.bits - 1) ∨ (2 : Int) ^ (w.bits - 1) ≤ p)
  ((s.afterRead w l).setReg w i.dest (BitVec.ofInt w.bits p)).withFlags (productFlags s wide)

/-- DIV and IDIV. -/
def divInstr (signed : Bool) (f : UnaryForm) : Instr := if signed then .idiv f else .div f

/-- The dividend: AX, DX:AX or EDX:EAX (R396). -/
def dividend (s : State) (signed : Bool) (w : Width) : Int := number signed (s.reg w (highReg w) ++ s.reg w eax)

/-- `q` is in range for a quotient of width `w` (R396, R397). -/
def quotientFits (signed : Bool) (w : Width) (q : Int) : Bool :=
  if signed then decide (-(2 : Int) ^ (w.bits - 1) ≤ q ∧ q < (2 : Int) ^ (w.bits - 1))
  else decide (q < (2 : Int) ^ w.bits)

/-- The state DIV or IDIV leaves with quotient `q` and remainder `r`: the six status flags are free (R396, R397). -/
def divAfter (s : State) (w : Width) (l : Loc) (q r : Int) : State :=
  (putPair (s.afterRead w l) w (BitVec.ofInt w.bits q) (BitVec.ofInt w.bits r)).withFlags (freeStatus s.freeBit s.flags)

/-! ## Decimal adjusts -/

/-- The six instructions of R400 to R405. -/
inductive Adjust where
  | daa
  | das
  | aaa
  | aas
  | aam (base : Byte)
  | aad (base : Byte)

/-- The instruction. -/
def Adjust.instr : Adjust → Instr
  | .daa => .daa
  | .das => .das
  | .aaa => .aaa
  | .aas => .aas
  | .aam b => .aam b
  | .aad b => .aad b

/-- The state an adjust leaves: AL or AX and the flags. -/
def Adjust.after (a : Adjust) (s : State) : State :=
  let al : Byte := s.reg .w8 eax
  let ax : Word16 := s.reg .w16 eax
  match a with
  | .daa => let r := daaCompute s.freeBit al s.flags; (s.setReg .w8 eax r.value).withFlags r.flags
  | .das => let r := dasCompute s.freeBit al s.flags; (s.setReg .w8 eax r.value).withFlags r.flags
  | .aaa => let r := aaaCompute s.freeBit ax s.flags; (s.setReg .w16 eax r.value).withFlags r.flags
  | .aas => let r := aasCompute s.freeBit ax s.flags; (s.setReg .w16 eax r.value).withFlags r.flags
  | .aam b => let r := aamCompute s.freeBit al b s.flags; (s.setReg .w16 eax r.value).withFlags r.flags
  | .aad b => let r := aadCompute s.freeBit ax b s.flags; (s.setReg .w16 eax r.value).withFlags r.flags

/-- AAM by 0 does not complete (R404). -/
def Adjust.ready : Adjust → Bool
  | .aam b => b != 0
  | _ => true

end Sys2Proof.Claims
namespace Sys2Proof.Claims

open Sys2Proof.Machine

/-! ## Bits -/

/-- BT, BTS, BTR, BTC. -/
def bitInstr (op : BitOp) (f : BitForm) : Instr :=
  match op with
  | .test => .bt f
  | .set => .bts f
  | .reset => .btr f
  | .complement => .btc f

/-- The place of the word and the number of the bit in it (R450): with the bit offset in a register, bit 0 of a memory
operand is bit 0 of the addressed word, and the signed offset moves the address by whole words. -/
def bitTarget (s : State) : BitForm → Loc × Nat
  | .evGv rm r =>
    let w := s.osz.width
    let o := (s.reg w r).toInt
    match s.locate rm with
    | .reg x => (.reg x, (o % w.bits).toNat)
    | .mem seg off => (.mem seg (wrapTo s.asz (off + BitVec.ofInt 32 (w.bytes * (o / w.bits)))), (o % w.bits).toNat)
  | .evIb rm imm => (s.locate rm, imm.toNat % s.osz.width.bits)

/-- The state a bit instruction leaves (R451 to R454): CF is the old bit; BT writes nothing else. -/
def bitAfter (op : BitOp) (f : BitForm) (s : State) : State :=
  let w := s.osz.width
  let l := (bitTarget s f).1
  let k := (bitTarget s f).2
  let r := bitCompute op s.freeBit (s.valueAt w l) k s.flags
  let t := (s.afterRead w l).withFlags r.flags
  if op = .test then t else t.afterWrite w l r.value

/-- The operand of a bit instruction is accessible. -/
def bitReady (op : BitOp) (f : BitForm) (s : State) : Bool :=
  if op = .test then s.readable s.osz.width (bitTarget s f).1 else s.updatable s.osz.width (bitTarget s f).1

/-- BSF and BSR. -/
def scanInstr (up : Bool) (r : Fin 8) (rm : RM) : Instr := if up then .bsf r rm else .bsr r rm

/-! ## Moves -/

/-- The moves between registers, memory and immediates, without the segment, control, debug and test registers. -/
def isPlainMove : MovForm → Bool
  | .ewSw _ _ => false
  | .swEw _ _ => false
  | .r32Cr _ _ => false
  | .r32Dr _ _ => false
  | .crR32 _ _ => false
  | .drR32 _ _ => false
  | .r32Tr _ _ => false
  | .trR32 _ _ => false
  | _ => true

/-- The width of a plain move. -/
def moveWidth (s : State) : MovForm → Width
  | .ebGb _ _ => .w8
  | .gbEb _ _ => .w8
  | .alOb _ => .w8
  | .obAl _ => .w8
  | .r8Ib _ _ => .w8
  | .ebIb _ _ => .w8
  | _ => s.osz.width

/-- The place a direct offset names (R303). -/
def directPlace (s : State) (off : ImmV) : Loc := .mem (s.segOr .ds) (immWord off)

/-- The destination of a plain move. -/
def moveDest (s : State) : MovForm → Loc
  | .ebGb rm _ => s.locate rm
  | .evGv rm _ => s.locate rm
  | .gbEb r _ => .reg r
  | .gvEv r _ => .reg r
  | .obAl off => directPlace s off
  | .ovEax off => directPlace s off
  | .r8Ib r _ => .reg r
  | .rIv r _ => .reg r
  | .ebIb rm _ => s.locate rm
  | .evIv rm _ => s.locate rm
  | _ => .reg eax

/-- The source of a plain move. -/
def moveSource (s : State) (w : Width) : MovForm → Source w
  | .ebGb _ r => .place (.reg r)
  | .evGv _ r => .place (.reg r)
  | .gbEb _ rm => .place (s.locate rm)
  | .gvEv _ rm => .place (s.locate rm)
  | .alOb off => .place (directPlace s off)
  | .eaxOv off => .place (directPlace s off)
  | .r8Ib _ imm => .imm (imm.truncate w.bits)
  | .rIv _ imm => .imm (immAs w imm)
  | .ebIb _ imm => .imm (imm.truncate w.bits)
  | .evIv _ imm => .imm (immAs w imm)
  | _ => .place (.reg eax)

/-- The operands of a plain move are accessible. -/
def moveReady (f : MovForm) (s : State) : Bool :=
  (moveSource s (moveWidth s f) f).readable s && s.storable (moveWidth s f) (moveDest s f)

/-- The state a plain move leaves: no flag changes (R301 to R303). -/
def moveAfter (f : MovForm) (s : State) : State :=
  let w := moveWidth s f
  let src := moveSource s w f
  (src.after s).afterWrite w (moveDest s f) (src.value s)

/-- MOVZX and MOVSX. -/
def extendInstr (signed : Bool) (f : MovxForm) : Instr := if signed then .movsx f else .movzx f

/-- The destination, the source and its width. -/
def extendParts : MovxForm → Fin 8 × RM × Width
  | .gvEb r rm => (r, rm, .w8)
  | .gvEw r rm => (r, rm, .w16)

/-- The state MOVZX or MOVSX leaves: the register holds the number the source is (R308, R309). -/
def extendAfter (signed : Bool) (f : MovxForm) (s : State) : State :=
  let w := (extendParts f).2.2
  let l := s.locate (extendParts f).2.1
  (s.afterRead w l).setReg s.osz.width (extendParts f).1 (BitVec.ofInt _ (number signed (s.valueAt w l)))

/-- The width, the operand and the register of a form of XCHG. -/
def xchgParts (s : State) : XchgForm → Width × RM × Fin 8
  | .ebGb rm r => (.w8, rm, r)
  | .evGv rm r => (s.osz.width, rm, r)
  | .eaxR r => (s.osz.width, .reg eax, r)

/-- The state XCHG leaves (R316). -/
def xchgAfter (f : XchgForm) (s : State) : State :=
  let w := (xchgParts s f).1
  let l := s.locate (xchgParts s f).2.1
  let r := (xchgParts s f).2.2
  ((s.afterRead w l).afterWrite w l (s.reg w r)).setReg w r (s.valueAt w l)

/-! ## Words of the processor stored in an operand -/

/-- The instructions that store a 16-bit register of the processor: MOV r/m, Sreg, SLDT, STR, SMSW. -/
inductive WordStore where
  | seg (rm : RM) (r : SReg)
  | ldtr (rm : RM)
  | tr (rm : RM)
  | msw (rm : RM)

/-- The instruction. -/
def WordStore.instr : WordStore → Instr
  | .seg rm r => .mov (.ewSw rm r)
  | .ldtr rm => .sldt rm
  | .tr rm => .str rm
  | .msw rm => .smsw rm

/-- The operand. -/
def WordStore.operand : WordStore → RM
  | .seg rm _ => rm
  | .ldtr rm => rm
  | .tr rm => rm
  | .msw rm => rm

/-- The word stored. -/
def WordStore.value (s : State) : WordStore → Word16
  | .seg _ r => (s.seg r).selector
  | .ldtr _ => s.ldtr.selector
  | .tr _ => s.tr.selector
  | .msw _ => s.cr0.toWord.extractLsb' 0 16

/-- SLDT and STR exist in protected mode only (R555, R557). -/
def WordStore.ready (s : State) : WordStore → Bool
  | .ldtr _ => s.protectedMode
  | .tr _ => s.protectedMode
  | _ => true

/-- The state a word store leaves: with a 32-bit register as destination its upper half is free (U10). -/
def WordStore.after (i : WordStore) (s : State) : State :=
  match i.operand, s.osz with
  | .reg r, .s32 => s.setReg32 r ((s.freeWord 0).extractLsb' 16 16 ++ i.value s)
  | rm, _ => s.afterWrite .w16 (s.locate rm) (i.value s)

/-! ## Loading segment registers -/

/-- The descriptor at a linear address, paging being off. -/
def descAt (s : State) (la : Word32) : Desc := s.physDword (la + 4) ++ s.physDword la

/-- A check of a rule: its condition, and the vector and the error code of the exception where it fails. -/
abbrev Check := Bool × Byte × Word32

/-- The exception of the first check of a list that fails, in the order in which the rule lists them. -/
def firstFailing (l : List Check) : Option (Byte × Word32) := (l.find? fun c => !c.1).map fun c => c.2

/-- The error code that names a selector: `sel AND FFFCH` (R642). -/
def selCode (sel : Word16) : Word32 := BitVec.ofNat 32 (sel.toNat / 4 * 4)

/-- The descriptor a selector names, paging being off; for a selector outside its table it does not count. -/
def namedDesc (s : State) (sel : Word16) : Desc :=
  match s.descAddr sel with
  | some la => descAt s la
  | none => 0

/-- The checks on the selector, not null, of a stack segment for level `n`: type, RPL and DPL failures are exception `v`
(R145, R504, R509, R647). -/
def stackChecks (s : State) (v : Byte) (n : BitVec 2) (sel : Word16) : List Check :=
  let d := namedDesc s sel
  [((s.descAddr sel).isSome, v, selCode sel),
    (selRpl sel == n, v, selCode sel), (d.writable, v, selCode sel), (d.dpl == n, v, selCode sel),
    (d.present, 12, selCode sel)]

/-- The checks on the selector, not null, for ES, DS, FS or GS: type and privilege failures are exception `v` (R145, R520). -/
def dataChecks (s : State) (v : Byte) (sel : Word16) : List Check :=
  let d := namedDesc s sel
  [((s.descAddr sel).isSome, v, selCode sel),
    (d.readable, v, selCode sel), (d.conforming || privOk s.cpl sel d, v, selCode sel),
    (d.present, 11, selCode sel)]

/-- The checks of `LoadSeg` in protected mode (R145): SS takes no null selector. -/
def segChecks (s : State) (r : SReg) (sel : Word16) : List Check :=
  if selNull sel then [(decide (r ≠ .ss), 13, 0)]
  else if r = .ss then stackChecks s 13 s.cpl sel
  else dataChecks s 13 sel

/-- A selector that protected mode accepts for ES, DS, FS or GS, or for SS (R145). -/
def descLoads (s : State) (r : SReg) (sel : Word16) (d : Desc) : Bool :=
  if r = .ss then selRpl sel == s.cpl && d.writable && d.dpl == s.cpl && d.present
  else d.readable && (d.conforming || privOk s.cpl sel d) && d.present

/-- `LoadSeg` completes (R145). -/
def segLoads (s : State) (r : SReg) (sel : Word16) : Bool :=
  if !s.protectedMode then true
  else if selNull sel then r != .ss
  else
    match s.descAddr sel with
    | some la => s.flat && descLoads s r sel (descAt s la)
    | none => false

/-- `s` with the accessed bit of the descriptor at `la` set (R131). -/
def markAccessed (s : State) (la : Word32) : State :=
  if (descAt s la).accessed then s else s.setPhysDword (la + 4) (s.physDword (la + 4) ||| 0x100)

/-- The state `LoadSeg` leaves: the selector and the descriptor register (R135, R142, R145). -/
def afterSegLoad (s : State) (r : SReg) (sel : Word16) : State :=
  if s.realMode then s.setSeg r { s.seg r with selector := sel, base := sel.zeroExtend 32 <<< 4, usable := true }
  else if s.v86 then s.setSeg r (SegReg.v86 sel)
  else if selNull sel then s.setSeg r { s.seg r with selector := sel, usable := false }
  else
    match s.descAddr sel with
    | some la => (markAccessed s la).setSeg r ((descAt s la).toSeg sel)
    | none => s

/-- The five instructions that load a far pointer (R313). -/
inductive FarLoad where
  | lds
  | les
  | lss
  | lfs
  | lgs

/-- The instruction. -/
def FarLoad.instr (i : FarLoad) (r : Fin 8) (m : MemOp) : Instr :=
  match i with
  | .lds => .lds r m
  | .les => .les r m
  | .lss => .lss r m
  | .lfs => .lfs r m
  | .lgs => .lgs r m

/-- The segment register it loads. -/
def FarLoad.seg : FarLoad → SReg
  | .lds => .ds
  | .les => .es
  | .lss => .ss
  | .lfs => .fs
  | .lgs => .gs

/-- A far pointer in memory can be read: the offset, then the selector, whose own offset is taken modulo 2^32 (R268, R313). -/
def farReadable (s : State) (m : MemOp) : Bool :=
  let p := s.ea m
  let n := s.osz.bytes
  s.canAccess p.1 p.2 n false && s.canAccess p.1 (p.2 + BitVec.ofNat 32 n) 2 false

/-- The offset of a far pointer in memory, zero-extended, and its selector (R268). -/
def farPointer (s : State) (m : MemOp) : Word32 × Word16 :=
  let p := s.ea m
  ((s.operand s.osz.width p.1 p.2).zeroExtend 32, s.operand .w16 p.1 (p.2 + BitVec.ofNat 32 s.osz.bytes))

/-- `s` after a far pointer has been read. -/
def afterFar (s : State) (m : MemOp) : State :=
  let p := s.ea m
  (s.afterLoad p.1 p.2 s.osz.bytes).afterLoad p.1 (p.2 + BitVec.ofNat 32 s.osz.bytes) 2

/-- The state a far pointer load leaves. -/
def FarLoad.after (i : FarLoad) (r : Fin 8) (m : MemOp) (s : State) : State :=
  (afterSegLoad (afterFar s m) i.seg (farPointer s m).2).setReg s.osz.width r ((farPointer s m).1.truncate _)

/-! ## String instructions -/

/-- The seven string operations (R421 to R431). -/
inductive StringOp where
  | movs
  | cmps
  | scas
  | lods
  | stos
  | ins
  | outs
deriving DecidableEq

/-- The instruction, for bytes or for elements of operand size. -/
def StringOp.instr : StringOp → Bool → Instr
  | .movs, true => .movsb
  | .movs, false => .movswD
  | .cmps, true => .cmpsb
  | .cmps, false => .cmpswD
  | .scas, true => .scasb
  | .scas, false => .scaswD
  | .lods, true => .lodsb
  | .lods, false => .lodswD
  | .stos, true => .stosb
  | .stos, false => .stoswD
  | .ins, true => .insb
  | .ins, false => .inswD
  | .outs, true => .outsb
  | .outs, false => .outswD

/-- CMPS and SCAS: the repetition also looks at ZF (R440). -/
def StringOp.compares : StringOp → Bool
  | .cmps => true
  | .scas => true
  | _ => false

/-- The I/O permission bitmap permits `n` ports from `port` on (R585). -/
def bitmapPermits (s : State) (port n : Nat) : Bool :=
  let base := (s.physByte (s.tr.base + 0x67)).toNat * 256 + (s.physByte (s.tr.base + 0x66)).toNat
  s.cfg.hasIoBitmap && s.tr.is386 && s.flat &&
    (List.range n).all fun k =>
      let at8 := base + (port + k) / 8
      decide (at8 + 1 ≤ s.tr.limit.toNat) && !(s.physByte (s.tr.base + BitVec.ofNat 32 at8)).getLsbD ((port + k) % 8)

/-- The ports may be used (R584). -/
def portsPermitted (s : State) (port : Word16) (n : Nat) : Bool := s.ioAllowed || bitmapPermits s port.toNat n

/-- `s` after `n` bytes have been read from `port`. -/
def afterIn (s : State) (port : Word16) (n : Nat) : State :=
  { s with bus := s.portCycles .ioRead port.toNat (s.portBytes port n) ++ s.bus }

/-- `s` after bytes have been written to `port`. -/
def afterOut (s : State) (port : Word16) (bs : List Byte) : State :=
  { s with bus := s.portCycles .ioWrite port.toNat bs ++ s.bus }

/-- The source index, SI or ESI, and its segment (R420). -/
def stringSource (s : State) : Loc := .mem (s.segOr .ds) (s.addrReg s.asz esi)

/-- The destination, ES at DI or EDI (R420). -/
def stringDest (s : State) : Loc := .mem .es (s.addrReg s.asz edi)

/-- An index register moved by one element, down when DF is set (R420). -/
def stepIndex (s : State) (w : Width) (i : Fin 8) : State :=
  let v := s.addrReg s.asz i
  s.setAddrReg s.asz i (if s.flags.df then v - BitVec.ofNat 32 w.bytes else v + BitVec.ofNat 32 w.bytes)

/-- The operands of one element are accessible. -/
def elementReady (op : StringOp) (w : Width) (s : State) : Bool :=
  match op with
  | .movs => s.readable w (stringSource s) && s.storable w (stringDest s)
  | .cmps => s.readable w (stringSource s) && s.readable w (stringDest s)
  | .scas => s.readable w (stringDest s)
  | .lods => s.readable w (stringSource s)
  | .stos => s.storable w (stringDest s)
  | .ins => portsPermitted s (s.reg .w16 edx) w.bytes && s.storable w (stringDest s)
  | .outs => portsPermitted s (s.reg .w16 edx) w.bytes && s.readable w (stringSource s)

/-- INS and OUTS. -/
def StringOp.usesPort : StringOp → Bool
  | .ins => true
  | .outs => true
  | _ => false

/-- The state one element leaves (R421 to R431). -/
def elementAfter (op : StringOp) (w : Width) (s : State) : State :=
  let src := stringSource s
  let dst := stringDest s
  let port := s.reg .w16 edx
  match op with
  | .movs => stepIndex (stepIndex ((s.afterRead w src).afterWrite w dst (s.valueAt w src)) w esi) w edi
  | .cmps =>
    let f := (subFlags (s.valueAt w src) (s.valueAt w dst) false s.flags).flags
    stepIndex (stepIndex (((s.afterRead w src).afterRead w dst).withFlags f) w esi) w edi
  | .scas =>
    let f := (subFlags (s.reg w eax) (s.valueAt w dst) false s.flags).flags
    stepIndex ((s.afterRead w dst).withFlags f) w edi
  | .lods => stepIndex ((s.afterRead w src).setReg w eax (s.valueAt w src)) w esi
  | .stos => stepIndex (s.afterWrite w dst (s.reg w eax)) w edi
  | .ins =>
    stepIndex ((afterIn s port w.bytes).afterWrite w dst (valueOf w (s.portBytes port w.bytes))) w edi
  | .outs => stepIndex (afterOut (s.afterRead w src) port (bytesOf w (s.valueAt w src))) w esi

/-- The element width. -/
def elementWidth (s : State) (byte : Bool) : Width := if byte then .w8 else s.osz.width

/-- The state one element under a repeat prefix leaves: the counter, CX or ECX, goes down by one (R440). -/
def repeatAfter (op : StringOp) (w : Width) (s : State) : State :=
  let t := elementAfter op w s
  t.setAddrReg t.asz ecx (t.addrReg t.asz ecx - 1)

/-- The repetition is over: the counter is 0, or ZF ends a comparison (R440). -/
def repeatOver (op : StringOp) (rep : Rep) (s : State) : Bool :=
  s.addrReg s.asz ecx == 0 ||
    (op.compares && (match rep with
      | .repe => !s.flags.zf
      | .repne => s.flags.zf))

/-! ## The stack -/

/-- The stack pointer `k` items of `n` bytes below `sp` (R470). -/
def below (s : State) (sp : Word32) (n k : Nat) : Word32 := wrapTo s.ssz (sp - BitVec.ofNat 32 (n * k))

/-- `k` items of `n` bytes can be pushed one after the other. -/
def canPushItems (s : State) (n k : Nat) : Bool :=
  (List.range k).all fun i => s.canAccess .ss (below s s.sp n (i + 1)) n true

/-- `s` after the items of a list have been pushed, the first one first. -/
def pushedItems (s : State) (sz : Size) (vs : List Word32) : State := vs.foldl (fun t v => t.pushed sz v) s

/-- `s` after bytes have been pushed as one item. -/
def pushedBytes (s : State) (bs : List Byte) : State :=
  let new := s.spBelow s.sp bs.length
  (s.afterStore .ss new bs).setSp new

/-- The place and the value of what PUSH pushes (R471 to R473): an immediate byte is sign-extended. -/
def pushSource (s : State) (w : Width) : PushForm → Source w
  | .r r => .place (.reg r)
  | .iv imm => .imm (immAs w imm)
  | .ibs imm => .imm (sextImm w imm)
  | .ev rm => .place (s.locate rm)

/-- The state PUSH leaves. -/
def pushAfter (f : PushForm) (s : State) : State :=
  let src := pushSource s s.osz.width f
  (src.after s).pushed s.osz ((src.value s).zeroExtend 32)

/-- PUSH ES, CS, SS, DS, FS, GS. -/
def pushSegInstr : SReg → Instr
  | .es => .pushEs
  | .cs => .pushCs
  | .ss => .pushSs
  | .ds => .pushDs
  | .fs => .pushFs
  | .gs => .pushGs

/-- The bytes PUSH Sreg stores: the upper two of a 32-bit item are free (R474, U10). -/
def segItem (s : State) (r : SReg) : List Byte :=
  bytesOf .w16 (s.seg r).selector ++ (match s.osz with
    | .s16 => []
    | .s32 => [s.freeByte 0, s.freeByte 1])

/-- The segment registers POP can load. -/
inductive PopSeg where
  | es
  | ss
  | ds
  | fs
  | gs

/-- The instruction. -/
def PopSeg.instr : PopSeg → Instr
  | .es => .popEs
  | .ss => .popSs
  | .ds => .popDs
  | .fs => .popFs
  | .gs => .popGs

/-- The register. -/
def PopSeg.reg : PopSeg → SReg
  | .es => .es
  | .ss => .ss
  | .ds => .ds
  | .fs => .fs
  | .gs => .gs

/-- `s` with the shadow of a load of SS (R304, R476). -/
def ssShadow (s : State) (r : SReg) : State := if r = .ss then { s with shadow := .ss } else s

/-- The state POP Sreg leaves: the stack pointer moves last (R476). -/
def popSegAfter (r : SReg) (s : State) : State :=
  let t := afterSegLoad (s.afterPeek s.osz s.sp) r ((s.peek s.osz s.sp).truncate 16)
  ssShadow (t.setSp (t.spAbove t.sp s.osz.bytes)) r

/-- The stack pointer `k` items above. -/
def above (s : State) (n k : Nat) : Word32 := wrapTo s.ssz (s.sp + BitVec.ofNat 32 (n * k))

/-- `k` stack items can be read. -/
def canPeekItems (s : State) (sz : Size) (k : Nat) : Bool :=
  (List.range k).all fun i => s.canPeek sz (above s sz.bytes i)

/-- Stack item `k`. -/
def item (s : State) (sz : Size) (k : Nat) : Word32 := s.peek sz (above s sz.bytes k)

/-- `s` after `k` stack items have been read, the top one first. -/
def afterItems (s : State) (sz : Size) (k : Nat) : State :=
  (List.range k).foldl (fun t i => t.afterPeek sz (above s sz.bytes i)) s

/-- The state PUSHA leaves: EAX, ECX, EDX, EBX, the ESP before, EBP, ESI, EDI (R477); with a 32-bit operand all of ESP, on a
16-bit stack too (log entry 48). -/
def pushaAfter (s : State) : State :=
  pushedItems s s.osz ([eax, ecx, edx, ebx, esp, ebp, esi, edi].map fun r => s.addrReg s.osz r)

/-- The state POPA leaves: EDI, ESI, EBP, EBX, EDX, ECX, EAX; the item of ESP is skipped (R478). -/
def popaAfter (s : State) : State :=
  let t := (afterItems s s.osz 8).setSp (above s s.osz.bytes 8)
  [(edi, 0), (esi, 1), (ebp, 2), (ebx, 4), (edx, 5), (ecx, 6), (eax, 7)].foldl
    (fun t p => t.setAddrReg s.osz p.1 (item s s.osz p.2)) t

/-- `n` further entries of the enclosing frame's display can be copied (R483). -/
def canCopyDisplay (sz : Size) : Nat → State → Bool
  | 0, _ => true
  | n + 1, s =>
    let p := s.spBelow (s.addrReg s.ssz ebp) sz.bytes
    let t := s.setAddrReg s.ssz ebp p
    t.canPeek sz p && (t.afterPeek sz p).canPush sz && canCopyDisplay sz n ((t.afterPeek sz p).pushed sz (t.peek sz p))

/-- `s` after `n` entries of the display have been copied (R483). -/
def displayCopied (sz : Size) : Nat → State → State
  | 0, s => s
  | n + 1, s =>
    let p := s.spBelow (s.addrReg s.ssz ebp) sz.bytes
    let t := s.setAddrReg s.ssz ebp p
    displayCopied sz n ((t.afterPeek sz p).pushed sz (t.peek sz p))

/-- `s` with the frame's links pushed: at level 0 EBP alone, at level L the display of L entries and the new frame
pointer besides (R483). -/
def frameLinks (s : State) (level : Nat) : State :=
  let t := s.pushed s.osz (s.addrReg s.osz ebp)
  if level = 0 then t else (displayCopied s.osz (level - 1) t).pushed s.osz t.sp

/-- The pushes of ENTER are possible. -/
def enterReady (imm2 : Byte) (s : State) : Bool :=
  let level := imm2.toNat % 32
  let t := s.pushed s.osz (s.addrReg s.osz ebp)
  s.canPush s.osz &&
    (level == 0 || (canCopyDisplay s.osz (level - 1) t && (displayCopied s.osz (level - 1) t).canPush s.osz))

/-- The state ENTER leaves: EBP is the frame pointer, `imm` bytes of locals are below (R483). -/
def enterAfter (imm : Word16) (imm2 : Byte) (s : State) : State :=
  let frame := (s.pushed s.osz (s.addrReg s.osz ebp)).sp
  let t := (frameLinks s (imm2.toNat % 32)).setAddrReg s.osz ebp frame
  t.setSp (t.spBelow t.sp imm.toNat)

/-- `s` with the stack pointer at the frame pointer (R484). -/
def unwound (s : State) : State := s.setSp (s.addrReg s.ssz ebp)

end Sys2Proof.Claims
namespace Sys2Proof.Claims

open Sys2Proof.Machine

/-! ## Control transfer -/

/-- `s` with execution going on at `t`; the bytes fetched ahead are dropped (R111). -/
def jumped (s : State) (t : Word32) : State := { s with eip := t, stale := Stale.none }

/-- `t` lies within the code segment (R490). -/
def targetOk (s : State) (t : Word32) : Bool := decide (t.toNat ≤ s.cs.limit.toNat)

/-- The sixteen conditional jumps (R493, R497). -/
def jccInstr (c : Cond) (f : JccForm) : Instr :=
  match c with
  | .o => .jo f
  | .no => .jno f
  | .b => .jb f
  | .ae => .jae f
  | .e => .je f
  | .ne => .jne f
  | .be => .jbe f
  | .a => .ja f
  | .s => .js f
  | .ns => .jns f
  | .p => .jp f
  | .np => .jnp f
  | .l => .jl f
  | .ge => .jge f
  | .le => .jle f
  | .g => .jg f

/-- The sixteen SETcc instructions (R543). -/
def setccInstr (c : Cond) (rm : RM) : Instr :=
  match c with
  | .o => .seto rm
  | .no => .setno rm
  | .b => .setb rm
  | .ae => .setae rm
  | .e => .sete rm
  | .ne => .setne rm
  | .be => .setbe rm
  | .a => .seta rm
  | .s => .sets rm
  | .ns => .setns rm
  | .p => .setp rm
  | .np => .setnp rm
  | .l => .setl rm
  | .ge => .setge rm
  | .le => .setle rm
  | .g => .setg rm

/-- The condition with a number: the low four bits of the opcode (R497). -/
def conditionNumber (k : Fin 16) : Cond :=
  #v[.o, .no, .b, .ae, .e, .ne, .be, .a, .s, .ns, .p, .np, .l, .ge, .le, .g][k]

/-- The displacement of a conditional jump, sign-extended (R266). -/
def jccOffset : JccForm → Word32
  | .jb d => d.signExtend 32
  | .jv (.w d) => d.signExtend 32
  | .jv (.d d) => d

/-- LOOP, LOOPE, LOOPNE, JCXZ. -/
inductive CountJump where
  | loop
  | loope
  | loopne
  | jcxz

/-- The instruction. -/
def CountJump.instr (j : CountJump) (d : Byte) : Instr :=
  match j with
  | .loop => .loop d
  | .loope => .loope d
  | .loopne => .loopne d
  | .jcxz => .jcxz d

/-- The opcode (R494, R495). -/
def CountJump.opcode : CountJump → Byte
  | .loop => 0xE2
  | .loope => 0xE1
  | .loopne => 0xE0
  | .jcxz => 0xE3

/-- The counter after the instruction: LOOP and its variants count CX or ECX down, JCXZ does not (R494, R495). -/
def CountJump.counted (j : CountJump) (s : State) : State :=
  match j with
  | .jcxz => s
  | _ => s.setAddrReg s.asz ecx (s.addrReg s.asz ecx - 1)

/-- Whether the jump is taken, from the state after the counting. -/
def CountJump.taken (j : CountJump) (s : State) : Bool :=
  let c := s.addrReg s.asz ecx
  match j with
  | .loop => c != 0
  | .loope => c != 0 && s.flags.zf
  | .loopne => c != 0 && !s.flags.zf
  | .jcxz => c == 0

/-- A near transfer: its target and the state after its operand has been read. -/
inductive NearForm where
  | rel (d : ImmV)
  | relByte (d : Byte)
  | indirect (rm : RM)

/-- The jump. -/
def NearForm.jmp : NearForm → Instr
  | .rel d => .jmp (.jv d)
  | .relByte d => .jmp (.jb d)
  | .indirect rm => .jmp (.ev rm)

/-- The call; there is none with a byte displacement. -/
def NearForm.call : NearForm → Option Instr
  | .rel d => some (.call (.jv d))
  | .relByte _ => none
  | .indirect rm => some (.call (.ev rm))

/-- The target before its truncation to operand size (R491, R492). -/
def NearForm.target (s : State) : NearForm → Word32
  | .rel (.w d) => s.nextEip + d.signExtend 32
  | .rel (.d d) => s.nextEip + d
  | .relByte d => s.nextEip + d.signExtend 32
  | .indirect rm => (s.valueAt s.osz.width (s.locate rm)).zeroExtend 32

/-- The operand of an indirect transfer can be read. -/
def NearForm.ready (s : State) : NearForm → Bool
  | .indirect rm => s.readable s.osz.width (s.locate rm)
  | _ => true

/-- `s` after the operand of an indirect transfer has been read. -/
def NearForm.after (s : State) : NearForm → State
  | .indirect rm => s.afterRead s.osz.width (s.locate rm)
  | _ => s

/-- The two near returns and the bytes of parameters they release (R498). -/
def retInstr : Option Word16 → Instr
  | none => .ret .near
  | some n => .ret (.nearIw n)

/-- The bytes of parameters a return releases. -/
def released : Option Word16 → Nat
  | none => 0
  | some n => n.toNat

/-- `s` with CS loaded the real-mode way and execution going on at `off` (R135, R500). -/
def farJumped (s : State) (sel : Word16) (off : Word32) : State :=
  { s with cs := { s.cs with selector := sel, base := sel.zeroExtend 32 <<< 4 }, eip := off, stale := Stale.none }

/-- A far pointer in the instruction or in memory (R268). -/
inductive FarForm where
  | direct (p : FarPtr)
  | indirect (m : MemOp)

/-- The far jump or call. -/
def FarForm.instr (call : Bool) : FarForm → Instr
  | .direct p => if call then .call (.farAp p) else .jmp (.farAp p)
  | .indirect m => if call then .call (.farMp m) else .jmp (.farMp m)

/-- The offset, zero-extended, and the selector. -/
def FarForm.pointer (s : State) : FarForm → Word32 × Word16
  | .direct p => (immWord p.off, p.sel)
  | .indirect m => farPointer s m

/-- The far pointer can be read. -/
def FarForm.ready (s : State) : FarForm → Bool
  | .direct _ => true
  | .indirect m => farReadable s m

/-- `s` after the far pointer has been read. -/
def FarForm.after (s : State) : FarForm → State
  | .direct _ => s
  | .indirect m => afterFar s m

/-- A call pushes CS and the address of the next instruction as items of size `sz` (R500, R502, R503). -/
def callPushed (s : State) (call : Bool) (sz : Size) : State :=
  if call then pushedItems s sz [s.cs.selector.zeroExtend 32, s.nextEip] else s

/-- The stack holds `n` bytes at the stack pointer, none of them round the end of the segment (R508). -/
def held (s : State) (n : Nat) : Bool := s.canAccess .ss s.sp n false

/-- The item of a far return's frame `k` bytes above the stack pointer (R508 to R513). -/
def frameItem (s : State) (sz : Size) (k : Nat) : Word32 := s.peek sz (s.sp + BitVec.ofNat 32 k)

/-- `s` after the items at the distances `ks` above the stack pointer have been read. -/
def afterFrame (s : State) (sz : Size) (ks : List Nat) : State :=
  ks.foldl (fun t k => t.afterPeek sz (s.sp + BitVec.ofNat 32 k)) s

/-- The two far returns. -/
def farRetInstr : Option Word16 → Instr
  | none => .ret .far
  | some n => .ret (.farIw n)

/-! ## Interrupts and their return -/

/-- The four bytes at the entry of vector `v` of the interrupt table: offset, then segment (R655). -/
def vectorEntry (s : State) (v : Byte) : Word32 := s.physDword (s.idtr.base + BitVec.ofNat 32 (4 * v.toNat))

/-- An interrupt can be taken in real mode: the vector is inside the table and three words can be pushed. -/
def realEntryReady (s : State) (v : Byte) : Bool :=
  s.realMode && s.flat && decide (4 * v.toNat + 3 ≤ s.idtr.limit.toNat) && canPushItems s 2 3

/-- The state after an interrupt or exception in real mode (R655): FLAGS, CS and IP are on the stack, IF and TF (and RF,
log entry 16) are clear, CS:IP come from the vector. Entry to vector 1 clears DR7.GD (R625). -/
def realEntered (s : State) (v : Byte) (ret : Word32) : State :=
  let e := vectorEntry s v
  let t := pushedItems s .s16 [s.flags.toWord, s.cs.selector.zeroExtend 32, ret]
  let u := farJumped (t.withFlags { s.flags with intf := false, tf := false, rf := false }) (e.extractLsb' 16 16)
    ((e.extractLsb' 0 16).zeroExtend 32)
  { u with
    dr7 := if v = 1 then s.dr7 &&& 0xFFFFDFFF else s.dr7
    pfx := Pfx.none, shadow := .none, midRep := false, run := .executing }

/-- The state IRET leaves in real and virtual-8086 mode (R511): IP, CS and FLAGS come from the stack. -/
def iretRealAfter (s : State) : State :=
  let t := ((afterItems s s.osz 3).setSp (above s s.osz.bytes 3)).withFlags (s.iretFlags s.osz (item s s.osz 2))
  { farJumped t ((item s s.osz 1).truncate 16) (item s s.osz 0) with nmiBlocked := false }

/-! ## Flags -/

/-- The instructions that change flags alone, and NOP. -/
inductive FlagOp where
  | clc
  | stc
  | cmc
  | cld
  | std
  | sahf
  | nop
  | cli
  | sti

/-- The instruction. -/
def FlagOp.instr : FlagOp → Instr
  | .clc => .clc
  | .stc => .stc
  | .cmc => .cmc
  | .cld => .cld
  | .std => .std
  | .sahf => .sahf
  | .nop => .nop
  | .cli => .cli
  | .sti => .sti

/-- The opcode (R530 to R545). -/
def FlagOp.opcode : FlagOp → Byte
  | .clc => 0xF8
  | .stc => 0xF9
  | .cmc => 0xF5
  | .cld => 0xFC
  | .std => 0xFD
  | .sahf => 0x9E
  | .nop => 0x90
  | .cli => 0xFA
  | .sti => 0xFB

/-- CLI and STI need the right to change IF (R536, R537). -/
def FlagOp.ready (s : State) : FlagOp → Bool
  | .cli => s.ifAllowed
  | .sti => s.ifAllowed
  | _ => true

/-- The flags it leaves (R530 to R537, R541, R545). -/
def FlagOp.flags (s : State) (op : FlagOp) : EFlags :=
  let ah : Byte := (s.reg32 eax).extractLsb' 8 8
  match op with
  | .clc => { s.flags with cf := false }
  | .stc => { s.flags with cf := true }
  | .cmc => { s.flags with cf := !s.flags.cf }
  | .cld => { s.flags with df := false }
  | .std => { s.flags with df := true }
  | .sahf =>
    { s.flags with sf := ah.getLsbD 7, zf := ah.getLsbD 6, af := ah.getLsbD 4, pf := ah.getLsbD 2, cf := ah.getLsbD 0 }
  | .nop => s.flags
  | .cli => { s.flags with intf := false }
  | .sti => { s.flags with intf := true }

/-- The state it leaves: STI with IF clear begins a shadow (R537). -/
def FlagOp.after (op : FlagOp) (s : State) : State :=
  let t := s.withFlags (op.flags s)
  match op with
  | .sti => if s.flags.intf then t else { t with shadow := .sti }
  | _ => t

/-! ## Register-only moves -/

/-- CBW/CWDE, CWD/CDQ, LEA, LAHF: one register is written, no memory accessed. -/
inductive RegOp where
  | cbw
  | cwd
  | lea (r : Fin 8) (m : MemOp)
  | lahf

/-- The instruction. -/
def RegOp.instr : RegOp → Instr
  | .cbw => .cbwCwde
  | .cwd => .cwdCdq
  | .lea r m => .lea r m
  | .lahf => .lahf

/-- The state it leaves (R310, R311, R312, R540). -/
def RegOp.after (op : RegOp) (s : State) : State :=
  let w := s.osz.width
  match op with
  | .cbw =>
    match s.osz with
    | .s16 => s.setReg .w16 eax (BitVec.ofInt 16 (s.reg .w8 eax).toInt)
    | .s32 => s.setReg .w32 eax (BitVec.ofInt 32 (s.reg .w16 eax).toInt)
  | .cwd => s.setReg w edx (if (s.reg w eax).toInt < 0 then -1 else 0)
  | .lea r m => s.setReg w r ((s.ea m).2.truncate w.bits)
  | .lahf => s.setReg .w8 4 (s.flags.toWord.extractLsb' 0 8)

/-! ## System registers -/

/-- SGDT and SIDT, LGDT and LIDT. -/
inductive TableOp where
  | sgdt (m : MemOp)
  | sidt (m : MemOp)
  | lgdt (m : MemOp)
  | lidt (m : MemOp)

/-- The instruction. -/
def TableOp.instr : TableOp → Instr
  | .sgdt m => .sgdt m
  | .sidt m => .sidt m
  | .lgdt m => .lgdt m
  | .lidt m => .lidt m

/-- The six bytes of the operand can be accessed (R550, R552). -/
def tableReady (s : State) (m : MemOp) (write : Bool) : Bool := s.canAccess (s.ea m).1 (s.ea m).2 6 write

/-- The instruction completes: loading needs CPL 0 (R558). -/
def TableOp.ready (s : State) : TableOp → Bool
  | .sgdt m => tableReady s m true
  | .sidt m => tableReady s m true
  | .lgdt m => s.cpl == 0 && tableReady s m false
  | .lidt m => s.cpl == 0 && tableReady s m false

/-- The state after a table register has been stored: the limit, then the base; with a 16-bit operand the sixth byte is
free (R552, U17). -/
def tableStored (s : State) (m : MemOp) (t : TableReg) : State :=
  let p := s.ea m
  let base := bytesOf .w32 t.base
  let last := match s.osz with
    | .s16 => base.take 3 ++ [s.freeByte 0]
    | .s32 => base
  (s.afterStore p.1 p.2 (bytesOf .w16 t.limit)).afterStore p.1 (p.2 + 2) last

/-- A table register read from memory: with a 16-bit operand the base has 24 bits (R550). -/
def tableRead (s : State) (m : MemOp) : TableReg :=
  let p := s.ea m
  let base := s.operand .w32 p.1 (p.2 + 2)
  { base := if s.osz = .s16 then base &&& 0x00FFFFFF else base, limit := s.operand .w16 p.1 p.2 }

/-- `s` after the six bytes have been read. -/
def afterTableRead (s : State) (m : MemOp) : State :=
  let p := s.ea m
  (s.afterLoad p.1 p.2 2).afterLoad p.1 (p.2 + 2) 4

/-- The state it leaves. -/
def TableOp.after (op : TableOp) (s : State) : State :=
  match op with
  | .sgdt m => tableStored s m s.gdtr
  | .sidt m => tableStored s m s.idtr
  | .lgdt m => { afterTableRead s m with gdtr := tableRead s m }
  | .lidt m => { afterTableRead s m with idtr := tableRead s m }

/-- LLDT and LTR: the selector is in the GDT, the descriptor present and of the right type (R554, R556). -/
def gdtEntry (s : State) (sel : Word16) : Desc := descAt s (s.gdtAddr sel)

/-- LLDT accepts its operand (R554). -/
def lldtReady (s : State) (sel : Word16) : Bool :=
  selNull sel ||
    (s.flat && s.inGdt sel && !(gdtEntry s sel).isSegment && (gdtEntry s sel).type == 2 && (gdtEntry s sel).present)

/-- LTR accepts its operand (R556). -/
def ltrReady (s : State) (sel : Word16) : Bool :=
  !selNull sel && s.flat && s.inGdt sel && !(gdtEntry s sel).isSegment &&
    ((gdtEntry s sel).type == 1 || (gdtEntry s sel).type == 9) && (gdtEntry s sel).present

/-- The checks of LLDT and LTR on a selector that is not null: the types accepted are `types` (R554, R556). -/
def systemChecks (s : State) (types : List Nat) (sel : Word16) : List Check :=
  let d := gdtEntry s sel
  [(s.inGdt sel, 13, selCode sel), (!d.isSegment && types.contains d.type, 13, selCode sel),
    (d.present, 11, selCode sel)]

/-- The state LLDT leaves in LDTR; null makes it invalid (R130, R554). -/
def ldtLoaded (s : State) (sel : Word16) : State :=
  if selNull sel then { s with ldtr := { s.ldtr with selector := sel, valid := false } }
  else { s with ldtr :=
    { selector := sel, valid := true, base := (gdtEntry s sel).base, limit := (gdtEntry s sel).limit } }

/-- The state LTR leaves: TR is loaded and the descriptor in memory becomes busy (R556). -/
def trLoaded (s : State) (sel : Word16) : State :=
  let d := gdtEntry s sel
  { s.setPhysDword (s.gdtAddr sel + 4) (s.physDword (s.gdtAddr sel + 4) ||| 0x200) with
    tr := { selector := sel, base := d.base, limit := d.limit, is386 := d.type == 9 } }

/-- The machine status word loaded by LMSW: PE can only be set (R563). -/
def mswLoaded (s : State) (v : Word16) : State :=
  { s with cr0 :=
    { s.cr0 with pe := s.cr0.pe || v.getLsbD 0, mp := v.getLsbD 1, em := v.getLsbD 2, ts := v.getLsbD 3 } }

/-- VERR, VERW, LAR, LSL look at the descriptor `sel` names: it exists, and its type and privilege are accepted
(R566 to R569). -/
inductive Query where
  | verr (rm : RM)
  | verw (rm : RM)
  | lar (r : Fin 8) (rm : RM)
  | lsl (r : Fin 8) (rm : RM)

/-- The instruction. -/
def Query.instr : Query → Instr
  | .verr rm => .verr rm
  | .verw rm => .verw rm
  | .lar r rm => .lar r rm
  | .lsl r rm => .lsl r rm

/-- The operand that holds the selector, and its width: for LAR and LSL the operand size (R566, R567; log entry 40). -/
def Query.operand (s : State) : Query → Width × RM
  | .verr rm => (.w16, rm)
  | .verw rm => (.w16, rm)
  | .lar _ rm => (s.osz.width, rm)
  | .lsl _ rm => (s.osz.width, rm)

/-- The selector. -/
def Query.selector (s : State) (q : Query) : Word16 :=
  (s.valueAt (q.operand s).1 (s.locate (q.operand s).2)).truncate 16

/-- The descriptor passes the test of the query (R566 to R569). -/
def Query.accepts (s : State) (q : Query) (sel : Word16) (d : Desc) : Bool :=
  let priv := d.conforming || privOk s.cpl sel d
  match q with
  | .verr _ => d.readable && priv
  | .verw _ => d.writable && privOk s.cpl sel d
  | .lar _ _ => (d.isSegment || [1, 2, 3, 4, 5, 9, 11, 12].contains d.type) && priv
  | .lsl _ _ => (d.isSegment || [1, 2, 3, 9, 11].contains d.type) && priv

/-- The descriptor found, if the query accepts it. -/
def Query.found (s : State) (q : Query) : Option Desc :=
  let sel := q.selector s
  if selNull sel then none
  else
    match s.descAddr sel with
    | some la => if q.accepts s sel (descAt s la) then some (descAt s la) else none
    | none => none

/-- The state a query leaves: ZF tells the answer, LAR and LSL load the rights or the limit (R566 to R569). -/
def Query.after (q : Query) (s : State) : State :=
  let t := s.afterRead (q.operand s).1 (s.locate (q.operand s).2)
  let w := s.osz.width
  let zf (z : Bool) (u : State) : State := u.withFlags { u.flags with zf := z }
  match q.found s, q with
  | none, _ => zf false t
  | some d, .lar r _ =>
    let rights : Word32 := d.extractLsb' 32 32 &&& (if s.osz = .s32 then 0x00F0FF00 else 0x0000FF00)
    zf true (t.setReg w r (rights.truncate w.bits))
  | some d, .lsl r _ => zf true (t.setReg w r (d.limit.truncate w.bits))
  | some _, _ => zf true t

/-- The state ARPL leaves: RPL of the operand is raised to that of the register (R570). -/
def arplAfter (s : State) (rm : RM) (r : Fin 8) : State :=
  let l := s.locate rm
  let d : Word16 := s.valueAt .w16 l
  let t := s.afterRead .w16 l
  let rpl : BitVec 2 := (s.reg .w16 r).extractLsb' 0 2
  let up := decide ((d.extractLsb' 0 2).toNat < rpl.toNat)
  let u := if up then t.afterWrite .w16 l (d.extractLsb' 2 14 ++ rpl) else t
  u.withFlags { u.flags with zf := up }

/-- ARPL can read its operand, and write it where it must. -/
def arplReady (s : State) (rm : RM) (r : Fin 8) : Bool :=
  let l := s.locate rm
  s.readable .w16 l &&
    (decide (((s.reg .w16 r).extractLsb' 0 2).toNat ≤ ((s.valueAt .w16 l : Word16).extractLsb' 0 2).toNat) ||
      s.storable .w16 l)

/-! ## Ports -/

/-- The width and the port of a form of IN (R580, R581). -/
def inParts (s : State) : InForm → Width × Word16
  | .alIb p => (.w8, p.zeroExtend 16)
  | .eaxIb p => (s.osz.width, p.zeroExtend 16)
  | .alDx => (.w8, s.reg .w16 edx)
  | .eaxDx => (s.osz.width, s.reg .w16 edx)

/-- The width and the port of a form of OUT (R582, R583). -/
def outParts (s : State) : OutForm → Width × Word16
  | .ibAl p => (.w8, p.zeroExtend 16)
  | .ibEax p => (s.osz.width, p.zeroExtend 16)
  | .dxAl => (.w8, s.reg .w16 edx)
  | .dxEax => (s.osz.width, s.reg .w16 edx)

/-! ## Prefixes -/

/-- What a prefix byte records (R254): the last override and the last repeat prefix count. -/
def prefixRecords : Instr → Option (Pfx → Pfx)
  | .prefixEs => some fun p => { p with seg := some .es }
  | .prefixCs => some fun p => { p with seg := some .cs }
  | .prefixSs => some fun p => { p with seg := some .ss }
  | .prefixDs => some fun p => { p with seg := some .ds }
  | .prefixFs => some fun p => { p with seg := some .fs }
  | .prefixGs => some fun p => { p with seg := some .gs }
  | .prefixOpsize => some fun p => { p with o66 := true }
  | .prefixAdsize => some fun p => { p with a67 := true }
  | .prefixLock => some fun p => { p with lock := true }
  | .prefixRepne => some fun p => { p with rep := some .repne }
  | .prefixRep => some fun p => { p with rep := some .repe }
  | _ => none

end Sys2Proof.Claims
namespace Sys2Proof.Claims

open Sys2Proof.Machine

/-! ## The coprocessor -/

/-- What an ESC instruction does with memory or AX (the table of R602): `reads m a b` is "R n" with n = `a` bytes for a
16-bit and `b` for a 32-bit operand size, `writes m a b` is "W n". -/
inductive EscUse where
  | none
  | reads (m : MemOp) (a b : Nat)
  | writes (m : MemOp) (a b : Nat)
  | ax

/-- FADD to FDIVR. -/
def arithUse : FArithForm → EscUse
  | .m32 m => .reads m 4 4
  | .m64 m => .reads m 8 8
  | .stSti _ => .none
  | .stiSt _ => .none

/-- FCOM and FCOMP. -/
def comUse : FComForm → EscUse
  | .m32 m => .reads m 4 4
  | .m64 m => .reads m 8 8
  | .stSti _ => .none

/-- FIADD to FIDIVR. -/
def intUse : FIntForm → EscUse
  | .m32 m => .reads m 4 4
  | .m16 m => .reads m 2 2

/-- The table of R602; none for an instruction that is no ESC, and for the reserved memory forms. -/
def escUse : Instr → Option EscUse
  | .fadd f => some (arithUse f)
  | .fmul f => some (arithUse f)
  | .fcom f => some (comUse f)
  | .fcomp f => some (comUse f)
  | .fsub f => some (arithUse f)
  | .fsubr f => some (arithUse f)
  | .fdiv f => some (arithUse f)
  | .fdivr f => some (arithUse f)
  | .fld (.m32 m) => some (.reads m 4 4)
  | .fld (.m64 m) => some (.reads m 8 8)
  | .fld (.m80 m) => some (.reads m 10 10)
  | .fld (.sti _) => some .none
  | .fst (.m32 m) => some (.writes m 4 4)
  | .fst (.m64 m) => some (.writes m 8 8)
  | .fst (.sti _) => some .none
  | .fstp (.m32 m) => some (.writes m 4 4)
  | .fstp (.m64 m) => some (.writes m 8 8)
  | .fstp (.m80 m) => some (.writes m 10 10)
  | .fstp (.sti _) => some .none
  | .fldenv m => some (.reads m 14 28)
  | .fldcw m => some (.reads m 2 2)
  | .fnstenv m => some (.writes m 14 28)
  | .fnstcw m => some (.writes m 2 2)
  | .fxch _ => some .none
  | .fnop _ => some .none
  | .escD9D8 _ => some .none
  | .fchsGroup _ => some .none
  | .fld1Group _ => some .none
  | .f2xm1Group _ => some .none
  | .fpremGroup _ => some .none
  | .fiadd f => some (intUse f)
  | .fimul f => some (intUse f)
  | .ficom f => some (intUse f)
  | .ficomp f => some (intUse f)
  | .fisub f => some (intUse f)
  | .fisubr f => some (intUse f)
  | .fidiv f => some (intUse f)
  | .fidivr f => some (intUse f)
  | .escDaC0 _ => some .none
  | .escDaC8 _ => some .none
  | .escDaD0 _ => some .none
  | .escDaD8 _ => some .none
  | .escDaE0 _ => some .none
  | .fucompp _ => some .none
  | .escDaF0 _ => some .none
  | .escDaF8 _ => some .none
  | .fild (.m16 m) => some (.reads m 2 2)
  | .fild (.m32 m) => some (.reads m 4 4)
  | .fild (.m64 m) => some (.reads m 8 8)
  | .fist (.m16 m) => some (.writes m 2 2)
  | .fist (.m32 m) => some (.writes m 4 4)
  | .fistp (.m16 m) => some (.writes m 2 2)
  | .fistp (.m32 m) => some (.writes m 4 4)
  | .fistp (.m64 m) => some (.writes m 8 8)
  | .escDbC0 _ => some .none
  | .escDbC8 _ => some .none
  | .escDbD0 _ => some .none
  | .escDbD8 _ => some .none
  | .feniGroup _ => some .none
  | .escDbE8 _ => some .none
  | .escDbF0 _ => some .none
  | .escDbF8 _ => some .none
  | .escDcD0 _ => some .none
  | .escDcD8 _ => some .none
  | .frstor m => some (.reads m 94 108)
  | .fnsave m => some (.writes m 94 108)
  | .fnstsw m => some (.writes m 2 2)
  | .ffree _ => some .none
  | .escDdC8 _ => some .none
  | .fucom _ => some .none
  | .fucomp _ => some .none
  | .escDdF0 _ => some .none
  | .escDdF8 _ => some .none
  | .faddp _ => some .none
  | .fmulp _ => some .none
  | .escDeD0 _ => some .none
  | .fcompp _ => some .none
  | .fsubrp _ => some .none
  | .fsubp _ => some .none
  | .fdivrp _ => some .none
  | .fdivp _ => some .none
  | .fbld m => some (.reads m 10 10)
  | .fbstp m => some (.writes m 10 10)
  | .escDfC0 _ => some .none
  | .escDfC8 _ => some .none
  | .escDfD0 _ => some .none
  | .escDfD8 _ => some .none
  | .fnstswAx i => some (if i = 0 then .ax else .none)
  | .escDfE8 _ => some .none
  | .escDfF0 _ => some .none
  | .escDfF8 _ => some .none
  | _ => none

/-- The instructions that do not wait for BUSY# nor test ERROR# (R609 step 2). -/
def escNoWait : Instr → Bool
  | .fnstenv _ => true
  | .fnstcw _ => true
  | .fnsave _ => true
  | .fnstsw _ => true
  | .feniGroup i => i == 2 || i == 3
  | .fnstswAx i => i == 0
  | _ => false

/-- The control instructions, which leave the kept addresses alone (R613; log entry 12): those that do not wait, FLDENV,
FLDCW, FRSTOR, and FENI, FDISI, FSETPM. -/
def escControl : Instr → Bool
  | .fldenv _ => true
  | .fldcw _ => true
  | .frstor _ => true
  | .feniGroup i => decide (i.val < 5)
  | i => escNoWait i

/-- The 11-bit opcode: the low three bits of the first byte and the ModRM byte (R603). -/
def escCode (i : Instr) : BitVec 11 :=
  match encode i with
  | b0 :: b1 :: _ => b0.extractLsb' 0 3 ++ b1
  | _ => 0

/-- `s` after the command has been issued with the operand's address (R603, R613). -/
def copIssued (s : State) (i : Instr) (sel : Word16) (off : Word32) : State :=
  let t := { s with bus := .copIssue (escCode i) s.cs.selector s.eip sel off :: s.bus }
  if escControl i then t
  else { t with cop :=
    { t.cop with cs := s.cs.selector, eip := s.eip, opcode := escCode i, sel := sel, off := off } }

/-- The number of bytes by operand size. -/
def escLength (s : State) (a b : Nat) : Nat :=
  match s.osz with
  | .s16 => a
  | .s32 => b

/-- The operand is accessible. -/
def EscUse.ready (s : State) : EscUse → Bool
  | .reads m a b => s.canAccess (s.ea m).1 (s.ea m).2 (escLength s a b) false
  | .writes m a b => s.canAccess (s.ea m).1 (s.ea m).2 (escLength s a b) true
  | _ => true

/-- The coprocessor asks for a store's bytes only after the 80386 has gone on: where PEREQ is not active already it may do
so, a free choice (R207, R610, log entry 12). -/
def storesLater (s : State) : Bool := s.cfg.coproc != .none && !s.pins.pereq && s.freeBit lateSlot

/-- The bytes of an item on the coprocessor's side: 4 with ET = 1, 2 with ET = 0 (R610, R612). -/
def itemBytes (s : State) : Nat := if s.cr0.et = true then 4 else 2

/-- `s` after the bytes of an operand have passed the coprocessor's data port, one cycle for each item, in ascending order
(R610). -/
def itemsPassed (s : State) (f : List Byte → BusEvent) (bs : List Byte) : State :=
  let k := itemBytes s
  let items := (List.range ((bs.length + k - 1) / k)).map fun i => (bs.drop (k * i)).take k
  { s with bus := (items.map f).reverse ++ s.bus }

/-- `s` after the 80386 has made the store `d` that was due: the bytes come from the coprocessor and go, item by item, to the
addresses checked before (R610). -/
def dueStored (s : State) (d : CopStore) : State :=
  let bs := (List.range d.addrs.length).map s.freeByte
  let t := itemsPassed { s with cop := { s.cop with due := none } } .copGet bs
  (t.busWrite (itemBytes s) d.addrs bs).noteAccess d.la bs.length true

/-- The state an ESC instruction leaves (R609, R610): no register changes but AX for FNSTSW AX, no flag; the bytes the
coprocessor returns are free (U18). A store may stay due. -/
def escAfter (i : Instr) (u : EscUse) (s : State) : State :=
  match u with
  | .none => copIssued s i 0 0
  | .reads m a b =>
    let p := s.ea m
    let n := escLength s a b
    let t := (copIssued s i (s.seg p.1).selector p.2).afterLoad p.1 p.2 n
    itemsPassed t .copPut (s.operandBytes p.1 p.2 n)
  | .writes m a b =>
    let p := s.ea m
    let bs := (List.range (escLength s a b)).map s.freeByte
    let t := copIssued s i (s.seg p.1).selector p.2
    let la := linear (s.seg p.1) p.2
    if storesLater s then { t with cop := { t.cop with due := some { la := la, addrs := byteAddrs la bs.length } } }
    else (itemsPassed t .copGet bs).afterStore p.1 p.2 bs
  | .ax =>
    let bs := (List.range 2).map s.freeByte
    let t := copIssued s i 0 0
    (itemsPassed t .copGet bs).setReg .w16 eax (valueOf .w16 bs)

/-- BUSY# is active (R603). -/
def busySeen (s : State) : Bool := s.cfg.coproc != .none && s.pins.busy

/-- ERROR# is active (R603). -/
def errorSeen (s : State) : Bool := s.cfg.coproc != .none && s.pins.error

/-- CR0.ET fits the coprocessor (R612). -/
def etFits (s : State) : Bool :=
  match s.cfg.coproc with
  | .none => true
  | .i80287 => !s.cr0.et
  | .i80387 => s.cr0.et

/-! ## Legality -/

/-- The memory destination forms that LOCK may precede (R101). -/
def lockable : Instr → Bool
  | .add f => aluToMem f
  | .or f => aluToMem f
  | .adc f => aluToMem f
  | .sbb f => aluToMem f
  | .and f => aluToMem f
  | .sub f => aluToMem f
  | .xor f => aluToMem f
  | .inc f => incToMem f
  | .dec f => incToMem f
  | .neg f => isMem (unaryOperand f)
  | .not f => isMem (unaryOperand f)
  | .bts f => bitToMem f
  | .btr f => bitToMem f
  | .btc f => bitToMem f
  | .xchg f => xchgToMem f
  | _ => false

/-- The instructions that exist in protected mode only (R554 to R557, R566 to R570). -/
def protectedOnly : Instr → Bool
  | .sldt _ => true
  | .str _ => true
  | .lldt _ => true
  | .ltr _ => true
  | .verr _ => true
  | .verw _ => true
  | .lar _ _ => true
  | .lsl _ _ => true
  | .arpl _ _ => true
  | _ => false

/-- MOV with the number of a control, debug or test register that does not exist (R49, R55, R56, D9). -/
def unnamed : Instr → Bool
  | .mov (.r32Cr _ n) => n == 1 || decide (4 ≤ n.val)
  | .mov (.crR32 n _) => n == 1 || decide (4 ≤ n.val)
  | .mov (.r32Dr _ n) => n == 4 || n == 5
  | .mov (.drR32 n _) => n == 4 || n == 5
  | .mov (.r32Tr _ n) => decide (n.val < 6)
  | .mov (.trR32 n _) => decide (n.val < 6)
  | _ => false

/-- The privileged instructions (R558). -/
def privileged : Instr → Bool
  | .lgdt _ => true
  | .lidt _ => true
  | .lldt _ => true
  | .ltr _ => true
  | .mov (.r32Cr _ _) => true
  | .mov (.r32Dr _ _) => true
  | .mov (.crR32 _ _) => true
  | .mov (.drR32 _ _) => true
  | .mov (.r32Tr _ _) => true
  | .mov (.trR32 _ _) => true
  | .lmsw _ => true
  | .clts => true
  | .hlt => true
  | _ => false

/-- PUSHF, POPF, INT n, IRET: sensitive to IOPL in virtual-8086 mode (R558, R686). -/
def v86Sensitive : Instr → Bool
  | .pushf => true
  | .popf => true
  | .int _ => true
  | .iret => true
  | _ => false

/-! ## Protected-mode transfers -/

/-- `s` with the accessed bit set of the descriptor `d` that was read at `la` (R131). -/
def accessedSet (s : State) (d : Desc) (la : Word32) : State :=
  if d.accessed then s else s.setPhysDword (la + 4) (s.physDword (la + 4) ||| 0x100)

/-- `s` with CS loaded from the descriptor `d` at level `cpl` and execution going on at `off` (R506). -/
def codeLoaded (s : State) (sel : Word16) (d : Desc) (la : Word32) (cpl : BitVec 2) (off : Word32) : State :=
  { accessedSet s d la with
    cs := d.toSeg (sel.extractLsb' 2 14 ++ cpl), cpl := cpl, eip := off, stale := Stale.none }

/-- The code segment a selector names, with its address, paging being off. -/
def codeAt (s : State) (sel : Word16) : Option (Desc × Word32) :=
  if selNull sel || !s.flat then none
  else
    match s.descAddr sel with
    | some la => if (descAt s la).isCode && (descAt s la).present then some (descAt s la, la) else none
    | none => none

/-- A direct far jump or call may reach the segment (R501). -/
def directAllowed (s : State) (sel : Word16) (d : Desc) : Bool :=
  if d.conforming then lvlLe d.dpl s.cpl else lvlLe (selRpl sel) s.cpl && d.dpl == s.cpl

/-- A return may go to the segment at the same level (R508). -/
def returnAllowed (s : State) (sel : Word16) (d : Desc) : Bool :=
  selRpl sel == s.cpl && (if d.conforming then lvlLe d.dpl s.cpl else d.dpl == s.cpl)

/-- `off` lies in the segment. -/
def inSegment (d : Desc) (off : Word32) : Bool := decide (off.toNat ≤ d.limit.toNat)

/-- `k` items of `n` bytes have room below the stack pointer (R502, R503, R646). -/
def roomFor (s : State) (n k : Nat) : Bool :=
  (List.range k).all fun i => s.inReach s.ss (below s s.sp n (i + 1)) n

/-- The checks on the selector of a code segment and its descriptor; `allowed` is the rule's test of privilege (R501, R503,
R646). -/
def codeChecks (s : State) (sel : Word16) (allowed : Bool) : List Check :=
  let d := namedDesc s sel
  [(!selNull sel, 13, 0), ((s.descAddr sel).isSome, 13, selCode sel), (d.isCode, 13, selCode sel),
    (allowed, 13, selCode sel), (d.present, 11, selCode sel)]

/-- The checks that follow at the same level: the room for `k` items of `n` bytes, and the entry point in the segment (R501 to
R503, R646); the pushes themselves come last. -/
def entryChecks (s : State) (n k : Nat) (d : Desc) (off : Word32) : List Check :=
  [(roomFor s n k, 12, 0), (inSegment d off, 13, 0), (canPushItems s n k, 12, 0)]

/-- The selector names a call gate, a free task state segment or a task gate (R501). -/
def namesSystem (s : State) (sel : Word16) : Bool :=
  let d := namedDesc s sel
  !selNull sel && !d.isSegment && [1, 4, 5, 9, 12].contains d.type

/-- The checks of a far JMP or CALL whose selector names none of these (R501, R502). -/
def directChecks (s : State) (call : Bool) (sel : Word16) (off : Word32) : List Check :=
  let d := namedDesc s sel
  codeChecks s sel (directAllowed s sel d) ++ entryChecks s s.osz.bytes (if call then 2 else 0) d off

/-- The checks on the CS selector of a far return or an IRET and its descriptor (R508, R512). -/
def returnChecks (s : State) (sel : Word16) : List Check :=
  let d := namedDesc s sel
  [(!selNull sel, 13, 0), (lvlLe s.cpl (selRpl sel), 13, selCode sel), ((s.descAddr sel).isSome, 13, selCode sel),
    (d.isCode, 13, selCode sel), (if d.conforming then lvlLe d.dpl (selRpl sel) else d.dpl == selRpl sel, 13, selCode sel),
    (d.present, 11, selCode sel)]

/-- The checks of a return whose frame of CS and EIP (and EFLAGS) the stack holds: to an outer level the stack pointer and SS
stand `used` bytes above the stack pointer (R508, R509, R512). -/
def frameChecks (s : State) (used : Nat) : List Check :=
  let b := s.osz.bytes
  let off := frameItem s s.osz 0
  let sel : Word16 := (frameItem s s.osz b).truncate 16
  let ssel : Word16 := (frameItem s s.osz (used + b)).truncate 16
  let inside : Check := (inSegment (namedDesc s sel) off, 13, 0)
  returnChecks s sel ++
    (if selRpl sel = s.cpl then [inside]
    else (held s (used + 2 * b), 12, 0) :: (!selNull ssel, 13, 0) :: stackChecks s 13 (selRpl sel) ssel ++ [inside])

/-- The gate of an event in the interrupt table (R646). -/
def gateAt (s : State) (v : Byte) : Desc := descAt s (s.idtr.base + BitVec.ofNat 32 (8 * v.toNat))

/-- The event may use its gate, an interrupt or trap gate (R646 steps 1 and 2). -/
def gateUsable (s : State) (ev : Event) : Bool :=
  let g := gateAt s ev.vector
  s.cr0.pe && s.flat && decide (8 * ev.vector.toNat + 7 ≤ s.idtr.limit.toNat) && !g.isSegment &&
    [6, 7, 14, 15].contains g.type && (ev.kind != .software || lvlLe s.cpl g.dpl) && g.present

/-- The vector of INT n, INT 3 and INTO where it runs and, for INTO, OF is set (R510, R518). -/
def softVector (s : State) : Instr → Option Byte
  | .int v => if s.v86 && s.flags.iopl != 3 then none else some v
  | .int3 => some 3
  | .into => if s.flags.ovf then some 4 else none
  | _ => none

/-- The event of a software interrupt: the address saved is that of the next instruction, there is no error code, and RF is
0 in the image (R510, R640). -/
def softEvent (s : State) (v : Byte) : Event :=
  { vector := v, kind := .software, ret := s.nextEip, code := none, rf := false }

/-- The exception a software interrupt raises in place of the use of its gate: 13 beyond the limit of the interrupt table,
for an entry that is no gate, and for a gate with DPL below CPL, 11 for a gate that is not present (R510, R646 step 1). -/
def softRefused (s : State) (v : Byte) : Option Byte :=
  let g := gateAt s v
  if s.idtr.limit.toNat < 8 * v.toNat + 7 then some 13
  else if g.isSegment || !([5, 6, 7, 14, 15].contains g.type) then some 13
  else if g.dpl.toNat < s.cpl.toNat then some 13
  else if !g.present then some 11
  else none

/-- The checks of step 1 of R646 on the entry of the interrupt table; the error code is without EXT, which the delivery of an
exception or external interrupt sets (R642). -/
def idtChecks (s : State) (ev : Event) : List Check :=
  let g := gateAt s ev.vector
  let c : Word32 := BitVec.ofNat 32 (8 * ev.vector.toNat + 2)
  [(decide (8 * ev.vector.toNat + 7 ≤ s.idtr.limit.toNat), 13, c), (!g.isSegment && [5, 6, 7, 14, 15].contains g.type, 13, c),
    (ev.kind != .software || lvlLe s.cpl g.dpl, 13, c), (g.present, 11, c)]

/-- The flags, CS, return address and error code pushed last (R646): the image has the event's RF. -/
def eventFrame (s : State) (ev : Event) : List Word32 :=
  [{ s.flags with rf := ev.rf }.toWord, s.cs.selector.zeroExtend 32, ev.ret] ++ ev.code.toList

/-- `s`, with the frame on the stack, about to run the handler (R646, R650): TF, NT, RF and VM are clear, IF is clear
after an interrupt gate. Entry to vector 1 clears DR7.GD (R625). -/
def handlerStarted (s : State) (g d : Desc) (la : Word32) (cpl : BitVec 2) (v : Byte) : State :=
  let t := codeLoaded s (gateSelector g) d la cpl (gateOffset g (gateSize g))
  { t with
    flags := { s.flags with
      tf := false, nt := false, rf := false, vm := false, intf := s.flags.intf && g.type % 2 == 1 }
    dr7 := if v = 1 then s.dr7 &&& 0xFFFFDFFF else s.dr7
    pfx := Pfx.none, shadow := .none, midRep := false, run := .executing }

/-- The event can be taken at the same level, in the segment `d` at `la` (R646). -/
def sameLevelReady (s : State) (ev : Event) (d : Desc) (la : Word32) : Prop :=
  let g := gateAt s ev.vector
  gateUsable s ev = true ∧ s.flags.vm = false ∧ codeAt s (gateSelector g) = some (d, la) ∧ lvlLe d.dpl s.cpl = true ∧
    (d.conforming = true ∨ d.dpl = s.cpl) ∧ inSegment d (gateOffset g (gateSize g)) = true ∧
    canPushItems s (gateSize g).bytes (eventFrame s ev).length = true

/-- `s` after the event has been taken at the same level (R646, R650). -/
def sameLevelEntered (s : State) (ev : Event) (d : Desc) (la : Word32) : State :=
  let g := gateAt s ev.vector
  handlerStarted (pushedItems s (gateSize g) (eventFrame s ev)) g d la s.cpl ev.vector

/-- The stack of level `n` in the current task state segment: selector and stack pointer (R504). -/
def innerPointer (s : State) (n : BitVec 2) : Word16 × Word32 :=
  let k := n.toNat
  if s.tr.is386 then
    ((s.physDword (s.tr.base + BitVec.ofNat 32 (8 * k + 8))).extractLsb' 0 16,
      s.physDword (s.tr.base + BitVec.ofNat 32 (8 * k + 4)))
  else
    ((s.physDword (s.tr.base + BitVec.ofNat 32 (4 * k + 4))).extractLsb' 0 16,
      ((s.physDword (s.tr.base + BitVec.ofNat 32 (4 * k + 2))).extractLsb' 0 16).zeroExtend 32)

/-- The entry of level `n` lies in the task state segment (R504). -/
def innerInTss (s : State) (n : BitVec 2) : Bool :=
  decide ((if s.tr.is386 then 8 * n.toNat + 9 else 4 * n.toNat + 5) ≤ s.tr.limit.toNat)

/-- The stack segment a selector names for level `n`, paging being off (R504). -/
def stackAt (s : State) (n : BitVec 2) (sel : Word16) : Option (Desc × Word32) :=
  if selNull sel || !s.flat then none
  else
    match s.descAddr sel with
    | some la =>
      let d := descAt s la
      if selRpl sel == n && d.writable && d.dpl == n && d.present then some (d, la) else none
    | none => none

/-- The checks on the stack of level `n` in the task state segment and on the room for `k` items of `b` bytes on it (R504,
R647). -/
def innerChecks (s : State) (n : BitVec 2) (b k : Nat) : List Check :=
  let p := innerPointer s n
  let g := (namedDesc s p.1).toSeg p.1
  let fits (i : Nat) : Bool := inLimit g (wrapTo (if g.db then .s32 else .s16) (p.2 - BitVec.ofNat 32 (b * (i + 1)))) b
  (innerInTss s n, 10, selCode s.tr.selector) :: (!selNull p.1, 10, 0) :: stackChecks s 10 n p.1 ++
    [((List.range k).all fits, 12, selCode p.1)]

/-- `s` on the stack of level `n`; virtual-8086 mode ends (R504, R648). -/
def onInnerStack (s : State) (n : BitVec 2) (d : Desc) (la : Word32) : State :=
  let p := innerPointer s n
  let t := { accessedSet s d la with ss := d.toSeg p.1, cpl := n, flags := { s.flags with vm := false } }
  t.setSp p.2

/-- The frame of an inner entry: the data segments of virtual-8086 mode first, then the old stack (R647, R648). -/
def innerFrame (s : State) (ev : Event) : List Word32 :=
  let old := [s.ss.selector.zeroExtend 32, s.reg32 esp] ++ eventFrame s ev
  let item (g : SegReg) : Word32 := g.selector.zeroExtend 32
  if s.v86 then [item s.gs, item s.fs, item s.ds, item s.es] ++ old else old

/-- The checks of steps 3 and 4 of R646 on the handler's segment, of an event that may use its gate, an interrupt or trap gate:
from virtual-8086 mode the handler is at level 0 (R648). -/
def handlerChecks (s : State) (ev : Event) : List Check :=
  let csel := gateSelector (gateAt s ev.vector)
  let d := namedDesc s csel
  codeChecks s csel (lvlLe d.dpl s.cpl) ++
    [(!s.v86 || (!d.conforming && d.dpl != s.cpl && d.dpl == 0), 13, selCode csel)]

/-- The checks of steps 3 to 5 of R646 and of R647. -/
def gateEntryChecks (s : State) (ev : Event) : List Check :=
  let g := gateAt s ev.vector
  let sz := gateSize g
  let csel := gateSelector g
  let d := namedDesc s csel
  let inner := !d.conforming && d.dpl != s.cpl
  handlerChecks s ev ++
    (if inner then innerChecks s d.dpl sz.bytes (innerFrame s ev).length ++ [(inSegment d (gateOffset g sz), 13, 0)]
    else entryChecks s sz.bytes (eventFrame s ev).length d (gateOffset g sz))

/-- DS, ES, FS and GS are null after an entry from virtual-8086 mode (R648). -/
def dataNulled (s : State) (fromV86 : Bool) : State :=
  let z (g : SegReg) : SegReg := { g with selector := 0, usable := false }
  if fromV86 then { s with es := z s.es, ds := z s.ds, fs := z s.fs, gs := z s.gs } else s

/-- The event can be taken at an inner level, in the segment `d` at `la`, on the stack segment `sd` at `sla` (R646 to
R648). -/
def innerReady (s : State) (ev : Event) (d sd : Desc) (la sla : Word32) : Prop :=
  let g := gateAt s ev.vector
  gateUsable s ev = true ∧ codeAt s (gateSelector g) = some (d, la) ∧ d.conforming = false ∧
    lvlLe d.dpl s.cpl = true ∧ d.dpl ≠ s.cpl ∧ (s.v86 = true → d.dpl = 0 ∧ gateSize g = .s32) ∧
    innerInTss s d.dpl = true ∧ stackAt s d.dpl (innerPointer s d.dpl).1 = some (sd, sla) ∧
    inSegment d (gateOffset g (gateSize g)) = true ∧
    canPushItems (onInnerStack s d.dpl sd sla) (gateSize g).bytes (innerFrame s ev).length = true

/-- `s` after the event has been taken at an inner level (R646 to R648, R650). -/
def innerEntered (s : State) (ev : Event) (d sd : Desc) (la sla : Word32) : State :=
  let g := gateAt s ev.vector
  let t := pushedItems (onInnerStack s d.dpl sd sla) (gateSize g) (innerFrame s ev)
  handlerStarted (dataNulled t s.v86) g d la d.dpl ev.vector

/-! ## Call gates and outer returns -/

/-- The call gate a selector names, if a jump or call may use it (R503). -/
def callGateAt (s : State) (sel : Word16) : Option Desc :=
  if selNull sel || !s.flat then none
  else
    match s.descAddr sel with
    | some la =>
      let g := descAt s la
      if !g.isSegment && (g.type == 4 || g.type == 12) && privOk s.cpl sel g && g.present then some g else none
    | none => none

/-- What an inner call through gate `g` finds on the old stack and pushes on the new one: the old stack pointer, the
parameters in their order, CS and the address of the next instruction (R504). The offsets of the parameters go round modulo
the size of the old stack pointer (log entry 41). -/
def innerCallFrame (s : State) (g : Desc) : List Word32 :=
  let params := (List.range (g.extractLsb' 32 5).toNat).map fun k => item s (gateSize g) k
  [s.ss.selector.zeroExtend 32, s.reg32 esp] ++ params.reverse ++ [s.cs.selector.zeroExtend 32, s.nextEip]

/-- The checks of a far JMP or CALL whose selector names a call gate (R503, R504). The segment the gate names is not less
privileged; a jump does not change the level. -/
def gateChecks (s : State) (call : Bool) (sel : Word16) : List Check :=
  let g := namedDesc s sel
  let sz := gateSize g
  let csel := gateSelector g
  let d := namedDesc s csel
  let inner := !d.conforming && d.dpl != s.cpl
  let count := (g.extractLsb' 32 5).toNat
  (privOk s.cpl sel g, 13, selCode sel) :: (g.present, 11, selCode sel) ::
    codeChecks s csel (lvlLe d.dpl s.cpl && (call || !inner)) ++
    (if inner then
      innerChecks s d.dpl sz.bytes (4 + count) ++
        [(inSegment d (gateOffset g sz), 13, 0), (canPeekItems s sz count, 12, 0)]
    else entryChecks s sz.bytes (if call then 2 else 0) d (gateOffset g sz))

/-- A return may go out to the segment (R508, R509). -/
def outerAllowed (s : State) (sel : Word16) (d : Desc) : Bool :=
  decide (s.cpl.toNat < (selRpl sel).toNat) && (if d.conforming then lvlLe d.dpl (selRpl sel) else d.dpl == selRpl sel)

/-- A data segment register after a return to level `r`: it is made null where its segment is data or non-conforming
code of a more privileged level (R509). -/
def leftBehind (g : SegReg) (r : BitVec 2) : SegReg :=
  if g.usable ∧ ¬(g.code ∧ g.ec) ∧ g.dpl.toNat < r.toNat then { g with selector := 0, usable := false } else g

/-- `s` after a return to the outer level of `sel`, with the outer stack `ssel`, `nesp` (R509); with a 16-bit operand
ESP[31:16] is free (U15). -/
def outerReturned (s : State) (sel : Word16) (d : Desc) (la : Word32) (off : Word32) (ssel : Word16) (sd : Desc)
    (sla : Word32) (nesp : Word32) : State :=
  let r := selRpl sel
  let t := { accessedSet (codeLoaded s sel d la r off) sd sla with ss := sd.toSeg ssel }
  let u := match s.osz with
    | .s16 => t.setReg32 esp ((s.freeWord espSlot).extractLsb' 16 16 ++ (nesp.truncate 16 : Word16))
    | .s32 => t.setSp nesp
  jumped { u with es := leftBehind u.es r, ds := leftBehind u.ds r, fs := leftBehind u.fs r, gs := leftBehind u.gs r } off

/-- `s` after IRET to virtual-8086 mode with the nine double words of its frame on top of the stack (R513). -/
def v86Returned (s : State) : State :=
  let it (k : Nat) : Word32 := frameItem s .s32 (4 * k)
  let sel (k : Nat) : SegReg := SegReg.v86 ((it k).truncate 16)
  let t := jumped (afterFrame s .s32 [0, 4, 8, 12, 16, 20, 24, 28, 32]) (it 0 &&& 0xFFFF)
  { t.setReg32 esp (it 3) with
    flags := { EFlags.ofWord (it 2) with vm := true }, cpl := 3, nmiBlocked := false
    cs := sel 1, ss := sel 4, es := sel 5, ds := sel 6, fs := sel 7, gs := sel 8 }

/-! ## The task switch -/

/-- The value of width `w` at a linear address, paging being off. -/
def fieldAt (s : State) (w : Width) (la : Word32) : BitVec w.bits := valueOf w ((byteAddrs la w.bytes).map s.physByte)

/-- `s` with the value of width `w` at a linear address stored, paging being off. -/
def withField (s : State) (w : Width) (la : Word32) (v : BitVec w.bits) : State :=
  s.setPhysBytes (byteAddrs la w.bytes) (bytesOf w v)

/-- The outgoing task in its task state segment: the offsets and values of the 80386 format (R152) and of the 80286 format
(R522), the registers first, then the selectors, EFLAGS and EIP (R520 step 2). -/
def taskSaved (s : State) (ret : Word32) (f : EFlags) : State :=
  let at_ (k : Nat) : Word32 := s.tr.base + BitVec.ofNat 32 k
  let low (v : Word32) : Word16 := v.truncate 16
  if s.tr.is386 then
    let regs := (List.finRange 8).map fun i => (0x28 + 4 * i.val, s.reg32 i)
    let sels := [(0x48, s.es), (0x4C, s.cs), (0x50, s.ss), (0x54, s.ds), (0x58, s.fs), (0x5C, s.gs)]
    let t := regs.foldl (fun t p => withField t .w32 (at_ p.1) p.2) s
    let t := sels.foldl (fun t p => withField t .w16 (at_ p.1) p.2.selector) t
    withField (withField t .w32 (at_ 0x24) f.toWord) .w32 (at_ 0x20) ret
  else
    let words := ((List.finRange 8).map fun i => (0x12 + 2 * i.val, low (s.reg32 i))) ++
      [(0x22, s.es.selector), (0x24, s.cs.selector), (0x26, s.ss.selector), (0x28, s.ds.selector),
        (0x10, low f.toWord), (0x0E, low ret)]
    words.foldl (fun t p => withField t .w16 (at_ p.1) p.2) s

/-- The double word of the GDT that holds the busy bit, bit 9, of a task's descriptor (R520). -/
def busyWord (s : State) (sel : Word16) : Word32 := s.gdtAddr sel + 4

/-- Steps 2 to 4 of R520: the outgoing task is saved, the busy bits and the back link are written, TR is loaded, CR0.TS
is set. A null selector in TR has no busy bit (R124). -/
def taskLeft (s : State) (tsel : Word16) (kind : SwitchKind) (ret : Word32) (rf : Bool) : State :=
  let nd := gdtEntry s tsel
  let t := taskSaved s ret { s.flags with rf := rf, nt := s.flags.nt && decide (kind ≠ .iret) }
  let t :=
    if (kind = .jmp ∨ kind = .iret) ∧ selNull s.tr.selector = false then
      withField t .w32 (busyWord s s.tr.selector) (fieldAt t .w32 (busyWord s s.tr.selector) &&& ~~~0x200)
    else t
  let t := if kind = .iret then t
    else withField t .w32 (busyWord s tsel) (fieldAt t .w32 (busyWord s tsel) ||| 0x200)
  let t := if kind = .call ∨ kind = .int then withField t .w16 nd.base s.tr.selector else t
  { t with
    tr := { selector := tsel, base := nd.base, limit := nd.limit, is386 := decide (9 ≤ nd.type) }
    cr0 := { s.cr0 with ts := true } }

/-- The selector `k` of a task image: ES, CS, SS, DS, FS, GS; an 80286 task has no FS and GS (R152, R522). -/
def imageSel (t : State) (k : Nat) : Word16 :=
  if t.tr.is386 then fieldAt t .w16 (t.tr.base + BitVec.ofNat 32 (0x48 + 4 * k))
  else if k < 4 then fieldAt t .w16 (t.tr.base + BitVec.ofNat 32 (0x22 + 2 * k))
  else 0

/-- The general register `i` of a task image; from an 80286 task its upper half is free (U16). -/
def imageReg (t : State) (i : Fin 8) : Word32 :=
  if t.tr.is386 then fieldAt t .w32 (t.tr.base + BitVec.ofNat 32 (0x28 + 4 * i.val))
  else (t.freeWord (taskSlot i.val)).extractLsb' 16 16 ++
    (fieldAt t .w16 (t.tr.base + BitVec.ofNat 32 (0x12 + 2 * i.val)) : Word16)

/-- The EIP, the flags and the LDT selector of a task image. -/
def imageHead (t : State) : Word32 × EFlags × Word16 :=
  if t.tr.is386 then
    (fieldAt t .w32 (t.tr.base + 0x20), EFlags.ofWord (fieldAt t .w32 (t.tr.base + 0x24)),
      fieldAt t .w16 (t.tr.base + 0x60))
  else
    ((fieldAt t .w16 (t.tr.base + 0x0E)).zeroExtend 32,
      EFlags.ofWord ((fieldAt t .w16 (t.tr.base + 0x10)).zeroExtend 32), fieldAt t .w16 (t.tr.base + 0x2A))

/-- Step 5 of R520: the image of the new task is loaded, no segment register is usable yet; the local breakpoints of DR7 are
off (R625). CPL is the model's choice (log entry 17). -/
def taskImaged (t : State) (nested : Bool) : State :=
  let h := imageHead t
  let g (old : SegReg) (k : Nat) : SegReg := { old with selector := imageSel t k, usable := false }
  let cr3 : Word32 := fieldAt t .w32 (t.tr.base + 0x1C)
  { t with
    cr3 := if t.tr.is386 then cr3 &&& 0xFFFFF000 else t.cr3
    tlb := if t.tr.is386 then [] else t.tlb
    eip := h.1, flags := { h.2.1 with nt := h.2.1.nt || nested }, regs := Vector.ofFn (imageReg t)
    es := g t.es 0, cs := g t.cs 1, ss := g t.ss 2, ds := g t.ds 3, fs := g t.fs 4, gs := g t.gs 5
    cpl := if h.2.1.vm then 3 else selRpl (imageSel t 1)
    ldtr := { t.ldtr with selector := h.2.2, valid := false }
    dr7 := t.dr7 &&& 0xFFFFFEAA, stale := Stale.none }

/-- The segment registers of a list can be loaded in turn from the selectors they hold. -/
def loadsInTurn : List SReg → State → Bool
  | [], _ => true
  | r :: rs, t => segLoads t r (t.seg r).selector && loadsInTurn rs (afterSegLoad t r (t.seg r).selector)

/-- The registers loaded after CS, in the order of R520 step 7. -/
def afterCs : List SReg := [.ss, .ds, .es, .fs, .gs]

/-- `t` with CS loaded from the selector it holds (R520 step 7). -/
def taskCsLoaded (t : State) : State :=
  match codeAt t t.cs.selector with
  | some (d, la) => { accessedSet t d la with cs := d.toSeg t.cs.selector, cpl := selRpl t.cs.selector }
  | none => t

/-- CS can be loaded from the selector it holds (R520 step 7). -/
def taskCsReady (t : State) : Bool :=
  match codeAt t t.cs.selector with
  | some (d, _) => if d.conforming then lvlLe d.dpl (selRpl t.cs.selector) else d.dpl == selRpl t.cs.selector
  | none => false

/-- Step 7 of R520 completes. -/
def taskSegsReady (t : State) : Bool := t.flags.vm || (taskCsReady t && loadsInTurn afterCs (taskCsLoaded t))

/-- Step 7 of R520: the segment registers, in virtual-8086 mode from their selectors alone. -/
def taskSegsLoaded (t : State) : State :=
  if t.flags.vm then [SReg.es, .cs, .ss, .ds, .fs, .gs].foldl (fun u r => u.setSeg r (SegReg.v86 (u.seg r).selector)) t
  else afterCs.foldl (fun u r => afterSegLoad u r (u.seg r).selector) (taskCsLoaded t)

/-- `s` after the switch to the task `tsel` (R520): `ret` and `rf` are the EIP and the RF of the saved image. The debug
trap of the new task's T bit is pending (R152). -/
def taskSwitched (s : State) (tsel : Word16) (kind : SwitchKind) (ret : Word32) (rf : Bool) : State :=
  let t := taskLeft s tsel kind ret rf
  let u := taskImaged t (decide (kind = .call ∨ kind = .int))
  let v := taskSegsLoaded (ldtLoaded u u.ldtr.selector)
  let w : Word16 := fieldAt v .w16 (v.tr.base + 0x64)
  if v.tr.is386 && w.getLsbD 0 then { v with trap := { v.trap with task := true } } else v

/-- The switch to the task `tsel` completes: the checks of steps 1, 6, 7 and 8 of R520, and that of the outgoing task's
descriptor where its busy bit is cleared (R124, log entry 37), paging being off. -/
def taskReady (s : State) (tsel : Word16) (kind : SwitchKind) (ret : Word32) (rf : Bool) : Bool :=
  let nd := gdtEntry s tsel
  let u := taskImaged (taskLeft s tsel kind ret rf) (decide (kind = .call ∨ kind = .int))
  let v := ldtLoaded u u.ldtr.selector
  s.flat && s.inGdt tsel && !nd.isSegment && (if kind = .iret then [3, 11] else [1, 9]).contains nd.type &&
    nd.present && decide ((if 9 ≤ nd.type then 0x67 else 0x2B) ≤ nd.limit.toNat) &&
    (kind == .call || kind == .int || selNull s.tr.selector || s.inGdt s.tr.selector) &&
    lldtReady u u.ldtr.selector && taskSegsReady v && decide (v.eip.toNat ≤ (taskSegsLoaded v).cs.limit.toNat)

/-- The checks of step 1 of R520, before the commit point: with IRET a failure is exception 10 and the task is busy. -/
def taskChecks (s : State) (tsel : Word16) (kind : SwitchKind) : List Check :=
  let nd := gdtEntry s tsel
  let v : Byte := if kind = .iret then 10 else 13
  let c := selCode tsel
  [(s.inGdt tsel, v, c), (!nd.isSegment && (if kind = .iret then [3, 11] else [1, 9]).contains nd.type, v, c),
    (nd.present, 11, c), (decide ((if 9 ≤ nd.type then 0x67 else 0x2B) ≤ nd.limit.toNat), 10, c)]

/-- The checks of a far JMP or CALL whose selector names a task state segment or a task gate (R505). -/
def taskEntryChecks (s : State) (call : Bool) (sel : Word16) : List Check :=
  let d := namedDesc s sel
  let kind : SwitchKind := if call then .call else .jmp
  (privOk s.cpl sel d, 13, selCode sel) ::
    (if d.type = 5 then (d.present, 11, selCode sel) :: taskChecks s (gateSelector d) kind else taskChecks s sel kind)

/-- The checks of step 7 of R520 on the selector a data or stack segment register holds. -/
def taskSegChecks (t : State) (r : SReg) : List Check :=
  let sel := (t.seg r).selector
  if r = .ss then (!selNull sel, 10, selCode sel) :: stackChecks t 10 t.cpl sel
  else if selNull sel then []
  else dataChecks t 10 sel

/-- The first exception of a list of segment registers loaded in turn, and the state it finds (R520 step 7). -/
def taskSegsFault : List SReg → State → Option ((Byte × Word32) × State)
  | [], _ => none
  | r :: rs, t =>
    match firstFailing (taskSegChecks t r) with
    | some e => some (e, t)
    | none => taskSegsFault rs (afterSegLoad t r (t.seg r).selector)

/-- The checks of step 7 of R520 on the CS selector of the new task. -/
def taskCsChecks (t : State) : List Check :=
  let sel := t.cs.selector
  let d := namedDesc t sel
  [(!selNull sel, 10, selCode sel), ((t.descAddr sel).isSome, 10, selCode sel), (d.isCode, 10, selCode sel),
    (if d.conforming then lvlLe d.dpl (selRpl sel) else d.dpl == selRpl sel, 10, selCode sel), (d.present, 11, selCode sel)]

/-- The exception of steps 6 to 8 of R520 in a switch whose outgoing task is saved, and the state of the new task that it
finds: LDTR, CS, SS, DS, ES, FS, GS, and EIP within CS. -/
def taskFault (s : State) (tsel : Word16) (kind : SwitchKind) (ret : Word32) (rf : Bool) :
    Option ((Byte × Word32) × State) :=
  let u := taskImaged (taskLeft s tsel kind ret rf) (decide (kind = .call ∨ kind = .int))
  let v := ldtLoaded u u.ldtr.selector
  let w := taskSegsLoaded v
  if lldtReady u u.ldtr.selector = false then some ((10, selCode u.ldtr.selector), u)
  else
    match if u.flags.vm then none else (firstFailing (taskCsChecks v)).map fun e => (e, v) with
    | some x => some x
    | none =>
      match if u.flags.vm then none else taskSegsFault afterCs (taskCsLoaded v) with
      | some x => some x
      | none => if w.eip.toNat ≤ w.cs.limit.toNat then none else some ((13, 0), w)

/-- The new task `t` with an exception that waits to be taken before its first instruction (R520). -/
def taskPostponed (t : State) (e : Byte × Word32) : State :=
  { t with
    pending := some { vector := e.1, kind := .exception, ret := t.eip, code := some e.2, rf := true }
    pfx := Pfx.none, shadow := .none, midRep := false, run := .executing }

/-- The switch to `tsel` passes step 1 of R520, and the outgoing task's descriptor can be marked free where it must (R124, log
entry 37). -/
def taskCommits (s : State) (tsel : Word16) (kind : SwitchKind) : Bool :=
  s.flat && (firstFailing (taskChecks s tsel kind)).isNone &&
    (kind == .call || kind == .int || selNull s.tr.selector || s.inGdt s.tr.selector)

/-- The task a far pointer's selector names, by a task state segment or a task gate (R505). -/
def taskNamed (s : State) (sel : Word16) : Option Word16 :=
  if selNull sel || !s.flat then none
  else
    match s.descAddr sel with
    | some la =>
      let d := descAt s la
      if d.isSegment || !privOk s.cpl sel d then none
      else if d.type == 1 || d.type == 9 then some sel
      else if d.type == 5 && d.present then some (gateSelector d)
      else none
    | none => none

/-- The event may use its gate, a task gate (R646 steps 1 and 2, R651). -/
def taskGateUsable (s : State) (ev : Event) : Bool :=
  let g := gateAt s ev.vector
  s.cr0.pe && s.flat && decide (8 * ev.vector.toNat + 7 ≤ s.idtr.limit.toNat) && !g.isSegment && g.type == 5 &&
    (ev.kind != .software || lvlLe s.cpl g.dpl) && g.present

/-- `s` about to run a handler that a task gate reached (R651, R625). -/
def taskHandlerStarted (s : State) (v : Byte) : State :=
  { s with
    dr7 := if v = 1 then s.dr7 &&& 0xFFFFDFFF else s.dr7
    stale := Stale.none, pfx := Pfx.none, shadow := .none, midRep := false, run := .executing }

/-- `s` after the event has been taken through its task gate (R651): an error code goes on the new stack. -/
def taskEntered (s : State) (ev : Event) : State :=
  let u := taskSwitched s (gateSelector (gateAt s ev.vector)) .int ev.ret ev.rf
  let sz : Size := if u.tr.is386 then .s32 else .s16
  taskHandlerStarted (pushedItems u sz ev.code.toList) ev.vector

/-- The event can be taken through its task gate (R651). -/
def taskEntryReady (s : State) (ev : Event) : Bool :=
  let tsel := gateSelector (gateAt s ev.vector)
  let u := taskSwitched s tsel .int ev.ret ev.rf
  taskGateUsable s ev && taskReady s tsel .int ev.ret ev.rf &&
    (ev.code.isNone || u.canPush (if u.tr.is386 then .s32 else .s16))

/-! ## Debug conditions -/

/-- Condition `n` is enabled: bit 2n or 2n + 1 of DR7 (R55, R625). -/
def conditionOn (s : State) (n : Fin 4) : Bool := s.dr7.getLsbD (2 * n.val) || s.dr7.getLsbD (2 * n.val + 1)

/-- RWn: 0 instructions, 1 writes, 3 reads and writes (R55). -/
def conditionKind (s : State) (n : Fin 4) : Nat := s.dr7.toNat / 2 ^ (16 + 4 * n.val) % 4

/-- LENn: 0, 1 and 3 for one, two and four bytes; 2 is undefined (R55). -/
def conditionLen (s : State) (n : Fin 4) : Nat := s.dr7.toNat / 2 ^ (18 + 4 * n.val) % 4

/-- The address in DRn. -/
def conditionAddr (s : State) (n : Fin 4) : Nat := (#v[s.dr0, s.dr1, s.dr2, s.dr3][n] : Word32).toNat

/-- The access to the `len` bytes at `la` meets data condition `n`: a byte of it lies in the aligned block of LENn bytes that
holds the address in DRn, and the kind fits (R625 (b)). -/
def dataMet (s : State) (n : Fin 4) (la : Word32) (len : Nat) (write : Bool) : Bool :=
  let size := conditionLen s n + 1
  (conditionKind s n == 3 || (conditionKind s n == 1 && write)) &&
    (List.range len).any fun k => (la + BitVec.ofNat 32 k).toNat / size == conditionAddr s n / size

/-- The offset of the instruction at EIP: a 16-bit code segment uses the low 16 bits (R25, R27; log entry 45). -/
def codeStart (s : State) : Nat := s.eip.toNat % modulus (sizeIf (wideCode s = true))

/-- The next instruction meets instruction condition `n` (R625 (a)). -/
def fetchMet (s : State) (n : Fin 4) : Bool :=
  conditionKind s n == 0 && conditionAddr s n == (s.cs.base.toNat + codeStart s) % 2 ^ 32

/-! ## Other bus masters -/

/-- What a group of stores by other masters leaves at an address: the last byte they stored there, or what was there. -/
def masterByte (s : State) (g : List MasterWrite) (a : Word32) : Byte :=
  match g.reverse.find? fun w => w.addr == a with
  | some w => w.byte
  | none => s.physByte a

/-- `s` in a locked sequence: the other masters have had the bus once, and have it no more (R100). -/
def lockedOut (s : State) : State := { s.turned with masters := [] }

/-- A read-modify-write that begins in `s`, from its read on: `l` is the operand, in one double word; another master may have
the bus before the read and again before the write (R89, R104). -/
def updatedInTurns (s : State) (w : Width) (l : Loc) (f : BitVec w.bits → BitVec w.bits × EFlags) : State :=
  let t := s.turned
  let r := f (t.valueAt w l)
  ((t.afterRead w l).withFlags r.2).turned.afterWrite w l r.1

/-! ## Faults during a delivery -/

/-- The contributory exceptions (R633). -/
def contributory : List Byte := [0, 10, 11, 12, 13]

/-- The second exception makes a double fault of the first event (R633); exception 8 arises in real mode only (R655). -/
def makesDouble (ev : Event) (v : Byte) : Bool :=
  v == 8 || (ev.kind == .exception &&
    ((contributory.contains ev.vector && contributory.contains v) ||
      (ev.vector == 14 && (contributory.contains v || v == 14))))

/-- `s` after what a failed delivery that reached `t` cannot undo (R637, R644). -/
def undone (s t : State) : State :=
  { s with
    mem := t.mem, masters := t.masters, stale := t.stale, tlb := t.tlb, cr2 := t.cr2, dr6 := t.dr6, dr7 := t.dr7
    bus := t.bus }

/-- `s` shut down (R693). That the shadow ends (log entry 31) and that the debug traps which it holds off are dropped (log
entry 42) are the model's choices. -/
def shutDownState (s : State) : State :=
  { s with run := .shutdown, bus := .shutdownCycle :: s.bus, pfx := Pfx.none, shadow := .none, midRep := false,
           trap := DebugTrap.none, pending := none }

/-! ## The start of an instruction -/

/-- The next step reads an instruction byte: no pin and no event comes before it, no condition that is enabled matches the
address (R643), and memory is the processor's alone, without paging and without stale instruction bytes. -/
def startsInstr (s : State) : Prop :=
  s.flat = true ∧ s.stale = Stale.none ∧ s.pins.reset = false ∧ s.pins.hold = false ∧
    (s.cop.due = none ∨ s.pins.pereq = false) ∧ s.run = .executing ∧ s.pending = none ∧ s.trap = DebugTrap.none ∧
    s.nmiLatch = false ∧ s.pins.intr = none ∧ (s.fetchMatches true = 0 ∨ s.flags.rf = true ∨ s.midRep = true)

/-- The offset of the next byte to fetch, after the prefixes read so far and `n` bytes more. -/
def fetchOffset (s : State) (n : Nat) : Nat := codeStart s + s.pfx.count + n

/-- The offset lies outside the code segment; in real mode the offsets end at FFFFH (R135, R138). -/
def outsideCode (s : State) (off : Nat) : Prop := s.cs.limit.toNat < off ∨ (s.cr0.pe = false ∧ 0xFFFF < off)

/-- The bytes `bs` stand after the prefixes read so far, inside the code segment. -/
def standsNext (s : State) (bs : List Byte) : Prop :=
  ∀ k : Fin bs.length, ¬outsideCode s (fetchOffset s k) ∧
    s.physByte (s.cs.base + BitVec.ofNat 32 (fetchOffset s k)) = bs[k]

/-- `s` in a step that reads an instruction: the step counter has advanced, and before the first byte the breakpoint matches
of conditions that are not enabled may set bits of DR6 (U22). -/
def started (s : State) : State :=
  let t := { s with tick := s.tick + 1, hlda := false }
  if s.pfx.count = 0 then t.maySetB (s.fetchMatches false) else t

/-- `s` in a step that has read `n` bytes of an instruction: EIP of the next one is modulo 2^16 in a 16-bit code segment
(R27, R278). -/
def decoded (s : State) (n : Nat) : State :=
  { started s with nextEip := BitVec.ofNat 32 (fetchOffset s n % modulus (sizeIf (wideCode s = true))) }

/-- A fault of the instruction at EIP: its event saves the EIP of the first byte, and RF is 1 in the image (R640, R644). -/
def faultAt (s : State) (v : Byte) (code : Option Word32) : Event :=
  { vector := v, kind := .exception, ret := s.eip, code := code, rf := true }

/-! ## Operand accesses -/

/-- The user access that an instruction's operands are at CPL 3 (R140, R164). -/
def operandUser (s : State) : Bool := decide (s.cpl.toNat = 3)

/-- The translations of an operand of `n` bytes: that of its first page, and where it crosses a page boundary that of the
next page; with both made, `done` goes on with the addresses of the bytes (R88). -/
def afterTranslation {α : Type} (s : State) (la : Word32) (n : Nat) (write : Bool)
    (done : State → List Word32 → EStateM.Result Stop State α) : EStateM.Result Stop State α :=
  let first := 4096 - la.toNat % 4096
  match translate la write (operandUser s) s with
  | .error e t => .error e t
  | .ok p t =>
    if n ≤ first then done t (byteAddrs p n)
    else
      match translate (la + BitVec.ofNat 32 first) write (operandUser s) t with
      | .error e u => .error e u
      | .ok q u => done u (byteAddrs p first ++ byteAddrs q (n - first))

/-! ## Paging -/

/-- The address of the directory entry of a linear address (R160). -/
def pdeAddr (s : State) (la : Word32) : Word32 := s.cr3.extractLsb' 12 20 ++ la.extractLsb' 22 10 ++ 0#2

/-- The address of the table entry (R160). -/
def pteAddr (s : State) (la : Word32) : Word32 :=
  (s.physDword (pdeAddr s la)).extractLsb' 12 20 ++ la.extractLsb' 12 10 ++ 0#2

/-- The rights of both levels (R164): user, writable. -/
def pageRights (s : State) (la : Word32) : Bool × Bool :=
  let pde := s.physDword (pdeAddr s la)
  let pte := s.physDword (pteAddr s la)
  (pde.getLsbD 2 && pte.getLsbD 2, pde.getLsbD 1 && pte.getLsbD 1)

/-- The access is allowed (R164). -/
def pagePermits (s : State) (la : Word32) (write user : Bool) : Bool :=
  !user || ((pageRights s la).1 && (!write || (pageRights s la).2))

/-- `s` after a walk: accessed and dirty bits are set (R166), the look-aside buffer holds the page (R163). -/
def walked (s : State) (la : Word32) (write : Bool) : State :=
  let pde := s.physDword (pdeAddr s la)
  let pte := s.physDword (pteAddr s la)
  let marks : Word32 := if write then 0x60 else 0x20
  let pte' := pte ||| marks
  let t := if pde.getLsbD 5 then s else s.setPhysDword (pdeAddr s la) (pde ||| 0x20)
  let t := if pte' = pte then t else t.setPhysDword (pteAddr s la) (t.physDword (pteAddr s la) ||| marks)
  let e : TlbEntry :=
    { page := la.extractLsb' 12 20, frame := pte.extractLsb' 12 20, user := (pageRights s la).1,
      writable := (pageRights s la).2, dirty := pte'.getLsbD 6 }
  { t with tlb := (e :: s.tlb.filter fun x => x.page != e.page).take s.cfg.tlbEntries }

/-- `s` without the look-aside entry of a page that has been forgotten. -/
def tlbLost (s : State) (page : BitVec 20) : State :=
  if Config.tlbForgets s.tick page.toNat then { s with tlb := s.tlb.filter fun e => e.page != page } else s

/-- The entry allows the access (R164). -/
def entryPermits (e : TlbEntry) (write user : Bool) : Bool := !user || (e.user && (!write || e.writable))

/-- The page fault's error code (R168). -/
def faultCode (present write user : Bool) : Word32 :=
  (if present then 1 else 0) + (if write then 2 else 0) + (if user then 4 else 0)

/-- A page fault at `la`: CR2 takes the address (R168). -/
def pageFaulted (s : State) (la : Word32) (present write user : Bool) : EStateM.Result Stop State Word32 :=
  .error (.exc { vector := 14, code := some (faultCode present write user), newTask := false }) { s with cr2 := la }

end Sys2Proof.Claims
open Sys2Proof Sys2Proof.Machine Sys2Proof.Claims

/-! ## Encoding and the step -/

/-- Decoding the encoding of a well-formed instruction gives it back, whatever bytes follow. -/
def Obligations.DecodeEncodeRoundTrip : Prop :=
  ∀ (osz asz : Size) (i : Instr) (rest : List Byte), i.wellFormed osz asz = true →
    decode osz asz (encode i ++ rest) = some (.instr i, rest)

/-- The decoder decides nothing before the last byte of an instruction has been read. -/
def Obligations.DecodeWaitsForLastByte : Prop :=
  ∀ (osz asz : Size) (i : Instr) (n : Nat), i.wellFormed osz asz = true → n < (encode i).length →
    decode osz asz ((encode i).take n) = none

/-- Words written out from the encoding tables decode to their instructions (R270 to R273, R301, R312). -/
def Obligations.WrittenWordsDecode : Prop :=
  decode .s32 .s32 [0x89, 0xD8] = some (.instr (.mov (.evGv (.reg 0) 3)), []) ∧
  decode .s32 .s32 [0x8D, 0x44, 0x88, 0x10] = some (.instr (.lea 0 (.sib 2 1 0 (.d8 0x10))), []) ∧
  decode .s16 .s16 [0x05, 0x34, 0x12] = some (.instr (.add (.eaxIv (.w 0x1234))), []) ∧
  decode .s16 .s16 [0x83, 0x47, 0x02, 0xFF] = some (.instr (.add (.evIbs (.mem (.based16 .bx (.d8 2))) 0xFF)), []) ∧
  decode .s32 .s32 [0x0F, 0xB6, 0xC3] = some (.instr (.movzx (.gvEb 0 (.reg 3))), []) ∧
  decode .s32 .s32 [0xE8, 0x78, 0x56, 0x34, 0x12] = some (.instr (.call (.jv (.d 0x12345678))), []) ∧
  decode .s16 .s16 [0xF7, 0xF3] = some (.instr (.div (.ev (.reg 3))), []) ∧
  decode .s32 .s32 [0x0F, 0x22, 0xD8] = some (.instr (.mov (.crR32 3 0)), []) ∧
  decode .s16 .s16 [0xDF, 0xE0] = some (.instr (.fnstswAx 0), []) ∧
  decode .s16 .s16 [0xF4] = some (.instr .hlt, []) ∧
  decode .s16 .s16 [0x0F, 0x0B] = some (.invalid, [])

/-- A step runs the instruction whose bytes stand at CS:EIP after the prefixes read so far: it is `exec` of that
instruction in the state with the step counter advanced and `nextEip` at the byte after it; before the first byte the
breakpoint matches of conditions that are not enabled may set bits of DR6 (U22). Bytes that make an encoding which R275 calls
undefined are exception 6, those of an undocumented one are refused (U9). Where the bytes so far decide nothing, a next byte
outside the code segment is exception 13 (0) (R138), and so is a sixteenth byte (R251). In a 16-bit code segment
the low 16 bits of EIP are used (R27); that an instruction which begins below 10000H there goes on above it, where the limit
lies higher, is the model's choice (log entry 45). An instruction that completes leaves
the state its steps leave, with EIP at the next instruction or at the target, RF clear but for a loaded image and a
repetition (R644), the prefixes and the shadow over (R727), and the single-step trap pending where TF was set when it
began (R624). One whose steps raise an exception leaves the registers as they were, but for what R637 and R644 list (memory,
CR2, DR6, DR7 and the model's own record of the look-aside buffer, the prefetch and the bus), and the exception is delivered
with the EIP of its first byte saved (R640, R644). Exception 8 arises in a software interrupt beyond the limit of the
real-mode table alone (R655) and saves the EIP of the next instruction (R640), with a free RF (log entry 7). An exception
after the commit point of a task switch waits in the new task (R520): that a page fault of steps 2 to 5 waits too (log entry
21), that an interrupt shadow ends (log entry 31), and that the data-breakpoint matches stay pending and no single-step trap
is added (log entry 43), are the model's choices. Every instruction that is no prefix byte ends in one of these ways. -/
def Obligations.StepRunsDecodedInstruction : Prop :=
  (∀ (s : State) (i : Instr), i.wellFormed s.osz s.asz = true → s.pfx.count + (encode i).length ≤ 15 →
    startsInstr s → standsNext s (encode i) → step s = exec i (decoded s (encode i).length)) ∧
  (∀ (s : State) (bs : List Byte), startsInstr s → standsNext s bs →
    (∀ n < bs.length, decode s.osz s.asz (bs.take n) = none) →
    (s.pfx.count + bs.length ≤ 15 → decode s.osz s.asz bs = some (.invalid, []) →
      step s = deliver (decoded s bs.length) (faultAt s 6 none)) ∧
    (s.pfx.count + bs.length ≤ 15 → decode s.osz s.asz bs = some (.undocumented, []) →
      step s = .refused .undocumentedOpcode) ∧
    (decode s.osz s.asz bs = none → outsideCode s (fetchOffset s bs.length) ∨ 15 ≤ s.pfx.count + bs.length →
      step s = deliver (started s) (faultAt s 13 (some 0)))) ∧
  (∀ (s t : State) (body : M Retire) (r : Retire), body s.begun = .ok r t →
    let stays := decide (r = .again ∨ r = .wait)
    let u := retire s t r
    runSteps body s = .next u ∧ u.eip = (if r = .next then t.nextEip else t.eip) ∧
    u.flags = (if stays = true ∨ r = .loaded then t.flags else { t.flags with rf := false }) ∧
    u.pfx = Pfx.none ∧ u.midRep = decide (r = .again) ∧
    u.trap = (if s.flags.tf = true ∧ r ≠ .wait then { t.trap with step := true } else t.trap) ∧
    (stays = true → u.shadow = s.shadow) ∧
    (stays = false → u.shadow = (if s.shadow = .ss ∧ t.shadow = .ss then Shadow.none else t.shadow)) ∧
    u = { t with eip := u.eip, flags := u.flags, pfx := u.pfx, shadow := u.shadow, midRep := u.midRep, trap := u.trap }) ∧
  (∀ (s t : State) (body : M Retire) (e : Exc), body s.begun = .error (.exc e) t →
    let u := undone s t
    let abort : Event :=
      { vector := 8, kind := .exception, ret := s.nextEip, code := some 0, rf := s.freeBit doubleSlot }
    (e.newTask = false → e.vector ≠ 8 → runSteps body s = deliver u (faultAt s e.vector e.code)) ∧
    (e.newTask = false → e.vector = 8 →
      (∀ v, enter abort u = .ok () v → runSteps body s = .next v) ∧
      (∀ x v, enter abort u = .error (.exc x) v → x.newTask = false →
        runSteps body s = .next (shutDownState (undone u v)))) ∧
    (e.newTask = true → runSteps body s = .next
      { t with pending := some (faultAt t e.vector e.code), pfx := Pfx.none, shadow := .none, midRep := false,
               run := .executing })) ∧
  (∀ (s t : State) (body : M Retire),
    (∀ f, body s.begun = .error (.fault f) t → runSteps body s = .fault f) ∧
    (∀ r, body s.begun = .error (.refuse r) t → runSteps body s = .refused r)) ∧
  (∀ i : Instr, prefixRecords i = none → ∃ body : M Retire, ∀ s, exec i s = runSteps body s)

/-! ## What every step keeps -/

/-- Memory keeps its canonical form. -/
def Obligations.MemoryStaysCanonical : Prop :=
  ∀ s t : State, Memory.wf s.mem = true → step s = .next t → Memory.wf t.mem = true

/-- The mode and the privilege level stay legal (R135, R136, R560). -/
def Obligations.ModeStaysLegal : Prop := ∀ s t : State, s.modeOk = true → step s = .next t → t.modeOk = true

/-- The reserved bits of CR3 stay 0, the look-aside buffer stays bounded and without duplicates (R51, R112, R163). -/
def Obligations.PagingStructuresStayBounded : Prop := ∀ s t : State, s.pagingOk → step s = .next t → t.pagingOk

/-- The state after reset meets the three invariants. For every setting of the parameters the six segment registers are
usable, and CS is non-conforming and the others expand up: no rule gives the C and E bits, and they and the mark are the
model's choice (log entry 1). -/
def Obligations.ResetMeetsInvariants : Prop :=
  (Memory.wf State.reset.mem = true ∧ State.reset.modeOk = true ∧ State.reset.pagingOk) ∧
  ∀ (c : Config) (r : SReg), ((State.resetWith c).seg r).usable = true ∧ ((State.resetWith c).seg r).ec = false

/-! ## Reset and the instruction boundary -/

/-- The state after reset (R710), for every setting of the parameters. The registers that R710 leaves unspecified are not
mentioned, nor what no rule gives of the descriptor registers (the DPL, the C and E bits; log entry 1). -/
def Obligations.ResetValues : Prop :=
  ∀ c : Config, let s := State.resetWith c
    s.cr0 = { pe := false, mp := false, em := false, ts := false, et := decide (c.coproc = .i80387), pg := false } ∧
    s.cr2 = 0 ∧ s.cr3 = 0 ∧ s.flags.toWord = 0x00000002 ∧ s.eip = 0x0000FFF0 ∧
    s.cs = { s.cs with selector := 0xF000, base := 0xFFFF0000, limit := 0xFFFF, present := true,
                       code := true, readable := true, writable := true, accessed := true, db := false } ∧
    (∀ r : SReg, r ≠ .cs → s.seg r =
      { s.seg r with selector := 0, base := 0, limit := 0xFFFF, present := true, code := false, readable := true,
                     writable := true, accessed := true, db := false }) ∧
    s.gdtr = { base := 0, limit := 0xFFFF } ∧ s.idtr = { base := 0, limit := 0x03FF } ∧
    s.ldtr.selector = 0 ∧ s.tr.selector = 0 ∧ s.tr.base = 0 ∧ s.tr.limit = 0xFFFF ∧ s.dr7 = 0 ∧
    s.reg .w8 7 = 0x03#8 ∧ s.reg .w8 3 = c.revisionId ∧
    (c.selfTest = true → c.selfTestPass = true → s.reg .w16 eax = 0#16 ∧ s.reg .w16 edx = 0#16) ∧
    (c.selfTest = true → c.selfTestPass = false → s.reg .w16 eax ≠ 0#16 ∨ s.reg .w16 edx ≠ 0#16) ∧
    s.tlb = [] ∧ s.stale = Stale.none ∧ s.nmiLatch = false ∧ s.nmiBlocked = false ∧ s.shadow = .none ∧ s.run = .executing

/-- What comes before the next instruction: RESET over everything (R667); HOLD, during which the processor does nothing
(R206, R230); then, at a boundary, an exception that a task switch left (R520), the debug traps (R625), NMI (R664), INTR
(R662), and the instruction breakpoints: an enabled condition on the address of the next instruction sets its bit of DR6
and is exception 1, a fault, with RF clear in the image, unless RF is set or a repetition goes on (R625 (a)); with nothing
to serve a halted or shut down processor stays so, also where PEREQ asks for a store (R692, R693, D25). The other masters
have the bus at the start of a step (R106; log entry 36). The model's choices among these: debug traps come before NMI and
INTR, although a sentence of R624 delivers the interrupt first (log entry 10); a trap of HLT ends the halt (log entry 19);
a blocked NMI does not end shutdown (log entry 20); the acknowledge makes INTR inactive (log entry 4); nothing is executed
while HOLD is active (log entry 35); the bits of DR6 for conditions that match while they are not enabled are free (log
entry 7); a late store comes before all this, and only while the processor executes (log entry 12); RESET is looked at
between two steps only (log entry 49). An instruction breakpoint is compared with the linear address of the instruction, for
which a 16-bit code segment uses the low 16 bits of EIP (R27; log entry 45). A debug trap waits where
a data breakpoint, the single step or the task switch has left one; it sets B0 to B3, BS (bit 14) and BT (bit 15) of DR6 (R55,
R624, R625). -/
def Obligations.BoundaryEvents : Prop :=
  (∀ s : State,
    (s.trapDue = true ↔ (∃ n : Fin 4, s.trap.hits.getLsbD n = true) ∨ s.trap.step = true ∨ s.trap.task = true) ∧
    ∀ k : Fin 32, s.trap.bits.getLsbD k =
      if k.val < 4 then s.trap.hits.getLsbD k else if k = 14 then s.trap.step else decide (k = 15) && s.trap.task) ∧
  ∀ s : State, let b := ({ s with tick := s.tick + 1 } : State).turned
    let t := { b with hlda := false }
    (s.pins.reset = true → step s = .next { State.resetWith s.cfg with
      mem := s.mem, masters := s.masters, pins := s.pins, bus := s.bus, tick := s.tick + 1 }) ∧
    (s.pins.reset = false → s.pins.hold = true → step s = .next { b with hlda := true }) ∧
    (s.pins.reset = false → s.pins.hold = false →
      (s.cop.due = none ∨ s.pins.pereq = false ∨ s.run ≠ .executing) → s.pfx.count = 0 →
      (∀ ev, s.pending = some ev → step s = deliver { t with pending := none } ev) ∧
      (s.pending = none → s.trap.quiet = 0 →
        (s.run ≠ .shutdown → s.trapDue = true → s.shadow ≠ .ss →
          step s = deliver { t with dr6 := s.dr6 ||| s.trap.bits, trap := DebugTrap.none }
            { vector := 1, kind := .exception, ret := s.eip, code := none, rf := s.midRep }) ∧
        ((s.run = .shutdown ∨ s.trapDue = false) → s.nmiLatch = true → s.nmiBlocked = false → s.shadow ≠ .ss →
          step s = deliver { t with nmiLatch := false, nmiBlocked := true }
            { vector := 2, kind := .external, ret := s.eip, code := none, rf := s.midRep }) ∧
        (∀ v : Byte, s.run ≠ .shutdown → s.trapDue = false → (s.nmiLatch = false ∨ s.nmiBlocked = true) →
          s.flags.intf = true → s.shadow = .none → s.pins.intr = some v →
          step s = deliver { t with pins := { s.pins with intr := none }, bus := .intAck v :: s.bus }
            { vector := v, kind := .external, ret := s.eip, code := none, rf := s.midRep }) ∧
        (s.run = .halted → s.trapDue = false → (s.nmiLatch = false ∨ s.nmiBlocked = true) →
          (s.flags.intf = false ∨ s.pins.intr = none) → step s = .next t) ∧
        (s.run = .shutdown → (s.nmiLatch = false ∨ s.nmiBlocked = true) → step s = .next t) ∧
        (∀ on off : BitVec 4, s.run = .executing → (s.trapDue = false ∨ s.shadow = .ss) →
          (s.nmiLatch = false ∨ s.nmiBlocked = true ∨ s.shadow = .ss) →
          (s.flags.intf = false ∨ s.pins.intr = none ∨ s.shadow ≠ .none) →
          (∀ n : Fin 4, on.getLsbD n = (conditionOn s n && fetchMet s n)) →
          (∀ n : Fin 4, off.getLsbD n = (!conditionOn s n && fetchMet s n)) →
          let u := { t with dr6 := s.dr6 ||| (off &&& t.freeConditions).zeroExtend 32 }
          (on ≠ 0 → s.flags.rf = false → s.midRep = false →
            step s = deliver { u with dr6 := u.dr6 ||| on.zeroExtend 32 }
              { vector := 1, kind := .exception, ret := s.eip, code := none, rf := false }) ∧
          (on = 0 ∨ s.flags.rf = true ∨ s.midRep = true → step s = fetchExec u))))

/-! ## Registers and memory -/

/-- The 16-bit and 8-bit views of the registers, and what a write to a view changes (R22). -/
def Obligations.PartialRegisterWrites : Prop :=
  ∀ (s : State) (r : Fin 8),
    s.reg .w16 r = (s.reg32 r).extractLsb' 0 16 ∧
    (∀ j : Fin 4, s.reg .w8 (j.castAdd 4) = (s.reg32 (j.castAdd 4)).extractLsb' 0 8 ∧
      s.reg .w8 (j.natAdd 4) = (s.reg32 (j.castAdd 4)).extractLsb' 8 8) ∧
    (∀ v : Word32, (s.setReg .w32 r v).reg32 r = v ∧ ∀ q, q ≠ r → (s.setReg .w32 r v).reg32 q = s.reg32 q) ∧
    (∀ v : Word16,
      (s.setReg .w16 r v).reg .w16 r = v ∧
      ((s.setReg .w16 r v).reg32 r).extractLsb' 16 16 = (s.reg32 r).extractLsb' 16 16 ∧
      ∀ q, q ≠ r → (s.setReg .w16 r v).reg32 q = s.reg32 q) ∧
    (∀ v : Byte,
      (s.setReg .w8 r v).reg .w8 r = v ∧
      (∀ q, q ≠ r → (s.setReg .w8 r v).reg .w8 q = s.reg .w8 q) ∧
      (∀ q, ((s.setReg .w8 r v).reg32 q).extractLsb' 16 16 = (s.reg32 q).extractLsb' 16 16) ∧
      ∀ q : Fin 8, 4 ≤ q.val → (s.setReg .w8 r v).reg32 q = s.reg32 q)

/-- A store changes the addressed bytes, the bytes the prefetch may still hold and the pending breakpoints, and nothing
else, and in a memory of canonical form (MemoryStaysCanonical) each stored byte reads back; a load changes the pending
breakpoints only (R80, R110). An access makes data condition n pending exactly where one of
its bytes lies in the aligned block of 1, 2 or 4 bytes that holds the address in DRn, RWn is 3, or 1 for a write, and the
condition is enabled; the matches of conditions that are not enabled are kept apart (R625 (b), U22). The linear address of an
offset is the sum of base and offset modulo 2^32 (R121). A value is its bytes, the lowest first, as an operand, as what is
stored, and as a double word (R80). -/
def Obligations.StoreFrame : Prop :=
  (∀ (g : SegReg) (off : Word32), (linear g off).toNat = (g.base.toNat + off.toNat) % 2 ^ 32) ∧
  (∀ (s : State) (w : Width) (r : SReg) (off : Word32) (v : BitVec w.bits) (k : Fin w.bytes),
    (s.operand w r off).toNat / 2 ^ (8 * k.val) % 2 ^ 8 =
      (s.physByte (BitVec.ofNat 32 ((s.seg r).base.toNat + off.toNat + k))).toNat ∧
    (bytesOf w v).length = w.bytes ∧
    (bytesOf w v)[k.val]? = some (BitVec.ofNat 8 (v.toNat / 2 ^ (8 * k.val)))) ∧
  ∀ (s : State) (r : SReg) (off : Word32) (bs : List Byte), bs.length ≤ 4096 →
    let t := s.afterStore r off bs
    let la := linear (s.seg r) off
    (Memory.wf s.mem = true → ∀ k : Fin bs.length, t.physByte (la + BitVec.ofNat 32 k) = bs[k]) ∧
    (∀ a : Word32, (∀ k : Fin bs.length, a ≠ la + BitVec.ofNat 32 k) → t.physByte a = s.physByte a) ∧
    t = { s with mem := t.mem, stale := t.stale, trap := t.trap } ∧ t.stale.maps = s.stale.maps ∧
    (∀ n, s.afterLoad r off n = { s with trap := (s.afterLoad r off n).trap }) ∧
    (∀ (u : State) (n : Nat) (write : Bool),
      (u = t ∧ n = bs.length ∧ write = true) ∨ (u = s.afterLoad r off n ∧ write = false) →
        u.trap = { s.trap with hits := u.trap.hits, quiet := u.trap.quiet } ∧
        ∀ c : Fin 4, conditionLen s c ≠ 2 →
          u.trap.hits.getLsbD c = (s.trap.hits.getLsbD c || (conditionOn s c && dataMet s c la n write)) ∧
          u.trap.quiet.getLsbD c = (s.trap.quiet.getLsbD c || (!conditionOn s c && dataMet s c la n write))) ∧
    ∀ a : Word32, (s.physDword a).toNat = (s.physByte a).toNat + 2 ^ 8 * (s.physByte (a + 1)).toNat +
      2 ^ 16 * (s.physByte (a + 2)).toNat + 2 ^ 24 * (s.physByte (a + 3)).toNat

/-- An operand outside its segment, or without the rights, is exception 12 for SS and 13 for the others, with error code
0, before anything is accessed (R140, R636, R638): the end of the operand is computed without wrap; an expand-down data
segment lies above its limit and ends at FFFFH or, with B = 1, at FFFFFFFFH; code cannot be written, nor read with R = 0;
in real mode only the offsets count, which end at FFFFH besides. That an SS which is not usable is exception 12, as R636
has it, and not 13, as R140 has it, is the model's choice (log entry 9). -/
def Obligations.SegmentFaults : Prop :=
  (∀ (s : State) (r : SReg) (off : Word32) (n : Nat) (write : Bool), 0 < n →
    let g := s.seg r
    let last := off.toNat + n - 1
    (s.segAllows r off n write = false ↔
      (s.realMode = false ∧
        (g.usable = false ∨ (write = true ∧ (g.code = true ∨ g.writable = false)) ∨
          (write = false ∧ g.readable = false))) ∨
      (s.realMode = true ∧ 0xFFFF < last) ∨
      (if g.code = false ∧ g.ec = true then
        off.toNat ≤ g.limit.toNat ∨ (if g.db = true then 0xFFFFFFFF < last else 0xFFFF < last)
      else g.limit.toNat < last))) ∧
  ∀ (s : State) (r : SReg) (off : Word32) (n : Nat) (write : Bool), s.segAllows r off n write = false →
    let stop : Stop := .exc { vector := if r = .ss then 12 else 13, code := some 0, newTask := false }
    checkAccess r off n write s = .error stop s ∧
    (write = false → lreadBytes r off n s = .error stop s) ∧
    (write = true → ∀ bs : List Byte, bs.length = n → lwriteBytes r off bs s = .error stop s) ∧
    (∀ (w : Width) (m : MemOp) (d : Fin 8), write = false → n = w.bytes → s.ea m = (r, off) →
      (w = .w8 ∨ w = s.osz.width) → s.prefixesOk false →
      exec (.mov (if w = .w8 then .gbEb d (.mem m) else .gvEv d (.mem m))) s =
        deliver s (s.faultEvent (if r = .ss then 12 else 13) (some 0)))

/-- Page translation: without paging the linear address is the physical one; an entry of the look-aside buffer serves with
its rights, but for the first write to a page (R163, R164); else the walk through directory and table does (R160, R166 to
R168). An operand access is a user access exactly at CPL 3 (R140, R164). An operand in one page is translated once, one that
crosses a page boundary twice, and both translations come before any byte is read or written: where one fails no byte of the
operand has moved (R88). Whether the buffer has forgotten an entry is free; that it is drawn once for each step and page is the
model's choice (log entry 11). -/
def Obligations.PageTranslation : Prop :=
  (∀ (s : State) (la : Word32) (write user : Bool), s.cr0.pg = false → translate la write user s = .ok la s) ∧
  (∀ (s : State) (r : SReg) (off : Word32), s.masters = [] →
    let la := linear (s.seg r) off
    s.userLevel = operandUser s ∧
    (∀ n ≤ 4096, s.segAllows r off n false = true →
      lreadBytes r off n s = afterTranslation s la n false fun t as =>
        .ok (as.map t.physByte) (t.noteAccess la n false)) ∧
    (∀ bs : List Byte, bs.length ≤ 4096 → s.segAllows r off bs.length true = true →
      lwriteBytes r off bs s = afterTranslation s la bs.length true fun t as =>
        .ok () ((t.setPhysBytes as bs).noteAccess la bs.length true))) ∧
  ∀ (s : State) (la : Word32) (write user : Bool), s.cr0.pg = true → s.masters = [] →
    let page := la.extractLsb' 12 20
    let s1 := tlbLost s page
    let pde := s.physDword (pdeAddr s la)
    let pte := s.physDword (pteAddr s la)
    let walk : EStateM.Result Stop State Word32 :=
      if pde.getLsbD 0 = false ∨ pte.getLsbD 0 = false then pageFaulted s1 la false write user
      else if pagePermits s la write user = false then pageFaulted s1 la true write user
      else .ok (pte.extractLsb' 12 20 ++ la.extractLsb' 0 12) (walked s1 la write)
    (∀ e, (s.tlb.find? fun x => x.page == page) = some e → (write = true → e.dirty = true) →
      translate la write user s =
        if Config.tlbForgets s.tick page.toNat = true then walk
        else if entryPermits e write user = true then .ok (e.frame ++ la.extractLsb' 0 12) s
        else pageFaulted s la true write user) ∧
    ((∀ e, (s.tlb.find? fun x => x.page == page) = some e → write = true ∧ e.dirty = false) →
      translate la write user s = walk)

/-- Other bus masters (R12, R89, R100, R106): a turn of the bus stores one group of their bytes (they read back where memory
has its canonical form, MemoryStaysCanonical), the processor's other state stays, and the values replaced may still be fetched; they have a turn before each bus cycle, so before the high and
before the low part of an operand that crosses a double word, and before the read and before the write of INC, DEC, NEG,
NOT; none between the two under LOCK and in XCHG. An operand of more than one item moves item by item, the lowest first, so
they have turns between two items (R87, R610). That they act in planned groups is the form the model gives the environment
(log entry 36). -/
def Obligations.OtherMasters : Prop :=
  (∀ s : State, let t := s.turned
    (s.masters = [] → t = s) ∧
    (∀ g gs, s.masters = g :: gs →
      t = { s with mem := t.mem, stale := t.stale, masters := gs } ∧
      (Memory.wf s.mem = true → ∀ a, t.physByte a = masterByte s g a)) ∧
    t.stale.maps = s.stale.maps ∧ ∀ a b, b ∈ s.fetchChoices a → b ∈ t.fetchChoices a) ∧
  (∀ (s : State) (k : Nat) (as bs : List Word32) (cs ds : List Byte), 0 < k → as.length = k → cs.length = k →
    ds.length = bs.length → (s.busWrite k as cs).masters ≠ [] →
    let r := s.busRead k as
    s.busRead k (as ++ bs) = (r.1 ++ (r.2.busRead k bs).1, (r.2.busRead k bs).2) ∧
    s.busWrite k (as ++ bs) (cs ++ ds) = (s.busWrite k as cs).busWrite k bs ds) ∧
  (∀ (s : State) (r : SReg) (off : Word32), s.cr0.pg = false →
    let la := linear (s.seg r) off
    let k := 4 - la.toNat % 4
    let high (n : Nat) : List Word32 := byteAddrs (la + BitVec.ofNat 32 k) (n - k)
    (∀ n, 0 < n → n ≤ 4 → s.segAllows r off n false = true →
      (n ≤ k → lreadBytes r off n s = .ok ((byteAddrs la n).map s.turned.physByte) (s.turned.noteAccess la n false)) ∧
      (k < n → lreadBytes r off n s =
        .ok ((byteAddrs la k).map s.turned.turned.physByte ++ (high n).map s.turned.physByte)
          (s.turned.turned.noteAccess la n false))) ∧
    (∀ bs : List Byte, bs ≠ [] → bs.length ≤ 4 → s.segAllows r off bs.length true = true → s.masters ≠ [] →
      (bs.length ≤ k → lwriteBytes r off bs s =
        .ok () ((s.turned.setPhysBytes (byteAddrs la bs.length) bs).noteAccess la bs.length true)) ∧
      (k < bs.length → lwriteBytes r off bs s =
        .ok () (((s.turned.setPhysBytes (high bs.length) (bs.drop k)).turned.setPhysBytes (byteAddrs la k)
          (bs.take k)).noteAccess la bs.length true)))) ∧
  (∀ (op : OneOp) (s : State) (m : MemOp), (op.parts s).2 = .mem m → s.pfx.rep = none → s.cr0.pg = false →
    let w := (op.parts s).1
    let l := s.locate (.mem m)
    let u := lockedOut s.begun
    (lockedOut s).updatable w l = true →
      (s.pfx.lock = false → (linear (s.seg (s.ea m).1) (s.ea m).2).toNat % 4 + w.bytes ≤ 4 →
        exec op.instr s = .next (retire s (updatedInTurns s.begun w l fun v =>
          ((op.compute v s.flags).value, (op.compute v s.flags).flags)) .next)) ∧
      (s.pfx.lock = true → exec op.instr s = .next (retire s { op.after u with masters := s.masters.tail } .next))) ∧
  (∀ (s : State) (f : XchgForm), s.pfx.rep = none → xchgToMem f = true →
    (lockedOut s).updatable (xchgParts s f).1 (s.locate (xchgParts s f).2.1) = true →
      exec (.xchg f) s = .next (retire s { xchgAfter f (lockedOut s.begun) with masters := s.masters.tail } .next))

/-! ## Arithmetic -/

/-- What the two-operand and one-operand operations compute (R33, R340 to R344, R380 to R389): addition and subtraction
in integers with the six flags; AND, OR, XOR with CF and OF clear and AF free (log entry 7); ADC and SBB take CF in; INC
and DEC keep CF; NEG sets CF unless its operand is 0. -/
def Obligations.OperationMeaning : Prop :=
  ∀ (w : Width) (u : Nat → Bool) (a b : BitVec w.bits) (c : Bool) (f : EFlags),
    let top : Int := (2 : Int) ^ (w.bits - 1)
    let szp (r : Result w.bits) : Prop :=
      (r.flags.zf = true ↔ r.value = 0) ∧ (r.flags.sf = true ↔ r.value.toInt < 0) ∧
      (r.flags.pf = true ↔ ((List.range 8).filter fun k => r.value.getLsbD k).length % 2 = 0) ∧
      r.flags = { f with cf := r.flags.cf, pf := r.flags.pf, af := r.flags.af, zf := r.flags.zf, sf := r.flags.sf,
                         ovf := r.flags.ovf }
    let p := addFlags a b c f
    let m := subFlags a b c f
    let logic (r : Result w.bits) : Prop := r.flags.cf = false ∧ r.flags.ovf = false ∧ r.flags.af = u 2 ∧ szp r
    let and' := aluCompute .and u a b f
    let or' := aluCompute .or u a b f
    let xor' := aluCompute .xor u a b f
    let neg' := negCompute a f
    (p.value.toNat = (a.toNat + b.toNat + c.toNat) % 2 ^ w.bits ∧
      (p.flags.cf = true ↔ 2 ^ w.bits ≤ a.toNat + b.toNat + c.toNat) ∧
      (p.flags.af = true ↔ 16 ≤ a.toNat % 16 + b.toNat % 16 + c.toNat) ∧
      (p.flags.ovf = true ↔ a.toInt + b.toInt + c.toNat < -top ∨ top ≤ a.toInt + b.toInt + c.toNat) ∧ szp p) ∧
    ((m.value.toNat : Int) = ((a.toNat : Int) - b.toNat - c.toNat) % (2 : Int) ^ w.bits ∧
      (m.flags.cf = true ↔ a.toNat < b.toNat + c.toNat) ∧
      (m.flags.af = true ↔ a.toNat % 16 < b.toNat % 16 + c.toNat) ∧
      (m.flags.ovf = true ↔ a.toInt - b.toInt - c.toNat < -top ∨ top ≤ a.toInt - b.toInt - c.toNat) ∧ szp m) ∧
    (aluCompute .add u a b f = addFlags a b false f ∧ aluCompute .adc u a b f = addFlags a b f.cf f ∧
      aluCompute .sub u a b f = subFlags a b false f ∧ aluCompute .sbb u a b f = subFlags a b f.cf f ∧
      aluCompute .cmp u a b f = subFlags a b false f) ∧
    (∀ k : Fin w.bits, and'.value.getLsbD k = (a.getLsbD k && b.getLsbD k) ∧
      or'.value.getLsbD k = (a.getLsbD k || b.getLsbD k) ∧ xor'.value.getLsbD k = (a.getLsbD k ^^ b.getLsbD k)) ∧
    (logic and' ∧ logic or' ∧ logic xor' ∧ and' = logicFlags u (a &&& b) f) ∧
    (incCompute a f).value = (addFlags a 1 false f).value ∧
    (incCompute a f).flags = { (addFlags a 1 false f).flags with cf := f.cf } ∧
    (decCompute a f).value = (subFlags a 1 false f).value ∧
    (decCompute a f).flags = { (subFlags a 1 false f).flags with cf := f.cf } ∧
    (neg'.value.toNat = (2 ^ w.bits - a.toNat) % 2 ^ w.bits ∧ (neg'.flags.cf = true ↔ a ≠ 0) ∧
      (neg'.flags.ovf = true ↔ a.toInt = -top) ∧ neg' = subFlags 0 a false f)

/-- The sixteen conditions, numbered by the low four bits of the opcode of Jcc and SETcc (R497): an odd one negates the one
before it. -/
def Obligations.ConditionTable : Prop :=
  (∀ (k : Fin 16) (d : Byte) (osz asz : Size) (rest : List Byte),
    decode osz asz (BitVec.ofNat 8 (0x70 + k.val) :: d :: rest) = some (.instr (jccInstr (conditionNumber k) (.jb d)), rest) ∧
    (∀ r : Fin 8, decode osz asz (0x0F :: BitVec.ofNat 8 (0x90 + k.val) :: BitVec.ofNat 8 (0xC0 + r.val) :: rest) =
      some (.instr (setccInstr (conditionNumber k) (.reg r)), rest)) ∧
    (∀ e : Byte, decode .s16 asz (0x0F :: BitVec.ofNat 8 (0x80 + k.val) :: d :: e :: rest) =
      some (.instr (jccInstr (conditionNumber k) (.jv (.w (e ++ d)))), rest)) ∧
    ∀ e g h : Byte, decode .s32 asz (0x0F :: BitVec.ofNat 8 (0x80 + k.val) :: d :: e :: g :: h :: rest) =
      some (.instr (jccInstr (conditionNumber k) (.jv (.d (h ++ g ++ e ++ d)))), rest)) ∧
  (∀ (k : Fin 8) (f : EFlags), (conditionNumber ⟨2 * k.val + 1, by omega⟩).holds f =
    !(conditionNumber ⟨2 * k.val, by omega⟩).holds f) ∧
  ∀ f : EFlags,
    (Cond.o.holds f = true ↔ f.ovf = true) ∧ (Cond.no.holds f = true ↔ f.ovf = false) ∧
    (Cond.b.holds f = true ↔ f.cf = true) ∧ (Cond.ae.holds f = true ↔ f.cf = false) ∧
    (Cond.e.holds f = true ↔ f.zf = true) ∧ (Cond.ne.holds f = true ↔ f.zf = false) ∧
    (Cond.be.holds f = true ↔ f.cf = true ∨ f.zf = true) ∧ (Cond.a.holds f = true ↔ f.cf = false ∧ f.zf = false) ∧
    (Cond.s.holds f = true ↔ f.sf = true) ∧ (Cond.ns.holds f = true ↔ f.sf = false) ∧
    (Cond.p.holds f = true ↔ f.pf = true) ∧ (Cond.np.holds f = true ↔ f.pf = false) ∧
    (Cond.l.holds f = true ↔ f.sf ≠ f.ovf) ∧ (Cond.ge.holds f = true ↔ f.sf = f.ovf) ∧
    (Cond.le.holds f = true ↔ f.zf = true ∨ f.sf ≠ f.ovf) ∧ (Cond.g.holds f = true ↔ f.zf = false ∧ f.sf = f.ovf)

/-- After a comparison the conditions order the operands, unsigned and signed (R386, R497). -/
def Obligations.ConditionsAfterCompare : Prop :=
  ∀ (w : Width) (a b : BitVec w.bits) (f : EFlags),
    let g := (subFlags a b false f).flags
    (Cond.e.holds g = true ↔ a = b) ∧ (Cond.ne.holds g = true ↔ a ≠ b) ∧
    (Cond.b.holds g = true ↔ a.toNat < b.toNat) ∧ (Cond.ae.holds g = true ↔ b.toNat ≤ a.toNat) ∧
    (Cond.be.holds g = true ↔ a.toNat ≤ b.toNat) ∧ (Cond.a.holds g = true ↔ b.toNat < a.toNat) ∧
    (Cond.l.holds g = true ↔ a.toInt < b.toInt) ∧ (Cond.ge.holds g = true ↔ b.toInt ≤ a.toInt) ∧
    (Cond.le.holds g = true ↔ a.toInt ≤ b.toInt) ∧ (Cond.g.holds g = true ↔ b.toInt < a.toInt)

/-- ADD, ADC, SUB, SBB, AND, OR, XOR write the result to the destination and their flags; CMP writes the flags alone
(R264, R340, R380, R386). INC, DEC, NEG, NOT replace their operand and write their flags; TEST writes flags alone (R344,
R345, R387 to R389). An immediate of operand size is taken as it stands, an immediate byte is sign-extended (R265). -/
def Obligations.ArithmeticLogicResult : Prop :=
  (∀ (w : Width) (b : Byte) (v16 : Word16) (v32 : Word32), (sextImm w b).toInt = b.toInt ∧
    (immAs w (.w v16)).toNat = v16.toNat % 2 ^ w.bits ∧ (immAs w (.d v32)).toNat = v32.toNat % 2 ^ w.bits) ∧
  (∀ (op : AluOp) (f : AluForm) (s : State), s.prefixesOk (op != .cmp && aluToMem f) → aluReady op f s = true →
    exec (aluInstr op f) s = .next (retire s (aluAfter op f s.begun) .next)) ∧
  (∀ (op : OneOp) (s : State), s.prefixesOk (isMem (op.parts s).2) →
    s.updatable (op.parts s).1 (s.locate (op.parts s).2) = true →
      exec op.instr s = .next (retire s (op.after s.begun) .next)) ∧
  (∀ (f : TestForm) (s : State), s.prefixesOk false → s.readable (testWidth s f) (testPlace s f) = true →
    exec (.test f) s = .next (retire s (testAfter f s.begun) .next))

/-- What the shifts, rotates and double shifts compute, for every count from 1 to 31 (R361 to R369): the value, CF where
it is defined, OF after a count of 1, SF, ZF and PF of the shifts and double shifts, and no other flag changes but AF, free
after a shift (log entry 7). -/
def Obligations.ShiftMeaning : Prop :=
  ∀ (w : Width) (u : Nat → Bool) (d e v : BitVec w.bits) (c : Nat) (f : EFlags), 0 < c → c < 32 →
    let n := w.bits
    let shl := shiftCompute .shl u d c f
    let shr := shiftCompute .shr u d c f
    let sar := shiftCompute .sar u d c f
    let rol := shiftCompute .rol u d c f
    let ror := shiftCompute .ror u d c f
    let rcl := shiftCompute .rcl u d c f
    let rcr := shiftCompute .rcr u d c f
    let ring (i : Nat) : Bool := if i % (n + 1) = n then f.cf else d.getLsbD (i % (n + 1))
    let k := c % (n + 1)
    (shl.value.toNat = d.toNat * 2 ^ c % 2 ^ n ∧ (c ≤ n → shl.flags.cf = d.getLsbD (n - c)) ∧
      (c = 1 → shl.flags.ovf = (shl.value.msb ^^ shl.flags.cf))) ∧
    (shr.value.toNat = d.toNat / 2 ^ c ∧ (c ≤ n → shr.flags.cf = d.getLsbD (c - 1)) ∧
      (c = 1 → shr.flags.ovf = d.msb)) ∧
    (sar.value.toInt = d.toInt / (2 : Int) ^ c ∧ sar.flags.cf = (if c < n then d.getLsbD (c - 1) else d.msb) ∧
      (c = 1 → sar.flags.ovf = false)) ∧
    (∀ r, r = shl ∨ r = shr ∨ r = sar → r.flags.zf = (r.value == 0) ∧ r.flags.sf = r.value.msb ∧
      r.flags.pf = evenOnes (r.value.extractLsb' 0 8)) ∧
    (∀ i : Fin n, rol.value.getLsbD i = d.getLsbD ((i + (n - c % n)) % n) ∧
      ror.value.getLsbD i = d.getLsbD ((i + c) % n) ∧
      rcl.value.getLsbD i = ring (i + (n + 1 - k)) ∧ rcr.value.getLsbD i = ring (i + k)) ∧
    (rol.flags.cf = rol.value.getLsbD 0 ∧ ror.flags.cf = ror.value.msb ∧ rcl.flags.cf = ring (n + (n + 1 - k)) ∧
      rcr.flags.cf = ring (n + k)) ∧
    (c = 1 → rol.flags.ovf = (rol.value.msb ^^ rol.flags.cf) ∧
      ror.flags.ovf = (ror.value.msb ^^ ror.value.getLsbD (n - 2)) ∧
      rcl.flags.ovf = (rcl.value.msb ^^ rcl.flags.cf) ∧ rcr.flags.ovf = (d.msb ^^ f.cf)) ∧
    (∀ r, r = rol ∨ r = ror ∨ r = rcl ∨ r = rcr → r.flags = { f with cf := r.flags.cf, ovf := r.flags.ovf }) ∧
    (c ≤ n →
      (doubleShift true u v d e c f).value.toNat = (d.toNat * 2 ^ n + e.toNat) * 2 ^ c / 2 ^ n % 2 ^ n ∧
      (doubleShift true u v d e c f).flags.cf = d.getLsbD (n - c) ∧
      (doubleShift false u v d e c f).value.toNat = (e.toNat * 2 ^ n + d.toNat) / 2 ^ c % 2 ^ n ∧
      (doubleShift false u v d e c f).flags.cf = d.getLsbD (c - 1) ∧
      ∀ left, let r := doubleShift left u v d e c f
        r.flags.zf = (r.value == 0) ∧ r.flags.sf = r.value.msb ∧ r.flags.pf = evenOnes (r.value.extractLsb' 0 8) ∧
        (c = 1 → r.flags.ovf = (r.value.msb ^^ d.msb))) ∧
    (n < c → ∀ left, (doubleShift left u v d e c f).value = v) ∧
    (∀ r, r = shl ∨ r = shr ∨ r = sar ∨ (∃ left, r = doubleShift left u v d e c f) → r.flags =
      { f with cf := r.flags.cf, pf := r.flags.pf, af := r.flags.af, zf := r.flags.zf, sf := r.flags.sf,
               ovf := r.flags.ovf })

/-- The shifts, rotates and double shifts write their result and flags; with a count of 0 modulo 32 no register, no
memory and no flag changes (R360, R361, R368). -/
def Obligations.ShiftResult : Prop :=
  (∀ (op : ShiftOp) (f : ShiftForm) (s : State), s.prefixesOk false →
    s.updatable (shiftParts s f).1 (s.locate (shiftParts s f).2.1) = true →
      exec (shiftInstr op f) s = .next (retire s (shiftAfter op f s.begun) .next)) ∧
  (∀ (left : Bool) (f : ShdForm) (s : State), s.prefixesOk false → doubleReady f s = true →
    exec (doubleInstr left f) s = .next (retire s (doubleAfter left f s.begun) .next))

/-- MUL and IMUL store the product: in double width with one operand, modulo the width with two or three; CF and OF are both
set exactly where the product does not fit the low half, as an unsigned number after MUL and as a signed one after IMUL, and
the other status flags are free (R392 to R394, log entry 7). -/
def Obligations.MultiplyResult : Prop :=
  (∀ (signed : Bool) (f : UnaryForm) (s : State), s.prefixesOk false →
    s.readable (unaryParts s f).1 (s.locate (unaryParts s f).2) = true →
      exec (mulInstr signed f) s = .next (retire s (mulAfter signed f s.begun) .next)) ∧
  (∀ (i : ShortImul) (s : State), s.prefixesOk false → s.readable s.osz.width (s.locate i.operand) = true →
    exec i.instr s = .next (retire s (i.after s.begun) .next))

/-- DIV and IDIV: the quotient truncated toward zero and the remainder with the sign of the dividend; a divisor of 0, or a
quotient that does not fit, is exception 0, a fault that changes nothing (R396, R397). -/
def Obligations.DivideResult : Prop :=
  ∀ (signed : Bool) (f : UnaryForm) (s : State),
    let w := (unaryParts s f).1
    let l := s.locate (unaryParts s f).2
    let n := dividend s signed w
    let d := number signed (s.valueAt w l)
    s.prefixesOk false → s.readable w l = true →
    (∀ q r : Int, d ≠ 0 → n = q * d + r → r.natAbs < d.natAbs → (0 ≤ n → 0 ≤ r) → (n ≤ 0 → r ≤ 0) →
      quotientFits signed w q = true →
        exec (divInstr signed f) s = .next (retire s (divAfter s.begun w l q r) .next)) ∧
    (d = 0 ∨ quotientFits signed w (n.tdiv d) = false →
      exec (divInstr signed f) s = deliver s (s.faultEvent 0 none))

/-- DAA, DAS, AAA, AAS, AAM, AAD; AAM by 0 is exception 0 (R400 to R405). -/
def Obligations.DecimalAdjustResult : Prop :=
  ∀ (a : Adjust) (s : State), s.prefixesOk false →
    (a.ready = true → exec a.instr s = .next (retire s (a.after s.begun) .next)) ∧
    (a.ready = false → exec a.instr s = deliver s (s.faultEvent 0 none))

/-- DAA after ADD or ADC, and DAS after SUB or SBB, of packed decimal bytes give the packed decimal sum and difference,
with the decimal carry in CF (R400, R401); AAA after ADD or ADC, and AAS after SUB or SBB, of decimal digits give the
digit in AL and the decimal carry in CF, AF and AH (R402, R403); AAM divides AL by its base, AAD multiplies back (R404,
R405). For every AL or AX and all flags, of decimal origin or not, DAA, DAS, AAA and AAS add or subtract the correction that
their rules give, as numbers, and DAA and DAS set SF, ZF and PF by AL (R400 to R403, U11). Every flag that a rule leaves
undefined is free (log entry 7). -/
def Obligations.DecimalMeaning : Prop :=
  (∀ (al : Byte) (ax : Word16) (u : Nat → Bool) (f : EFlags),
    let low := decide (9 < al.toNat % 16) || f.af
    let high := decide (0x99 < al.toNat) || f.cf
    let change := (if low then 6 else 0) + (if high then 0x60 else 0)
    let pa := (al.toNat + change) % 256
    let ps := (al.toNat + 256 - change) % 256
    let szp (n : Nat) (g : EFlags) : EFlags :=
      { g with sf := decide (128 ≤ n), zf := decide (n = 0), pf := evenOnes (BitVec.ofNat 8 n) }
    let adjust := decide (9 < ax.toNat % 16) || f.af
    let aa := (ax.toNat + if adjust then 0x106 else 0) % 2 ^ 16
    let as := (ax.toNat + 2 ^ 16 - if adjust then 0x106 else 0) % 2 ^ 16
    let ascii : EFlags :=
      { f with cf := adjust, af := adjust, pf := u 1, zf := u 3, sf := u 4, ovf := u 5 }
    (daaCompute u al f).value.toNat = pa ∧
    (daaCompute u al f).flags = szp pa { f with cf := high, af := low, ovf := u 5 } ∧
    (dasCompute u al f).value.toNat = ps ∧
    (dasCompute u al f).flags =
      szp ps { f with cf := high || (low && (f.cf || decide (al.toNat < 6))), af := low, ovf := u 5 } ∧
    (aaaCompute u ax f).value.toNat = aa / 256 * 256 + aa % 16 ∧ (aaaCompute u ax f).flags = ascii ∧
    (aasCompute u ax f).value.toNat = as / 256 * 256 + as % 16 ∧ (aasCompute u ax f).flags = ascii) ∧
  (∀ (x y : Fin 100) (c : Bool) (u : Nat → Bool) (f : EFlags),
    let bcd (n : Nat) : Byte := BitVec.ofNat 8 (n / 10 * 16 + n % 10)
    let p := addFlags (bcd x) (bcd y) c f
    let m := subFlags (bcd x) (bcd y) c f
    let dp := daaCompute u p.value p.flags
    let dm := dasCompute u m.value m.flags
    dp.value = bcd ((x.val + y.val + c.toNat) % 100) ∧ dp.flags.cf = decide (100 ≤ x.val + y.val + c.toNat) ∧
    dm.value = bcd ((x.val + 100 - y.val - c.toNat) % 100) ∧ dm.flags.cf = decide (x.val < y.val + c.toNat)) ∧
  (∀ (x y : Fin 10) (h : Byte) (c : Bool) (u : Nat → Bool) (f : EFlags),
    let p := addFlags (BitVec.ofNat 8 x) (BitVec.ofNat 8 y) c f
    let m := subFlags (BitVec.ofNat 8 x) (BitVec.ofNat 8 y) c f
    let up := decide (10 ≤ x.val + y.val + c.toNat)
    let down := decide (x.val < y.val + c.toNat)
    let ra := aaaCompute u (h ++ p.value) p.flags
    let rs := aasCompute u (h ++ m.value) m.flags
    ra.value = (if up then h + 1 else h) ++ BitVec.ofNat 8 ((x.val + y.val + c.toNat) % 10) ∧
    ra.flags.cf = up ∧ ra.flags.af = up ∧
    rs.value = (if down then h - 1 else h) ++ BitVec.ofNat 8 ((x.val + 10 - y.val - c.toNat) % 10) ∧
    rs.flags.cf = down ∧ rs.flags.af = down) ∧
  (∀ (al base : Byte) (ax : Word16) (u : Nat → Bool) (f : EFlags),
    let rm := aamCompute u al base f
    let rd := aadCompute u ax base f
    (base ≠ 0 → rm.value.toNat = al.toNat / base.toNat * 256 + al.toNat % base.toNat) ∧
    rd.value.toNat = (ax.toNat % 256 + ax.toNat / 256 * base.toNat) % 256 ∧
    ∀ r, r = rm ∨ r = rd → let b : Byte := r.value.extractLsb' 0 8
      r.flags = { f with zf := b == 0, sf := b.msb, pf := evenOnes b, cf := u 0, af := u 2, ovf := u 5 })

/-! ## Bits -/

/-- BT, BTS, BTR, BTC: CF takes the bit of the bit string, in memory at any signed distance, and the bit alone is set,
cleared or complemented; the other status flags are free (R450 to R454, log entry 7). -/
def Obligations.BitTestResult : Prop :=
  (∀ (w : Width) (op : BitOp) (u : Nat → Bool) (v : BitVec w.bits) (k : Fin w.bits) (f : EFlags),
    let r := bitCompute op u v k f
    freeStatus u f = { f with cf := u 0, pf := u 1, af := u 2, zf := u 3, sf := u 4, ovf := u 5 } ∧
    r.flags = { freeStatus u f with cf := v.getLsbD k } ∧
    ∀ j : Fin w.bits, r.value.getLsbD j =
      if j = k then (match op with
        | .test => v.getLsbD k
        | .set => true
        | .reset => false
        | .complement => !v.getLsbD k)
      else v.getLsbD j) ∧
  ∀ (op : BitOp) (f : BitForm) (s : State), s.prefixesOk (op != .test && bitToMem f) → bitReady op f s = true →
    exec (bitInstr op f) s = .next (retire s (bitAfter op f s.begun) .next)

/-- BSF and BSR find the lowest and the highest 1; with source 0, ZF is set and the destination is free (R456, R457;
log entry 7). -/
def Obligations.BitScanResult : Prop :=
  ∀ (up : Bool) (r : Fin 8) (rm : RM) (s : State),
    let w := s.osz.width
    let l := s.locate rm
    let v := s.valueAt w l
    let after (dest : BitVec w.bits) (z : Bool) : State :=
      ((s.begun.afterRead w l).setReg w r dest).withFlags { freeStatus s.freeBit s.flags with zf := z }
    s.prefixesOk false → s.readable w l = true →
    (v = 0 → exec (scanInstr up r rm) s = .next (retire s (after ((s.freeWord scanSlot).truncate w.bits) true) .next)) ∧
    (∀ k : Fin w.bits, v.getLsbD k = true →
      (∀ j : Fin w.bits, (if up then j < k else k < j) → v.getLsbD j = false) →
      exec (scanInstr up r rm) s = .next (retire s (after (BitVec.ofNat w.bits k) false) .next))

/-- XBTS and IBTS are exception 6 on the parts without them (R460); on the others they move a bit field between a
register and a bit string, by the model's reading of R460 (log entry 25). -/
def Obligations.BitStringResult : Prop :=
  ∀ (s : State) (rm : RM) (r : Fin 8), s.prefixesOk false →
    let w := s.osz.width
    let o := (s.reg w eax).toNat
    let c := (s.reg .w8 ecx).toNat
    let free := freeStatus s.freeBit s.flags
    let field (n : Nat) : BitVec w.bits := BitVec.ofNat w.bits (n % 2 ^ c)
    (s.cfg.hasIbtsXbts = false →
      exec (.xbts r rm) s = deliver s (s.faultEvent 6 none) ∧ exec (.ibts rm r) s = deliver s (s.faultEvent 6 none)) ∧
    (s.cfg.hasIbtsXbts = true → 0 < c → c ≤ w.bits →
      match s.locate rm with
      | .reg x =>
        o + c ≤ w.bits →
          exec (.xbts r rm) s =
            .next (retire s ((s.begun.setReg w r (field ((s.reg w x).toNat / 2 ^ o))).withFlags free) .next) ∧
          exec (.ibts rm r) s = .next (retire s ((s.begun.setReg w x
            (BitVec.ofNat w.bits (insertBits (s.reg w x).toNat o c (s.reg w r).toNat))).withFlags free) .next)
      | .mem seg off =>
        let a := wrapTo s.asz (off + BitVec.ofNat 32 (o / 8))
        let n := (o % 8 + c + 7) / 8
        let word := natOfBytes (s.operandBytes seg a n)
        (s.canAccess seg a n false = true →
          exec (.xbts r rm) s = .next (retire s
            (((s.begun.afterLoad seg a n).setReg w r (field (word / 2 ^ (o % 8)))).withFlags free) .next)) ∧
        (s.canAccess seg a n false = true → s.canAccess seg a n true = true →
          exec (.ibts rm r) s = .next (retire s
            (((s.begun.afterLoad seg a n).afterStore seg a
              (bytesOfNat n (insertBits word (o % 8) c (s.reg w r).toNat))).withFlags free) .next)))

/-! ## Moves -/

/-- MOV between registers, memory and immediates, and XCHG, change their destinations and no flag (R301 to R303, R316). -/
def Obligations.MoveResult : Prop :=
  (∀ (f : MovForm) (s : State), isPlainMove f = true → s.prefixesOk false → moveReady f s = true →
    exec (.mov f) s = .next (retire s (moveAfter f s.begun) .next)) ∧
  (∀ (f : XchgForm) (s : State), s.prefixesOk (xchgToMem f) →
    s.updatable (xchgParts s f).1 (s.locate (xchgParts s f).2.1) = true →
      exec (.xchg f) s = .next (retire s (xchgAfter f s.begun) .next))

/-- The effective address of every form in numbers: base, scaled index and displacement modulo 2^16 or 2^32, the default
segment, and an override (R260 to R263); with no index and a scale other than 1 the offset is free (U8, log entry 8). MOVZX,
MOVSX, CBW/CWDE, CWD/CDQ, LEA, LAHF and XLAT write one register and no flag (R308 to R312, R314, R540). -/
def Obligations.ConversionResult : Prop :=
  (∀ (s : State) (m : MemOp) (r : Fin 8) (dflt : SReg),
    s.segOr dflt = (match s.pfx.seg with
      | some o => o
      | none => dflt) ∧
    (s.ea m).1 = s.segOr (defaultSegment m) ∧ ((s.ea m).2.toNat : Int) = offsetNumber s m ∧
    s.locate (.mem m) = .mem (s.ea m).1 (s.ea m).2 ∧ s.locate (.reg r) = .reg r) ∧
  ∀ s : State, s.prefixesOk false →
    let l : Loc := .mem (s.segOr .ds) (wrapTo s.asz (s.addrReg s.asz ebx + (s.reg .w8 eax).zeroExtend 32))
    (∀ (signed : Bool) (f : MovxForm), s.readable (extendParts f).2.2 (s.locate (extendParts f).2.1) = true →
      exec (extendInstr signed f) s = .next (retire s (extendAfter signed f s.begun) .next)) ∧
    (∀ op : RegOp, exec op.instr s = .next (retire s (op.after s.begun) .next)) ∧
    (s.readable .w8 l = true →
      exec .xlat s = .next (retire s ((s.begun.afterRead .w8 l).setReg .w8 eax (s.valueAt .w8 l)) .next))

/-- The layout of selectors, descriptors and gates in numbers (R124, R125, R149), with the limit of granularity G, and
what a descriptor register takes from a descriptor, and in virtual-8086 mode from the selector alone (R135); the tests of
privilege, and the place of a selector in the GDT (R124, R145). MOV Sreg, r/m16 and LDS, LES, LSS, LFS, LGS load a segment register as
each mode says (R135, R142, R145, R304, R313). That a load in real mode makes the register usable is the model's choice
(log entry 23). In protected mode a selector that `LoadSeg` does not accept is the exception of the first check of R145 that
fails: a null selector for SS is 13 (0); one outside its table, of the wrong type or privilege, 13 with the selector; a segment
that is not present 11, or 12 for SS, with the selector; the segment register and all other registers stay as they were
(R142, R145, R644). -/
def Obligations.SegmentLoadResult : Prop :=
  (∀ (d : Desc) (sel : Word16), let v := d.toNat
    let bitAt (k : Nat) : Bool := v / 2 ^ k % 2 == 1
    let raw := v / 2 ^ 48 % 2 ^ 4 * 2 ^ 16 + v % 2 ^ 16
    d.base.toNat = v / 2 ^ 56 * 2 ^ 24 + v / 2 ^ 16 % 2 ^ 24 ∧
    d.limit.toNat = (if bitAt 55 then raw * 4096 + 4095 else raw) ∧
    d.type = v / 2 ^ 40 % 16 ∧ d.dpl.toNat = v / 2 ^ 45 % 4 ∧ d.present = bitAt 47 ∧ d.isSegment = bitAt 44 ∧
    d.isCode = (bitAt 44 && bitAt 43) ∧ d.isData = (bitAt 44 && !bitAt 43) ∧ d.conforming = (bitAt 44 && bitAt 43 && bitAt 42) ∧
    d.readable = (bitAt 44 && (!bitAt 43 || bitAt 41)) ∧ d.writable = (bitAt 44 && !bitAt 43 && bitAt 41) ∧
    d.accessed = bitAt 40 ∧
    d.toSeg sel = { selector := sel, base := d.base, limit := d.limit, usable := true, present := d.present, dpl := d.dpl,
                    code := bitAt 43, ec := bitAt 42, readable := !bitAt 43 || bitAt 41,
                    writable := !bitAt 43 && bitAt 41, accessed := true, db := bitAt 54 } ∧
    (gateSelector d).toNat = v / 2 ^ 16 % 2 ^ 16 ∧ (gateOffset d .s16).toNat = v % 2 ^ 16 ∧
    (gateOffset d .s32).toNat = v / 2 ^ 48 * 2 ^ 16 + v % 2 ^ 16 ∧
    gateSize d = (if 12 ≤ v / 2 ^ 40 % 16 then .s32 else .s16) ∧
    selIndex sel = sel.toNat / 8 ∧ selLocal sel = (sel.toNat / 4 % 2 == 1) ∧ (selRpl sel).toNat = sel.toNat % 4 ∧
    selNull sel = decide (sel.toNat < 4)) ∧
  (∀ (s : State) (sel : Word16), let at8 := sel.toNat / 8 * 8
    s.descAddr sel =
      if sel.toNat / 4 % 2 = 1 then
        (if s.ldtr.valid = true ∧ at8 + 7 ≤ s.ldtr.limit.toNat then some (s.ldtr.base + BitVec.ofNat 32 at8) else none)
      else if at8 + 7 ≤ s.gdtr.limit.toNat then some (s.gdtr.base + BitVec.ofNat 32 at8) else none) ∧
  (∀ (s : State) (sel : Word16) (d : Desc) (cpl : BitVec 2) (r : SReg) (g : SegReg),
    let at8 := sel.toNat / 8 * 8
    SegReg.v86 sel = { selector := sel, base := BitVec.ofNat 32 (16 * sel.toNat), limit := 0xFFFF, usable := true,
                       present := true, dpl := 3, code := false, ec := false, readable := true, writable := true,
                       accessed := true, db := false } ∧
    (lvlLe d.dpl cpl = true ↔ d.dpl.toNat ≤ cpl.toNat) ∧
    (privOk cpl sel d = true ↔ cpl.toNat ≤ d.dpl.toNat ∧ sel.toNat % 4 ≤ d.dpl.toNat) ∧
    s.gdtAddr sel = s.gdtr.base + BitVec.ofNat 32 at8 ∧
    (s.inGdt sel = true ↔ 4 ≤ sel.toNat ∧ sel.toNat / 4 % 2 = 0 ∧ at8 + 7 ≤ s.gdtr.limit.toNat) ∧
    (s.setSeg r g).seg r = g ∧ (∀ q, q ≠ r → (s.setSeg r g).seg q = s.seg q) ∧
    [SReg.es, .cs, .ss, .ds, .fs, .gs].map s.seg = [s.es, s.cs, s.ss, s.ds, s.fs, s.gs]) ∧
  (∀ (sr : SReg) (rm : RM) (s : State),
    let l := s.locate rm
    let sel : Word16 := s.valueAt .w16 l
    sr ≠ .cs → s.prefixesOk false → s.readable .w16 l = true → segLoads s sr sel = true →
      exec (.mov (.swEw sr rm)) s =
        .next (retire s (ssShadow (afterSegLoad (s.begun.afterRead .w16 l) sr sel) sr) .next)) ∧
  (∀ (i : FarLoad) (r : Fin 8) (m : MemOp) (s : State), s.prefixesOk false → farReadable s m = true →
    segLoads s i.seg (farPointer s m).2 = true →
      exec (i.instr r m) s = .next (retire s (i.after r m s.begun) .next)) ∧
  ∀ s : State, s.prefixesOk false → s.protectedMode = true → s.flat = true →
    (∀ (r : SReg) (sel : Word16), segLoads s r sel = (firstFailing (segChecks s r sel)).isNone) ∧
    ∀ (v : Byte) (c : Word32),
      (∀ (sr : SReg) (rm : RM), sr ≠ .cs → s.readable .w16 (s.locate rm) = true →
        firstFailing (segChecks s sr (s.valueAt .w16 (s.locate rm))) = some (v, c) →
          exec (.mov (.swEw sr rm)) s = deliver s (s.faultEvent v (some c))) ∧
      ∀ (i : FarLoad) (r : Fin 8) (m : MemOp), farReadable s m = true →
        firstFailing (segChecks s i.seg (farPointer s m).2) = some (v, c) →
          exec (i.instr r m) s = deliver s (s.faultEvent v (some c))

/-- MOV r/m, Sreg, SLDT, STR and SMSW store a 16-bit register of the processor (R305, R555, R557, R564). -/
def Obligations.WordStoreResult : Prop :=
  ∀ (i : WordStore) (s : State), s.prefixesOk false → i.ready s = true →
    s.storable .w16 (s.locate i.operand) = true → exec i.instr s = .next (retire s (i.after s.begun) .next)

/-- MOV to and from CR0, CR2, CR3 and the debug registers at CPL 0; DR7.GD is exception 1 with DR6.BD; TR6 and TR7 are
refused; numbers that name no register are exception 6 and their encodings decode to none (R48, R560 to R562, U20). The
reserved bits of DR6 and DR7 read as free values (U3; DR7 bits 11, 12, 14 and 15 where they hold a 1 only,
log entry 7). Whether a change of PG or
PE empties the look-aside buffer is free (log entry 11); a change of the page mapping leaves the old one to the bytes
already prefetched (R111, log entry 32). -/
def Obligations.SpecialRegisterMoves : Prop :=
  (∀ c : Cr0, Cr0.ofWord c.toWord = c ∧ c.toWord &&& 0x7FFFFFE0 = 0 ∧
    ∀ p ∈ [(0, c.pe), (1, c.mp), (2, c.em), (3, c.ts), (4, c.et), (31, c.pg)], c.toWord.getLsbD p.1 = p.2) ∧
  (∀ (osz asz : Size) (r n : Fin 8) (rest : List Byte), let modrm : Byte := BitVec.ofNat 8 (0xC0 + 8 * n.val + r.val)
    (n = 1 ∨ 4 ≤ n.val → ∀ op ∈ [(0x20 : Byte), 0x22], decode osz asz (0x0F :: op :: modrm :: rest) = some (.invalid, rest)) ∧
    (n = 4 ∨ n = 5 → ∀ op ∈ [(0x21 : Byte), 0x23], decode osz asz (0x0F :: op :: modrm :: rest) = some (.invalid, rest)) ∧
    (n.val < 6 → ∀ op ∈ [(0x24 : Byte), 0x26], decode osz asz (0x0F :: op :: modrm :: rest) = some (.invalid, rest))) ∧
  ∀ (s : State) (r : Fin 8), s.cpl = 0 → s.prefixesOk false →
    let free (t : State) : State := t.withFlags (freeStatus s.freeBit s.flags)
    let v := s.reg32 r
    let done (t : State) : Host.Outcome State Fault Refusal := .next (retire s (free t) .next)
    let kept (changed : Bool) : Stale :=
      if changed then { s.stale with maps := { pg := s.cr0.pg, cr3 := s.cr3, tlb := s.tlb } :: s.stale.maps } else s.stale
    (exec (.mov (.r32Cr r 0)) s = done (s.begun.setReg32 r s.cr0.toWord) ∧
      exec (.mov (.r32Cr r 2)) s = done (s.begun.setReg32 r s.cr2) ∧
      exec (.mov (.r32Cr r 3)) s = done (s.begun.setReg32 r s.cr3)) ∧
    ((v.getLsbD 31 = true → v.getLsbD 0 = true) →
      let c := Cr0.ofWord v
      exec (.mov (.crR32 0 r)) s =
        done { s.begun with
          cr0 := c, tlb := if (c.pg ≠ s.cr0.pg ∨ c.pe ≠ s.cr0.pe) ∧ s.freeBit flushSlot = true then [] else s.tlb
          stale := kept (c.pg != s.cr0.pg) }) ∧
    (v.getLsbD 31 = true → v.getLsbD 0 = false →
      exec (.mov (.crR32 0 r)) s = deliver s (s.faultEvent 13 (some 0))) ∧
    exec (.mov (.crR32 2 r)) s = done { s.begun with cr2 := v } ∧
    exec (.mov (.crR32 3 r)) s = done { s.begun with cr3 := v &&& 0xFFFFF000, tlb := [], stale := kept s.cr0.pg } ∧
    (s.dr7.getLsbD 13 = false →
      exec (.mov (.r32Dr r 0)) s = done (s.begun.setReg32 r s.dr0) ∧
      exec (.mov (.r32Dr r 1)) s = done (s.begun.setReg32 r s.dr1) ∧
      exec (.mov (.r32Dr r 2)) s = done (s.begun.setReg32 r s.dr2) ∧
      exec (.mov (.r32Dr r 3)) s = done (s.begun.setReg32 r s.dr3) ∧
      exec (.mov (.r32Dr r 6)) s =
        done (s.begun.setReg32 r ((s.dr6 &&& 0x0000E00F) ||| (s.freeWord 0 &&& 0xFFFF1FF0))) ∧
      exec (.mov (.r32Dr r 7)) s =
        done (s.begun.setReg32 r ((s.dr7 &&& 0xFFFF23FF) ||| (s.freeWord 0 &&& 0x00000400) |||
          (s.freeWord 0 &&& s.dr7 &&& 0x0000D800))) ∧
      exec (.mov (.drR32 0 r)) s = done { s.begun with dr0 := v } ∧
      exec (.mov (.drR32 1 r)) s = done { s.begun with dr1 := v } ∧
      exec (.mov (.drR32 2 r)) s = done { s.begun with dr2 := v } ∧
      exec (.mov (.drR32 3 r)) s = done { s.begun with dr3 := v } ∧
      exec (.mov (.drR32 6 r)) s = done { s.begun with dr6 := v } ∧
      (badDebugControl v = false → exec (.mov (.drR32 7 r)) s = done { s.begun with dr7 := v }) ∧
      (badDebugControl v = true → exec (.mov (.drR32 7 r)) s = .fault .debugField)) ∧
    (s.dr7.getLsbD 13 = true → ∀ n : Fin 8, n ≠ 4 → n ≠ 5 →
      let t := { s with dr6 := s.dr6 ||| 0x2000, dr7 := s.dr7 &&& 0xFFFFDFFF }
      exec (.mov (.r32Dr r n)) s = deliver t (s.faultEvent 1 none) ∧
      exec (.mov (.drR32 n r)) s = deliver t (s.faultEvent 1 none)) ∧
    (∀ i : Instr, unnamed i = true → exec i s = deliver s (s.faultEvent 6 none)) ∧
    (∀ n : Fin 8, n = 6 ∨ n = 7 →
      exec (.mov (.r32Tr r n)) s = .refused .testRegister ∧ exec (.mov (.trR32 n r)) s = .refused .testRegister)

/-! ## Strings -/

/-- One element of a string instruction without a repeat prefix (R420 to R431); INS and OUTS of ports that the I/O
privilege level and the bitmap deny are exception 13 (0) (R584, R585). That the bits of the numbers from 10000H on count for
an access that runs past port FFFFH (log entry 44), and that virtual-8086 mode with IOPL below 3 asks the bitmap where the part
has both (log entry 47), are the model's choices. -/
def Obligations.StringElementResult : Prop :=
  ∀ (op : StringOp) (byte : Bool) (s : State), s.prefixesOk false →
    (elementReady op (elementWidth s byte) s = true →
      exec (op.instr byte) s = .next (retire s (elementAfter op (elementWidth s byte) s.begun) .next)) ∧
    (op.usesPort = true → s.flat = true →
      portsPermitted s (s.reg .w16 edx) (elementWidth s byte).bytes = false →
        exec (op.instr byte) s = deliver s (s.faultEvent 13 (some 0)))

/-- With a repeat prefix one step does one element and counts (E)CX down, until it is 0 or ZF ends a comparison; a count of
0 does nothing (R440, R441). INS and OUTS without the I/O privilege, where the part has no bitmap, are exception 13 (0)
whatever the count (R584, R686); where the part has one, the bitmap decides, in virtual-8086 mode too (log entry 47). -/
def Obligations.RepeatedStringResult : Prop :=
  ∀ (op : StringOp) (byte : Bool) (rep : Rep) (s : State), s.pfx.lock = false → s.pfx.rep = some rep →
    (op.compares = true ∨ rep = .repe) →
    let allowed := !op.usesPort || s.ioAllowed || s.cfg.hasIoBitmap
    (allowed = true → s.addrReg s.asz ecx = 0 → exec (op.instr byte) s = .next (retire s s.begun .next)) ∧
    (s.addrReg s.asz ecx ≠ 0 → elementReady op (elementWidth s byte) s = true →
      let t := repeatAfter op (elementWidth s byte) s.begun
      exec (op.instr byte) s = .next (retire s t (if repeatOver op rep t then .next else .again))) ∧
    (allowed = false → exec (op.instr byte) s = deliver s (s.faultEvent 13 (some 0)))

/-! ## The stack -/

/-- PUSH, PUSH Sreg, PUSHF and PUSHA (R470 to R474, R477, R480), with the places of the flags in EFLAGS (R29). The stack
pointer is ESP where protected mode has B = 1 in the descriptor of SS, else SP, whose write keeps ESP[31:16]; it moves modulo
2^32 or 2^16, and an item is stored with its lowest byte first (R470). That PUSHA tests the room item by item, each at its own wrapped offset, where R477
checks the whole block (log entry 30), and that with a 32-bit operand on a 16-bit stack it pushes all of ESP (log entry 48), are
the model's choices. -/
def Obligations.PushResult : Prop :=
  (∀ f : EFlags, f.toWord &&& 0xFFFC802A = 2 ∧ f.toWord.extractLsb' 12 2 = f.iopl ∧
    ∀ p ∈ [(0, f.cf), (2, f.pf), (4, f.af), (6, f.zf), (7, f.sf), (8, f.tf), (9, f.intf), (10, f.df), (11, f.ovf),
      (14, f.nt), (16, f.rf), (17, f.vm)], f.toWord.getLsbD p.1 = p.2) ∧
  (∀ v : Word32, (EFlags.ofWord v).toWord = v &&& 0x00037FD5 ||| 2) ∧
  (∀ (s : State) (sz : Size) (r : Fin 8) (v : Word32) (n : Nat), let m := modulus s.ssz
    s.ssz = sizeIf (s.cr0.pe = true ∧ s.flags.vm = false ∧ s.ss.db = true) ∧
    s.sp.toNat = (s.reg32 4).toNat % m ∧ ((s.spBelow v n).toNat : Int) = ((v.toNat : Int) - n) % m ∧
    s.setSp v = s.setAddrReg s.ssz 4 v ∧
    (wrapTo sz v).toNat = v.toNat % modulus sz ∧ (s.addrReg sz r).toNat = (s.reg32 r).toNat % modulus sz ∧
    ((s.setAddrReg sz r v).reg32 r).toNat =
      (s.reg32 r).toNat / modulus sz * modulus sz + v.toNat % modulus sz ∧
    (∀ q, q ≠ r → (s.setAddrReg sz r v).reg32 q = s.reg32 q) ∧
    s.setAddrReg sz r v = { s with regs := (s.setAddrReg sz r v).regs } ∧
    (bytesOfNat sz.bytes v.toNat).length = sz.bytes ∧
    ∀ k < sz.bytes, (bytesOfNat sz.bytes v.toNat)[k]? = some (BitVec.ofNat 8 (v.toNat / 2 ^ (8 * k)))) ∧
  ∀ s : State, s.prefixesOk false →
    (∀ f : PushForm, (pushSource s s.osz.width f).readable s = true → s.canPush s.osz = true →
      exec (.push f) s = .next (retire s (pushAfter f s.begun) .next)) ∧
    (∀ r : SReg, s.canPush s.osz = true →
      exec (pushSegInstr r) s = .next (retire s (pushedBytes s.begun (segItem s r)) .next)) ∧
    (s.v86Allowed = true → s.canPush s.osz = true →
      exec .pushf s = .next (retire s (s.begun.pushed s.osz (s.flags.toWord &&& 0x00FCFFFF)) .next)) ∧
    (canPushItems s s.osz.bytes 8 = true → exec .pusha s = .next (retire s (pushaAfter s.begun) .next))

/-- POP, POP Sreg, POPF and POPA (R470, R475, R476, R478, R481), and which flags POPF changes at which level. The stack
pointer, SP or ESP by the B bit of SS, moves up modulo 2^16 or 2^32; an item has its lowest byte first (R470). That POP SS
moves the stack pointer by the size of the new stack segment is the model's choice (log entry 29), and that a load of a
segment register in real mode makes it usable (log entry 23). A selector that `LoadSeg` refuses in protected mode is the
exception of the first check of R145 that fails, with the stack pointer and every register as they were (R145, R476, R644). -/
def Obligations.PopResult : Prop :=
  (∀ (s : State) (v : Word32), let f := s.poppedFlags v
    (∀ p ∈ [(0, f.cf), (2, f.pf), (4, f.af), (6, f.zf), (7, f.sf), (8, f.tf), (10, f.df), (11, f.ovf), (14, f.nt)],
      p.2 = v.getLsbD p.1) ∧
    f.iopl = (if s.cpl = 0 then v.extractLsb' 12 2 else s.flags.iopl) ∧
    f.intf = (if s.cpl.toNat ≤ s.flags.iopl.toNat then v.getLsbD 9 else s.flags.intf) ∧
    f.rf = s.flags.rf ∧ f.vm = s.flags.vm) ∧
  (∀ (s : State) (sz : Size) (v : Word32) (n : Nat), let m := modulus s.ssz
    s.ssz = sizeIf (s.cr0.pe = true ∧ s.flags.vm = false ∧ s.ss.db = true) ∧
    s.sp.toNat = (s.reg32 4).toNat % m ∧ (s.spAbove v n).toNat = (v.toNat + n) % m ∧
    ((s.setSp v).reg32 4).toNat = (s.reg32 4).toNat / m * m + v.toNat % m ∧
    (s.peek sz v).toNat < modulus sz ∧
    ∀ k < sz.bytes, (s.peek sz v).toNat / 2 ^ (8 * k) % 2 ^ 8 =
      (s.physByte (BitVec.ofNat 32 (s.ss.base.toNat + v.toNat + k))).toNat) ∧
  ∀ s : State, s.prefixesOk false →
    let top := s.peek s.osz s.sp
    (s.canPeek s.osz s.sp = true →
      (∀ r : Fin 8, exec (.pop (.r r)) s = .next (retire s ((s.begun.popped s.osz).setAddrReg s.osz r top) .next)) ∧
      (∀ rm : RM,
        let t := s.begun.popped s.osz
        t.storable s.osz.width (t.locate rm) = true →
          exec (.pop (.ev rm)) s =
            .next (retire s (t.afterWrite s.osz.width (t.locate rm) (top.truncate s.osz.width.bits)) .next)) ∧
      (∀ p : PopSeg, segLoads s p.reg (top.truncate 16) = true →
        exec p.instr s = .next (retire s (popSegAfter p.reg s.begun) .next)) ∧
      (∀ (p : PopSeg) (v : Byte) (c : Word32), s.protectedMode = true →
        firstFailing (segChecks s p.reg (top.truncate 16)) = some (v, c) →
          exec p.instr s = deliver s (s.faultEvent v (some c))) ∧
      (s.v86Allowed = true →
        exec .popf s = .next (retire s ((s.begun.popped s.osz).withFlags (s.poppedFlags top)) .next))) ∧
    (canPeekItems s s.osz 8 = true → exec .popa s = .next (retire s (popaAfter s.begun) .next))

/-- ENTER builds a frame with its display, LEAVE removes one (R483, R484). That ENTER zero-extends SP to the frame pointer
where a 32-bit operand meets a 16-bit stack is the model's choice (log entry 38). -/
def Obligations.FrameResult : Prop :=
  ∀ s : State, s.prefixesOk false →
    let t := unwound s.begun
    (∀ (imm : Word16) (imm2 : Byte), enterReady imm2 s = true →
      exec (.enter imm imm2) s = .next (retire s (enterAfter imm imm2 s.begun) .next)) ∧
    (t.canPeek t.osz t.sp = true →
      exec .leave s = .next (retire s ((t.popped s.osz).setAddrReg s.osz ebp (t.peek s.osz t.sp)) .next))

/-! ## Control transfer -/

/-- Jcc jumps and SETcc stores 1 exactly when the condition holds; a target beyond the limit is exception 13 (0) (R490,
R493, R497, R543). Operand and address size are 32 in protected mode with D = 1 in CS, else 16, and a prefix 66 or 67 gives
the other one (R255, R256); a 16-bit operand size cuts a target to 16 bits (R490). -/
def Obligations.ConditionResult : Prop :=
  (∀ (s : State) (v : Word32),
    s.osz = sizeIf (wideCode s ≠ s.pfx.o66) ∧ s.asz = sizeIf (wideCode s ≠ s.pfx.a67) ∧
    (s.nearTarget v).toNat = v.toNat % modulus (sizeIf (wideCode s ≠ s.pfx.o66))) ∧
  ∀ (c : Cond) (s : State), s.prefixesOk false →
    (∀ f : JccForm,
      let t := s.nearTarget (s.nextEip + jccOffset f)
      (c.holds s.flags = false → exec (jccInstr c f) s = .next (retire s s.begun .next)) ∧
      (c.holds s.flags = true → targetOk s t = true →
        exec (jccInstr c f) s = .next (retire s (jumped s.begun t) .jump)) ∧
      (c.holds s.flags = true → targetOk s t = false →
        exec (jccInstr c f) s = deliver s (s.faultEvent 13 (some 0)))) ∧
    (∀ rm : RM, s.storable .w8 (s.locate rm) = true →
      exec (setccInstr c rm) s =
        .next (retire s (s.begun.afterWrite .w8 (s.locate rm) (if c.holds s.flags then 1 else 0)) .next))

/-- LOOP, LOOPE, LOOPNE and JCXZ: their encodings, the counter by address size, no flag changed; a fault leaves the
counter (R494, R495). -/
def Obligations.CountedJumps : Prop :=
  (∀ (j : CountJump) (d : Byte) (osz asz : Size) (rest : List Byte),
    decode osz asz (j.opcode :: d :: rest) = some (.instr (j.instr d), rest)) ∧
  ∀ (j : CountJump) (d : Byte) (s : State), s.prefixesOk false →
    let u := j.counted s.begun
    let t := s.nearTarget (s.nextEip + d.signExtend 32)
    (j.taken u = false → exec (j.instr d) s = .next (retire s u .next)) ∧
    (j.taken u = true → targetOk s t = true → exec (j.instr d) s = .next (retire s (jumped u t) .jump)) ∧
    (j.taken u = true → targetOk s t = false → exec (j.instr d) s = deliver s (s.faultEvent 13 (some 0)))

/-- Near JMP, CALL and RET; a target beyond the limit of the code segment is exception 13 (0), with nothing pushed or
released (R490 to R492, R496, R498). With a 16-bit operand size a target is taken modulo 2^16 (R490). -/
def Obligations.NearTransferResult : Prop :=
  (∀ (s : State) (v : Word32), (s.nearTarget v).toNat = if s.osz = .s16 then v.toNat % 2 ^ 16 else v.toNat) ∧
  ∀ s : State, s.prefixesOk false →
    (∀ f : NearForm, f.ready s = true →
      let t := s.nearTarget (f.target s)
      (targetOk s t = true →
        exec f.jmp s = .next (retire s (jumped (f.after s.begun) t) .jump) ∧
        ∀ i, f.call = some i → s.canPush s.osz = true →
          exec i s = .next (retire s (jumped ((f.after s.begun).pushed s.osz s.nextEip) t) .jump)) ∧
      (targetOk s t = false →
        exec f.jmp s = deliver s (s.faultEvent 13 (some 0)) ∧
        ∀ i, f.call = some i → exec i s = deliver s (s.faultEvent 13 (some 0)))) ∧
    (∀ n : Option Word16, s.canPeek s.osz s.sp = true →
      let u := s.begun.popped s.osz
      (targetOk s (s.peek s.osz s.sp) = true →
        exec (retInstr n) s =
          .next (retire s (jumped (u.setSp (u.spAbove u.sp (released n))) (s.peek s.osz s.sp)) .jump)) ∧
      (targetOk s (s.peek s.osz s.sp) = false → exec (retInstr n) s = deliver s (s.faultEvent 13 (some 0))))

/-- Far JMP, CALL and RET in real and virtual-8086 mode: the selector goes to CS and its base is sixteen times it
(R500). -/
def Obligations.FarTransferReal : Prop :=
  ∀ s : State, s.prefixesOk false → s.protectedMode = false →
    (∀ (call : Bool) (f : FarForm), f.ready s = true → targetOk s (f.pointer s).1 = true →
      (call = true → canPushItems s s.osz.bytes 2 = true) →
        exec (f.instr call) s =
          .next (retire s (farJumped (callPushed (f.after s.begun) call s.osz) (f.pointer s).2 (f.pointer s).1) .jump)) ∧
    (∀ n : Option Word16, canPeekItems s s.osz 2 = true → targetOk s (item s s.osz 0) = true →
      let t := (afterItems s.begun s.osz 2).setSp
        (wrapTo s.ssz (s.sp + BitVec.ofNat 32 (2 * s.osz.bytes + released n)))
      exec (farRetInstr n) s =
        .next (retire s (farJumped t ((item s s.osz 1).truncate 16) (item s s.osz 0)) .jump))

/-- Far JMP and CALL to a code segment, and RET far and IRET at the same level, in protected mode (R501, R502, R506, R508,
R512). A frame that the stack does not hold whole is exception 12 (0). Each check of R501, R502, R508 and R512 that fails first,
in the order of the rule, is the exception it names, with every register as it was; so is a far JMP or CALL to what is neither
code nor a gate nor a free task state segment. The model's choices: IRET with a 16-bit operand leaves
RF clear (log entry 24); the room for what a call pushes is tested item by item, each at its own wrapped offset (log entry
30); a frame may go on beyond 64K on a 16-bit stack whose limit is above FFFFH (log entry 39); an SS that is not usable is
exception 12 (log entry 9). -/
def Obligations.FarTransferProtected : Prop :=
  ∀ s : State, s.prefixesOk false → s.protectedMode = true →
    let b := s.osz.bytes
    (∀ (call : Bool) (f : FarForm) (d : Desc) (la : Word32), f.ready s = true →
      codeAt s (f.pointer s).2 = some (d, la) → directAllowed s (f.pointer s).2 d = true →
      inSegment d (f.pointer s).1 = true → (call = true → canPushItems s b 2 = true) →
        exec (f.instr call) s = .next (retire s
          (codeLoaded (callPushed (f.after s.begun) call s.osz) (f.pointer s).2 d la s.cpl (f.pointer s).1) .jump)) ∧
    (∀ (d : Desc) (la : Word32),
      let off := frameItem s s.osz 0
      let sel : Word16 := (frameItem s s.osz b).truncate 16
      codeAt s sel = some (d, la) → returnAllowed s sel d = true → inSegment d off = true →
      (held s (2 * b) = true → ∀ n : Option Word16,
        exec (farRetInstr n) s = .next (retire s
          ((codeLoaded (afterFrame s.begun s.osz [0, b]) sel d la s.cpl off).setSp
            (wrapTo s.ssz (s.sp + BitVec.ofNat 32 (2 * b + released n)))) .jump)) ∧
      (held s (3 * b) = true → s.flags.nt = false →
        ¬(s.osz = .s32 ∧ (frameItem s s.osz (2 * b)).getLsbD 17 = true ∧ s.cpl = 0) →
        exec .iret s = .next (retire s
          { ((codeLoaded (afterFrame s.begun s.osz [0, b, 2 * b]) sel d la s.cpl off).setSp
                (wrapTo s.ssz (s.sp + BitVec.ofNat 32 (3 * b)))).withFlags
              (s.iretFlags s.osz (frameItem s s.osz (2 * b))) with nmiBlocked := false } .loaded))) ∧
    (s.flat = true →
      (held s (2 * b) = false → ∀ n : Option Word16, exec (farRetInstr n) s = deliver s (s.faultEvent 12 (some 0))) ∧
      (held s (3 * b) = false → s.flags.nt = false → exec .iret s = deliver s (s.faultEvent 12 (some 0))) ∧
      ∀ (v : Byte) (c : Word32),
        (∀ (call : Bool) (f : FarForm), f.ready s = true → namesSystem s (f.pointer s).2 = false →
          firstFailing (directChecks s call (f.pointer s).2 (f.pointer s).1) = some (v, c) →
            exec (f.instr call) s = deliver s (s.faultEvent v (some c))) ∧
        ((selRpl ((frameItem s s.osz b).truncate 16)).toNat ≤ s.cpl.toNat →
          (∀ n : Option Word16, held s (2 * b) = true → firstFailing (frameChecks s (2 * b + released n)) = some (v, c) →
            exec (farRetInstr n) s = deliver s (s.faultEvent v (some c))) ∧
          (held s (3 * b) = true → s.flags.nt = false →
            ¬(s.osz = .s32 ∧ (frameItem s s.osz (2 * b)).getLsbD 17 = true ∧ s.cpl = 0) →
            firstFailing (frameChecks s (3 * b)) = some (v, c) →
              exec .iret s = deliver s (s.faultEvent v (some c)))))

/-- Far JMP and CALL through a call gate, at the same level and to an inner level: there the parameters are copied to the
stack that the task state segment gives (R503, R504). That the room is tested item by item, each at its own wrapped offset
(log entry 30), and that the offsets at which the parameters are read go round modulo the size of the old stack pointer (log
entry 41), are the model's choices. Each check of R503 and R504 that fails first, in the order of the rule, is the exception it
names, with every register as it was; parameters that the old stack does not hold are exception 12 (0). -/
def Obligations.CallGateTransfer : Prop :=
  (∀ (s : State) (call : Bool) (f : FarForm) (g d : Desc) (la : Word32), s.prefixesOk false → s.protectedMode = true →
    f.ready s = true → callGateAt s (f.pointer s).2 = some g → codeAt s (gateSelector g) = some (d, la) →
    lvlLe d.dpl s.cpl = true →
    let sz := gateSize g
    let off := gateOffset g sz
    let u := f.after s.begun
    inSegment d off = true →
      ((d.conforming = true ∨ d.dpl = s.cpl) → (call = true → canPushItems s sz.bytes 2 = true) →
        exec (f.instr call) s =
          .next (retire s (codeLoaded (callPushed u call sz) (gateSelector g) d la s.cpl off) .jump)) ∧
      (d.conforming = false → d.dpl ≠ s.cpl → call = false →
        exec (f.instr call) s = deliver s (s.faultEvent 13 (some ((gateSelector g &&& 0xFFFC).zeroExtend 32)))) ∧
      (∀ (sd : Desc) (sla : Word32), d.conforming = false → d.dpl ≠ s.cpl → call = true → innerInTss s d.dpl = true →
        stackAt s d.dpl (innerPointer s d.dpl).1 = some (sd, sla) →
        canPeekItems s sz (g.extractLsb' 32 5).toNat = true →
        let t := onInnerStack (afterItems u sz (g.extractLsb' 32 5).toNat) d.dpl sd sla
        canPushItems t sz.bytes (innerCallFrame s g).length = true →
          exec (f.instr call) s =
            .next (retire s (codeLoaded (pushedItems t sz (innerCallFrame s g)) (gateSelector g) d la d.dpl off) .jump))) ∧
  ∀ (s : State) (call : Bool) (f : FarForm) (v : Byte) (c : Word32), s.prefixesOk false → s.protectedMode = true →
    s.flat = true → f.ready s = true → namesSystem s (f.pointer s).2 = true →
    [4, 12].contains (namedDesc s (f.pointer s).2).type = true →
    firstFailing (gateChecks s call (f.pointer s).2) = some (v, c) →
      exec (f.instr call) s = deliver s (s.faultEvent v (some c))

/-- RET far and IRET to an outer level, and IRET to virtual-8086 mode (R509, R512, R513). That IRET with a 16-bit operand
leaves RF clear (log entry 24), that a 32-bit return loads the stack pointer by the size of the new stack (log entry 18) and
that a frame may go on beyond 64K on a 16-bit stack whose limit is above FFFFH (log entry 39) are the model's choices. Each check
of R508, R509, R512 and R513 that fails first, in the order of the rule, is the exception it names, with every register as it
was. -/
def Obligations.OuterReturn : Prop :=
  ∀ s : State, s.prefixesOk false → s.protectedMode = true →
    let b := s.osz.bytes
    let off := frameItem s s.osz 0
    let sel : Word16 := (frameItem s s.osz b).truncate 16
    let outerSel (used : Nat) : Word16 := (frameItem s s.osz (used + b)).truncate 16
    (∀ (d sd : Desc) (la sla : Word32), codeAt s sel = some (d, la) → outerAllowed s sel d = true →
      inSegment d off = true →
      (∀ n : Option Word16, let used := 2 * b + released n
        held s (used + 2 * b) = true → stackAt s (selRpl sel) (outerSel used) = some (sd, sla) →
          exec (farRetInstr n) s = .next (retire s
            (outerReturned (afterFrame s.begun s.osz [0, b, used, used + b]) sel d la off (outerSel used) sd sla
              (frameItem s s.osz used + BitVec.ofNat 32 (released n))) .jump)) ∧
      (held s (5 * b) = true → s.flags.nt = false → stackAt s (selRpl sel) (outerSel (3 * b)) = some (sd, sla) →
        ¬(s.osz = .s32 ∧ (frameItem s s.osz (2 * b)).getLsbD 17 = true ∧ s.cpl = 0) →
          exec .iret s = .next (retire s
            { (outerReturned (afterFrame s.begun s.osz [0, b, 2 * b, 3 * b, 4 * b]) sel d la off (outerSel (3 * b)) sd sla
                (frameItem s s.osz (3 * b))).withFlags (s.iretFlags s.osz (frameItem s s.osz (2 * b))) with
              nmiBlocked := false } .loaded))) ∧
    (s.osz = .s32 → s.cpl = 0 → s.flags.nt = false → (frameItem s .s32 8).getLsbD 17 = true →
      (held s 36 = true → exec .iret s = .next (retire s (v86Returned s.begun) .loaded)) ∧
      (held s 12 = true → held s 36 = false → exec .iret s = deliver s (s.faultEvent 12 (some 0)))) ∧
    (∀ (v : Byte) (c : Word32), s.cpl.toNat < (selRpl sel).toNat →
      (∀ n : Option Word16, held s (2 * b) = true → firstFailing (frameChecks s (2 * b + released n)) = some (v, c) →
        exec (farRetInstr n) s = deliver s (s.faultEvent v (some c))) ∧
      (held s (3 * b) = true → s.flags.nt = false →
        ¬(s.osz = .s32 ∧ (frameItem s s.osz (2 * b)).getLsbD 17 = true ∧ s.cpl = 0) →
        firstFailing (frameChecks s (3 * b)) = some (v, c) →
          exec .iret s = deliver s (s.faultEvent v (some c))))

/-- The task switch, by a far JMP or CALL, by IRET with NT set, and by an interrupt, an exception, INT n, INT 3 or INTO
through a task gate (R505, R510, R512, R518, R520 to R522, R651): what is saved in the old task state segment, the busy
bits, the back link, TR, CR0.TS, and what is loaded from the new one. The RF of the saved image (log entry 15), the
privilege level before CS is loaded (log entry 17), that the entry through a task gate ends an interrupt shadow (log entry
31), that a null TR has no busy bit to clear (log entry 37) and that the queue is emptied in step 5 of R520, before the accessed
bits of step 7 are set (R111; log entry 50), are the model's choices. Each check of R505 and of step 1 of R520
that fails first is the exception it names, in the old task with every register as it was (the error code of a delivery has EXT
besides, DoubleFault). After the commit point a failing check of steps 6 to 8, and an error code for which the new stack has no
room, is an exception that waits in the new task; that the data-breakpoint matches made until then stay pending and no
single-step trap is added (log entry 43), and that DR7.GD is not cleared there for exception 1 (log entry 46), are the model's
choices. -/
def Obligations.TaskSwitchResult : Prop :=
  ∀ s : State,
    (∀ (call : Bool) (f : FarForm) (tsel : Word16), s.prefixesOk false → s.protectedMode = true → f.ready s = true →
      taskNamed s (f.pointer s).2 = some tsel →
      let kind : SwitchKind := if call then .call else .jmp
      taskReady (f.after s.begun) tsel kind s.nextEip false = true →
        exec (f.instr call) s = .next (retire s (taskSwitched (f.after s.begun) tsel kind s.nextEip false) .loaded)) ∧
    (s.prefixesOk false → s.protectedMode = true → s.flags.nt = true →
      let link : Word16 := fieldAt s .w16 s.tr.base
      taskReady s.begun link .iret s.nextEip false = true →
        exec .iret s =
          .next (retire s { taskSwitched s.begun link .iret s.nextEip false with nmiBlocked := false } .loaded)) ∧
    (∀ ev : Event, taskEntryReady s ev = true → deliver s ev = .next (taskEntered s ev)) ∧
    (∀ (i : Instr) (v : Byte), s.prefixesOk false → softVector s i = some v → taskEntryReady s (softEvent s v) = true →
      exec i s = .next (retire s (taskEntered s.begun (softEvent s v)) .loaded)) ∧
    (∀ (call : Bool) (f : FarForm), s.prefixesOk false → s.protectedMode = true → s.flat = true → f.ready s = true →
      namesSystem s (f.pointer s).2 = true → [1, 5, 9].contains (namedDesc s (f.pointer s).2).type = true →
      (∀ (v : Byte) (c : Word32), firstFailing (taskEntryChecks s call (f.pointer s).2) = some (v, c) →
        exec (f.instr call) s = deliver s (s.faultEvent v (some c))) ∧
      ∀ (tsel : Word16) (e : Byte × Word32) (t : State), taskNamed s (f.pointer s).2 = some tsel →
        let kind : SwitchKind := if call then .call else .jmp
        taskCommits s tsel kind = true → taskFault (f.after s.begun) tsel kind s.nextEip false = some (e, t) →
          exec (f.instr call) s = .next (taskPostponed t e)) ∧
    (s.prefixesOk false → s.protectedMode = true → s.flat = true → s.flags.nt = true →
      let link : Word16 := fieldAt s .w16 s.tr.base
      (∀ (v : Byte) (c : Word32), firstFailing (taskChecks s link .iret) = some (v, c) →
        exec .iret s = deliver s (s.faultEvent v (some c))) ∧
      ∀ (e : Byte × Word32) (t : State), taskCommits s link .iret = true →
        taskFault s.begun link .iret s.nextEip false = some (e, t) → exec .iret s = .next (taskPostponed t e)) ∧
    (∀ ev : Event, taskGateUsable s ev = true →
      let tsel := gateSelector (gateAt s ev.vector)
      let w := taskSwitched s tsel .int ev.ret ev.rf
      (∀ (v : Byte) (c : Word32), firstFailing (taskChecks s tsel .int) = some (v, c) →
        enter ev s = .error (.exc { vector := v, code := some c, newTask := false }) s) ∧
      (∀ (v : Byte) (c : Word32) (t : State), taskCommits s tsel .int = true →
        taskFault s tsel .int ev.ret ev.rf = some ((v, c), t) →
          enter ev s = .error (.exc { vector := v, code := some c, newTask := true }) t) ∧
      (taskReady s tsel .int ev.ret ev.rf = true → ev.code.isSome = true →
        w.canPush (if w.tr.is386 then .s32 else .s16) = false →
          enter ev s = .error (.exc { vector := 12, code := some 0, newTask := true }) w)) ∧
    (∀ (i : Instr) (n v : Byte) (c : Word32), s.prefixesOk false → softVector s i = some n →
      taskGateUsable s (softEvent s n) = true →
      firstFailing (taskChecks s (gateSelector (gateAt s n)) .int) = some (v, c) →
        exec i s = deliver s (s.faultEvent v (some c)))

/-! ## Interrupts and exceptions -/

/-- Taking an interrupt or exception in real mode (R655). That RF is cleared with IF and TF (log entry 16), and that the
entry ends an interrupt shadow, so that NMI and debug traps are not held off at the first boundary of a handler entered in
the shadow of a load of SS (log entry 31), are the model's choices. -/
def Obligations.RealModeEntry : Prop :=
  ∀ (s : State) (ev : Event), realEntryReady s ev.vector = true →
    deliver s ev = .next (realEntered s ev.vector ev.ret)

/-- Taking an interrupt or exception through an interrupt or trap gate at the same privilege level, and INT n, INT 3 and INTO
with OF set through such a gate: the saved address is that of the next instruction, there is no error code (R510, R518, R640,
R646, R650). That the room for the frame is tested item by item, each at its own wrapped offset (log entry 30), and that the
entry ends an interrupt shadow (log entry 31) are the model's choices. The check of step 1 of R646 on the entry of the
interrupt table that fails first is the exception it names, in the state before; its error code has EXT besides where the event
is no software interrupt (R642, DoubleFault). -/
def Obligations.GateEntrySameLevel : Prop :=
  (∀ (s : State) (d : Desc) (la : Word32),
    (∀ ev : Event, sameLevelReady s ev d la → deliver s ev = .next (sameLevelEntered s ev d la)) ∧
    (∀ (i : Instr) (v : Byte), s.prefixesOk false → softVector s i = some v → sameLevelReady s (softEvent s v) d la →
      exec i s = .next (retire s (sameLevelEntered s.begun (softEvent s v) d la) .loaded))) ∧
  ∀ (s : State) (ev : Event) (v : Byte) (c : Word32), s.cr0.pe = true → s.flat = true →
    firstFailing (idtChecks s ev) = some (v, c) →
      enter ev s = .error (.exc { vector := v, code := some c, newTask := false }) s

/-- Taking an interrupt or exception through an interrupt or trap gate to an inner level, and INT n, INT 3 and INTO with OF
set through such a gate: the stack comes from the task state segment, and the old stack, and from virtual-8086 mode the data
segments, are saved on it (R510, R518, R640, R646 to R648, R650). That the room for the frame is tested item by item, each at
its own wrapped offset (log entry 30), and that the entry ends an interrupt shadow (log entry 31) are the model's choices. Of an
event that may use its interrupt or trap gate, at the same or at an inner level, the check of steps 3 to 5 of R646 and of R647
that fails first is the exception it names, in the state before (with EXT as in DoubleFault), and of INT n, INT 3 and INTO it
is the exception of the instruction. From virtual-8086 mode through an 80286 gate the checks on the handler's segment come first,
and the entry itself is the fault v86Gate16 (R648, U21). -/
def Obligations.GateEntryInnerLevel : Prop :=
  (∀ (s : State) (d sd : Desc) (la sla : Word32),
    (∀ ev : Event, innerReady s ev d sd la sla → deliver s ev = .next (innerEntered s ev d sd la sla)) ∧
    (∀ (i : Instr) (v : Byte), s.prefixesOk false → softVector s i = some v → innerReady s (softEvent s v) d sd la sla →
      exec i s = .next (retire s (innerEntered s.begun (softEvent s v) d sd la sla) .loaded))) ∧
  ∀ (s : State) (ev : Event), gateUsable s ev = true →
    let narrow := s.v86 && gateSize (gateAt s ev.vector) == .s16
    (∀ (v : Byte) (c : Word32),
      firstFailing (if narrow then handlerChecks s ev else gateEntryChecks s ev) = some (v, c) →
        enter ev s = .error (.exc { vector := v, code := some c, newTask := false }) s ∧
        ∀ i : Instr, s.prefixesOk false → softVector s i = some ev.vector → ev = softEvent s ev.vector →
          exec i s = deliver s (s.faultEvent v (some c))) ∧
    (narrow = true → firstFailing (handlerChecks s ev) = none →
      deliver s ev = .fault .v86Gate16 ∧
      ∀ i : Instr, s.prefixesOk false → softVector s i = some ev.vector → ev = softEvent s ev.vector →
        exec i s = .fault .v86Gate16)

/-- An exception during the delivery of an event (R633): it is delivered in its place, or becomes exception 8 with error
code 0 and the EIP of the first event (R640), whose own failure shuts the processor down (R693). After the commit point of
a task switch it waits in the new task (R520). A vector beyond the limit of the real-mode table is exception 8 (R655). The
model's choices: a page fault in steps 2 to 5 of a task switch waits in the new task too (log entry 21), the data-breakpoint
matches made until then stay pending (log entry 43), and DR7.GD is not cleared there for exception 1 (log entry 46); the entry in
real mode clears RF (log entry 16); an exception that waits in the new task, an entry in real mode and the shutdown each end an
interrupt shadow (log entry 31); the shutdown drops the debug traps that a shadow holds off (log entry 42); the RF of the
double fault's image is free (log entry 7). -/
def Obligations.DoubleFault : Prop :=
  (∀ (s t : State) (ev : Event) (e : Exc), enter ev s = .error (.exc e) t →
    let u := undone s t
    let code := if ev.kind ≠ .software ∧ contributory.contains e.vector then e.code.map (· ||| 1) else e.code
    let second : Event := { vector := e.vector, kind := .exception, ret := s.eip, code := code, rf := true }
    let abort : Event :=
      { vector := 8, kind := .exception, ret := ev.ret, code := some 0, rf := s.freeBit doubleSlot }
    (e.newTask = true → deliver s ev = .next
      { t with pending := some { second with ret := t.eip }, pfx := Pfx.none, shadow := .none, midRep := false,
               run := .executing }) ∧
    (e.newTask = false → makesDouble ev e.vector = false → ∀ v, enter second u = .ok () v → deliver s ev = .next v) ∧
    (e.newTask = false → makesDouble ev e.vector = true →
      (∀ v, enter abort u = .ok () v → deliver s ev = .next v) ∧
      (∀ x v, enter abort u = .error (.exc x) v → x.newTask = false →
        deliver s ev = .next (shutDownState (undone u v))))) ∧
  (∀ (s : State) (ev : Event), s.realMode = true → s.flat = true → s.idtr.limit.toNat < 4 * ev.vector.toNat + 3 →
    (realEntryReady s 8 = true → deliver s ev = .next (realEntered s 8 ev.ret) ∧
      (s.prefixesOk false → exec (.int ev.vector) s = .next (realEntered s 8 s.nextEip))) ∧
    (s.idtr.limit.toNat < 35 → deliver s ev = .next (shutDownState s)))

/-- INT n, INT 3, INTO and IRET in real mode, INTO without overflow, IRET in virtual-8086 mode, BOUND (R510, R511, R518,
R519), and the flags that IRET loads (R511, R512). In protected and virtual-8086 mode INT n, INT 3 and INTO with OF set are
exception 13 (8 * vector + 2) beyond the limit of the interrupt table, for an entry that is no gate and for a gate with DPL
below CPL, and exception 11 for a gate that is not present (R510, R518, R646 step 1); what they do through a gate is in
GateEntrySameLevel, GateEntryInnerLevel and TaskSwitchResult. That the entry in real mode clears RF (log entry 16) and that IRET with a
16-bit operand leaves RF clear (log entry 24) are the model's choices. -/
def Obligations.InterruptInstructions : Prop :=
  (∀ (s : State) (sz : Size) (v : Word32),
    s.iretFlags sz v = { s.poppedFlags v with rf := decide (sz = .s32) && v.getLsbD 16 }) ∧
  ∀ s : State, s.prefixesOk false →
    (∀ v : Byte, realEntryReady s v = true →
      exec (.int v) s = .next (retire s (realEntered s.begun v s.nextEip) .loaded)) ∧
    (realEntryReady s 3 = true → exec .int3 s = .next (retire s (realEntered s.begun 3 s.nextEip) .loaded)) ∧
    (realEntryReady s 4 = true → s.flags.ovf = true →
      exec .into s = .next (retire s (realEntered s.begun 4 s.nextEip) .loaded)) ∧
    (s.flags.ovf = false → exec .into s = .next (retire s s.begun .next)) ∧
    (∀ (i : Instr) (v x : Byte), s.cr0.pe = true → s.flat = true → softVector s i = some v → softRefused s v = some x →
      exec i s = deliver s (s.faultEvent x (some (BitVec.ofNat 32 (8 * v.toNat + 2))))) ∧
    (s.protectedMode = false → s.v86Allowed = true → canPeekItems s s.osz 3 = true →
      targetOk s (item s s.osz 0) = true → exec .iret s = .next (retire s (iretRealAfter s.begun) .loaded)) ∧
    (∀ (r : Fin 8) (m : MemOp),
      let w := s.osz.width
      let p := s.ea m
      let hi := p.2 + BitVec.ofNat 32 w.bytes
      s.canAccess p.1 p.2 w.bytes false = true →
      s.canAccess p.1 hi w.bytes false = true →
        (if (s.operand w p.1 p.2).toInt ≤ (s.reg w r).toInt ∧ (s.reg w r).toInt ≤ (s.operand w p.1 hi).toInt then
          exec (.bound r m) s =
            .next (retire s ((s.begun.afterLoad p.1 p.2 w.bytes).afterLoad p.1 hi w.bytes) .next)
        else exec (.bound r m) s = deliver s (s.faultEvent 5 none)))

/-! ## Flags, system, input and output -/

/-- CLC, STC, CMC, CLD, STD, SAHF, NOP, CLI, STI: their encodings and the flags they write (R530 to R537, R541, R545). -/
def Obligations.FlagInstructions : Prop :=
  (∀ (op : FlagOp) (osz asz : Size) (rest : List Byte),
    decode osz asz (op.opcode :: rest) = some (.instr op.instr, rest)) ∧
  ∀ (op : FlagOp) (s : State), s.prefixesOk false → op.ready s = true →
    exec op.instr s = .next (retire s (op.after s.begun) .next)

/-- SGDT, SIDT, LGDT, LIDT (R550 to R553). That the six bytes are checked as one operand, before any of them is read, and
with an end that does not wrap, is the model's choice (log entry 28). -/
def Obligations.TableRegisterResult : Prop :=
  ∀ (op : TableOp) (s : State), s.prefixesOk false → op.ready s = true →
    exec op.instr s = .next (retire s (op.after s.begun) .next)

/-- LLDT, LTR, LMSW, CLTS and HLT at CPL 0 (R554, R556, R563, R565, R574). A selector that LLDT or LTR refuses is the exception of
the first check of its rule that fails, with every register as it was: for LTR a null selector is 13 (0). -/
def Obligations.SystemLoads : Prop :=
  ∀ s : State, s.prefixesOk false → s.cpl = 0 →
    (∀ rm : RM,
      let l := s.locate rm
      let v : Word16 := s.valueAt .w16 l
      let t := s.begun.afterRead .w16 l
      s.readable .w16 l = true →
        (s.protectedMode = true → lldtReady s v = true → exec (.lldt rm) s = .next (retire s (ldtLoaded t v) .next)) ∧
        (s.protectedMode = true → ltrReady s v = true → exec (.ltr rm) s = .next (retire s (trLoaded t v) .next)) ∧
        (s.protectedMode = true → s.flat = true → ∀ (x : Byte) (c : Word32),
          (selNull v = false → firstFailing (systemChecks s [2] v) = some (x, c) →
            exec (.lldt rm) s = deliver s (s.faultEvent x (some c))) ∧
          (firstFailing ((!selNull v, 13, 0) :: systemChecks s [1, 9] v) = some (x, c) →
            exec (.ltr rm) s = deliver s (s.faultEvent x (some c)))) ∧
        exec (.lmsw rm) s = .next (retire s (mswLoaded t v) .next)) ∧
    exec .clts s = .next (retire s { s.begun with cr0 := { s.cr0 with ts := false } } .next) ∧
    exec .hlt s = .next (retire s { s.begun with run := .halted, bus := .haltCycle :: s.bus } .next)

/-- VERR, VERW, LAR, LSL and ARPL in protected mode (R566 to R570). That ARPL completes on an operand that cannot be written
where its RPL need not be raised (log entry 33) is the model's choice. LAR and LSL read an operand of operand size, as R566 and
R567 have it, and not a word, as R271 lists it (log entry 40). -/
def Obligations.ProtectionQueries : Prop :=
  ∀ s : State, s.prefixesOk false → s.protectedMode = true →
    (∀ q : Query, s.flat = true → s.readable (q.operand s).1 (s.locate (q.operand s).2) = true →
      exec q.instr s = .next (retire s (q.after s.begun) .next)) ∧
    (∀ (rm : RM) (r : Fin 8), arplReady s rm r = true →
      exec (.arpl rm r) s = .next (retire s (arplAfter s.begun rm r) .next))

/-- IN and OUT (R580 to R585): the bytes read are free values of the ports (log entry 5); a port that the I/O privilege
level and the permission bitmap deny is exception 13 (0). That the bits of the numbers from 10000H on count for an access that
runs past port FFFFH (log entry 44), and that virtual-8086 mode with IOPL below 3 asks the bitmap where V86_IO_IOPL_SENSITIVE
and HAS_IO_BITMAP are both true (log entry 47), are the model's choices. An access across a double word runs the cycle of its high part
first (R85, R93), where no device answers with BS16#. The level permits ports in real mode, in virtual-8086 mode where IOPL
counts there and is 3, and in protected mode where CPL is at most IOPL (R584). -/
def Obligations.PortTransfer : Prop :=
  (∀ s : State, s.ioAllowed = true ↔
    s.cr0.pe = false ∨ (s.flags.vm = true ∧ s.cfg.v86IoIoplSensitive = true ∧ s.flags.iopl.toNat = 3) ∨
    (s.flags.vm = false ∧ s.cpl.toNat ≤ s.flags.iopl.toNat)) ∧
  (∀ (s : State) (f : Nat → List Byte → BusEvent) (port : Nat) (bs : List Byte), s.cfg.bus16 = [] → bs ≠ [] →
    let k := 4 - port % 4
    s.portCycles f port bs = if bs.length ≤ k then [f port bs] else [f port (bs.take k), f (port + k) (bs.drop k)]) ∧
  ∀ s : State, s.prefixesOk false →
    (∀ f : InForm,
      let w := (inParts s f).1
      let p := (inParts s f).2
      (portsPermitted s p w.bytes = true →
        exec (.inPort f) s =
          .next (retire s ((afterIn s.begun p w.bytes).setReg w eax (valueOf w (s.portBytes p w.bytes))) .next)) ∧
      (s.flat = true → portsPermitted s p w.bytes = false →
        exec (.inPort f) s = deliver s (s.faultEvent 13 (some 0)))) ∧
    (∀ f : OutForm,
      let w := (outParts s f).1
      let p := (outParts s f).2
      (portsPermitted s p w.bytes = true →
        exec (.outPort f) s = .next (retire s (afterOut s.begun p (bytesOf w (s.reg w eax))) .next)) ∧
      (s.flat = true → portsPermitted s p w.bytes = false →
        exec (.outPort f) s = deliver s (s.faultEvent 13 (some 0))))

/-- A prefix byte is recorded for the instruction that follows, and nothing else changes (R254). That each prefix byte is a
step of its own is the model's choice (log entry 3). -/
def Obligations.PrefixBytes : Prop :=
  ∀ (i : Instr) (f : Pfx → Pfx) (s : State), prefixRecords i = some f →
    exec i s = .next { s with pfx := { f s.pfx with count := s.pfx.count + 1 } }

/-! ## The coprocessor -/

/-- An ESC instruction sends its opcode and operand to the coprocessor, or stores what comes back; WAIT does nothing with
BUSY# and ERROR# inactive (R602, R603, R608 to R610). A store for which PEREQ comes late stays due; it is made when PEREQ
is active, before every other event, only while the processor executes, and between a prefix byte and its instruction as at a
boundary (R207, R610; the moment is the model's choice, log entries 3 and 12), and by the next WAIT or ESC before it does
anything else. Which instructions leave the kept addresses alone, that a store may be late, that it is made with CR0.EM set too
(R243, R604), and what the next WAIT and ESC do then, is the model's choice (log entry 12); the bytes that come back are free
(log entry 7). An operand passes the coprocessor's data port in items of 4 bytes with CR0.ET = 1 and of 2 with ET = 0, and a late
store reaches memory in them (R87, R610, R612). -/
def Obligations.CoprocessorResult : Prop :=
  (∀ s : State, s.prefixesOk false → s.cop.due = none →
    (∀ (i : Instr) (u : EscUse), escUse i = some u → s.cr0.em = false → s.cr0.ts = false → etFits s = true →
      (escNoWait i = true ∨ (busySeen s = false ∧ errorSeen s = false)) → u.ready s = true →
        exec i s = .next (retire s (escAfter i u s.begun) .next)) ∧
    (¬(s.cr0.mp = true ∧ s.cr0.ts = true) → busySeen s = false → errorSeen s = false →
      exec .wait s = .next (retire s s.begun .next))) ∧
  (∀ (s : State) (d : CopStore), s.cop.due = some d → etFits s = true →
    (s.prefixesOk false → ¬(s.cr0.mp = true ∧ s.cr0.ts = true) → busySeen s = false →
      exec .wait s = .next (retire s (dueStored s.begun d) .wait)) ∧
    (∀ (i : Instr) (u : EscUse), s.prefixesOk false → escUse i = some u → s.cr0.em = false → s.cr0.ts = false →
      (escNoWait i = true ∨ busySeen s = false) →
        exec i s = .next (retire s (dueStored s.begun d) .wait)) ∧
    (s.pins.reset = false → s.pins.hold = false → s.cfg.coproc ≠ .none → s.pins.pereq = true → s.run = .executing →
      step s = .next (dueStored { ({ s with tick := s.tick + 1 } : State).turned with hlda := false } d)))

/-- Where ESC and WAIT do not run: exception 7 first, then waiting for BUSY#, then exception 16; the reserved memory forms
are refused (R602, R606 to R609). With CR0.ET wrong for the coprocessor that is fitted an ESC instruction stops, and so does a
store that is due, at PEREQ and at WAIT, with CR0.EM set too (R612, U19; log entry 12). -/
def Obligations.CoprocessorStops : Prop :=
  ∀ s : State, s.prefixesOk false →
    (∀ i : Instr, (∃ u, escUse i = some u) ∨ (∃ f, i = .escReserved f) → s.cr0.em = true ∨ s.cr0.ts = true →
      exec i s = deliver s (s.faultEvent 7 none)) ∧
    (∀ f : ReservedForm, s.cr0.em = false → s.cr0.ts = false →
      exec (.escReserved f) s = .refused .escReservedMemory) ∧
    (∀ (i : Instr) (u : EscUse), escUse i = some u → escNoWait i = false → s.cr0.em = false → s.cr0.ts = false →
      etFits s = true →
      (busySeen s = true → exec i s = .next (retire s s.begun .wait)) ∧
      (busySeen s = false → errorSeen s = true → s.cop.due = none → exec i s = deliver s (s.faultEvent 16 none))) ∧
    (s.cr0.mp = true → s.cr0.ts = true → exec .wait s = deliver s (s.faultEvent 7 none)) ∧
    (¬(s.cr0.mp = true ∧ s.cr0.ts = true) →
      (busySeen s = true → exec .wait s = .next (retire s s.begun .wait)) ∧
      (busySeen s = false → errorSeen s = true → s.cop.due = none → exec .wait s = deliver s (s.faultEvent 16 none))) ∧
    (etFits s = false →
      (∀ (i : Instr) (u : EscUse), escUse i = some u → s.cr0.em = false → s.cr0.ts = false →
        exec i s = .fault .etMismatch) ∧
      (s.cop.due ≠ none →
        (¬(s.cr0.mp = true ∧ s.cr0.ts = true) → busySeen s = false → exec .wait s = .fault .etMismatch) ∧
        (s.pins.reset = false → s.pins.hold = false → s.pins.pereq = true → s.run = .executing →
          step s = .fault .etMismatch)))

/-! ## Legality -/

/-- LOCK before anything but its list is exception 6 (R101); the instructions of protected mode are exception 6 elsewhere;
a register number that does not exist is exception 6 at every level (R275, R643; R560 to R562 list the level first, log
entry 14), the privileged instructions are exception 13 (0) above CPL 0 (R558); CLI and STI need IOPL (R536, R537), and
PUSHF, POPF, INT n, IRET need IOPL 3 in virtual-8086 mode (R686). The modes, and what IOPL permits, in terms of PE, VM, CPL and
IOPL (R136, R536, R686); a fault saves the EIP of the first byte of its instruction, with RF set in the image (R640, R644). -/
def Obligations.LegalityFaults : Prop :=
  (∀ (s : State) (v : Byte) (code : Option Word32),
    let protect := s.cr0.pe = true
    let vm := s.flags.vm = true
    let iopl := s.flags.iopl.toNat
    (s.realMode = true ↔ ¬protect) ∧ (s.v86 = true ↔ protect ∧ vm) ∧ (s.protectedMode = true ↔ protect ∧ ¬vm) ∧
    (s.ifAllowed = true ↔ ¬protect ∨ (vm ∧ iopl = 3) ∨ (¬vm ∧ s.cpl.toNat ≤ iopl)) ∧
    (s.v86Allowed = true ↔ (protect ∧ vm → iopl = 3)) ∧
    s.faultEvent v code = { vector := v, kind := .exception, ret := s.eip, code := code, rf := true }) ∧
  ∀ (i : Instr) (s : State),
    (s.pfx.lock = true → lockable i = false → prefixRecords i = none → exec i s = deliver s (s.faultEvent 6 none)) ∧
    (s.prefixesOk false →
      (protectedOnly i = true → s.protectedMode = false → exec i s = deliver s (s.faultEvent 6 none)) ∧
      (unnamed i = true → exec i s = deliver s (s.faultEvent 6 none)) ∧
      (privileged i = true → unnamed i = false → (protectedOnly i = true → s.protectedMode = true) → s.cpl ≠ 0 →
        exec i s = deliver s (s.faultEvent 13 (some 0))) ∧
      (i = .cli ∨ i = .sti → s.ifAllowed = false → exec i s = deliver s (s.faultEvent 13 (some 0))) ∧
      (v86Sensitive i = true → s.v86 = true → s.flags.iopl ≠ 3 → exec i s = deliver s (s.faultEvent 13 (some 0))))
end

