-- ==== Sys2Proof/Laws/Memory.lean ====
section
/-!
SUPPORT. Physical memory: reading after writing, and the canonical form.
-/
namespace Sys2Proof.Machine

/-- A read of the byte just written gives it, where memory has its canonical form. -/
@[simp] theorem memRead_memWrite_same (m : List Host.Cell) (a : Nat) (b : Byte) (hm : Memory.wf m = true) :
    memRead (memWrite m a b) a = b := by
  suffices h : ∀ low, memWfFrom low m = true → memRead (memWrite m a b) a = b from h 0 hm
  clear hm
  intro low
  induction m generalizing low with
  | nil =>
    intro _
    unfold memWrite
    split <;> simp_all [memRead]
  | cons c t ih =>
    obtain ⟨k, v⟩ := c
    intro h
    simp only [memWfFrom, Bool.and_eq_true, decide_eq_true_eq] at h
    obtain ⟨⟨⟨_, _⟩, _⟩, ht⟩ := h
    have skip : ∀ (l : List Host.Cell) (lo : Nat), memWfFrom lo l = true → a < lo → memRead l a = unwrittenByte := by
      intro l
      induction l with
      | nil => intros; rfl
      | cons d l ihl =>
        obtain ⟨j, w⟩ := d
        intro lo hl ha
        simp only [memWfFrom, Bool.and_eq_true, decide_eq_true_eq] at hl
        obtain ⟨⟨⟨hj, _⟩, _⟩, hl⟩ := hl
        have : j ≠ a := by omega
        simp only [memRead, this, if_false]
        exact ihl (j + 1) hl (by omega)
    unfold memWrite
    split
    · split
      · subst b
        have : k ≠ a := by omega
        simp only [memRead, this, if_false]
        exact skip t (k + 1) ht (by omega)
      · simp [memRead]
    · split
      · split
        · subst b
          exact skip t (k + 1) ht (by omega)
        · simp [memRead]
      · have : k ≠ a := by omega
        simp only [memRead, this, if_false]
        exact ih (k + 1) ht

/-- A write leaves every other byte alone. -/
theorem memRead_memWrite_other (m : List Host.Cell) (a c : Nat) (b : Byte) (h : c ≠ a) :
    memRead (memWrite m a b) c = memRead m c := by
  induction m with
  | nil =>
    unfold memWrite
    split
    · rfl
    · simp [memRead, Ne.symm h]
  | cons d t ih =>
    obtain ⟨k, v⟩ := d
    unfold memWrite
    split
    · split
      · rfl
      · simp [memRead, Ne.symm h]
    · split
      · subst k
        split <;> simp [memRead, Ne.symm h]
      · simp only [memRead, ih]

theorem memWfFrom_mono (m : List Host.Cell) {lo hi : Nat} (h : lo ≤ hi) (hm : memWfFrom hi m = true) :
    memWfFrom lo m = true := by
  cases m with
  | nil => rfl
  | cons d t =>
    obtain ⟨k, v⟩ := d
    simp only [memWfFrom, Bool.and_eq_true, decide_eq_true_eq] at hm ⊢
    exact ⟨⟨⟨by omega, hm.1.1.2⟩, hm.1.2⟩, hm.2⟩

theorem memWfFrom_memWrite (m : List Host.Cell) (low a : Nat) (b : Byte) (hl : low ≤ a) (ha : a < 2 ^ 32)
    (hm : memWfFrom low m = true) : memWfFrom low (memWrite m a b) = true := by
  induction m generalizing low with
  | nil =>
    unfold memWrite
    split
    · rfl
    · simp only [memWfFrom, Bool.and_eq_true, decide_eq_true_eq]
      exact ⟨⟨⟨hl, ha⟩, by simpa using ‹¬b = unwrittenByte›⟩, trivial⟩
  | cons d t ih =>
    obtain ⟨k, v⟩ := d
    have hm' := hm
    simp only [memWfFrom, Bool.and_eq_true, decide_eq_true_eq] at hm'
    obtain ⟨⟨⟨h1, h2⟩, h3⟩, h4⟩ := hm'
    unfold memWrite
    split
    · split
      · exact hm
      · simp only [memWfFrom, Bool.and_eq_true, decide_eq_true_eq]
        exact ⟨⟨⟨hl, ha⟩, by simpa using ‹¬b = unwrittenByte›⟩, ⟨⟨⟨by omega, h2⟩, h3⟩, h4⟩⟩
    · split
      · subst k
        split
        · exact memWfFrom_mono t (by omega) h4
        · simp only [memWfFrom, Bool.and_eq_true, decide_eq_true_eq]
          exact ⟨⟨⟨hl, ha⟩, by simpa using ‹¬b = unwrittenByte›⟩, h4⟩
      · simp only [memWfFrom, Bool.and_eq_true, decide_eq_true_eq]
        exact ⟨⟨⟨h1, h2⟩, h3⟩, ih (k + 1) (by omega) h4⟩

/-- A write at a physical address keeps the canonical form. -/
theorem memWrite_wf (m : List Host.Cell) (a : Nat) (b : Byte) (ha : a < 2 ^ 32) (hm : Memory.wf m = true) :
    Memory.wf (memWrite m a b) = true := memWfFrom_memWrite m 0 a b (by omega) ha hm

end Sys2Proof.Machine
end

