-- ==== Sys2Proof/Laws/Monad.lean ====
section
/-!
SUPPORT. How the steps of an instruction run: one equation per primitive of the monad M.
-/
namespace Sys2Proof.Machine

@[simp] theorem M_pure {α : Type} (a : α) (s : State) : (pure a : M α) s = .ok a s := rfl

theorem M_bind {α β : Type} (x : M α) (f : α → M β) (s : State) :
    (x >>= f) s = match x s with
      | .ok a t => f a t
      | .error e t => .error e t := by
  change EStateM.bind x f s = _
  unfold EStateM.bind
  cases x s <;> rfl

/-- A step that succeeds is followed by the rest. -/
theorem M_bind_ok {α β : Type} {x : M α} {f : α → M β} {s t : State} {a : α} (h : x s = .ok a t) :
    (x >>= f) s = f a t := by rw [M_bind, h]

/-- A step that stops ends the instruction. -/
theorem M_bind_error {α β : Type} {x : M α} {f : α → M β} {s t : State} {e : Stop} (h : x s = .error e t) :
    (x >>= f) s = .error e t := by rw [M_bind, h]

@[simp] theorem M_pure_bind {α β : Type} (a : α) (f : α → M β) (s : State) : (pure a >>= f : M β) s = f a s := rfl

@[simp] theorem M_get (s : State) : (get : M State) s = .ok s s := rfl

@[simp] theorem M_get_bind {β : Type} (f : State → M β) (s : State) : (get >>= f : M β) s = f s s := rfl

@[simp] theorem M_modify (f : State → State) (s : State) : (modify f : M PUnit) s = .ok () (f s) := rfl

@[simp] theorem M_modify_bind {β : Type} (f : State → State) (g : PUnit → M β) (s : State) :
    ((modify f : M PUnit) >>= g) s = g () (f s) := rfl

@[simp] theorem M_modifyGet {α : Type} (f : State → α × State) (s : State) :
    (modifyGet f : M α) s = .ok (f s).1 (f s).2 := rfl

@[simp] theorem M_throw {α : Type} (e : Stop) (s : State) : (throw e : M α) s = .error e s := rfl

@[simp] theorem M_throw_bind {α β : Type} (e : Stop) (f : α → M β) (s : State) :
    ((throw e : M α) >>= f) s = .error e s := rfl

@[simp] theorem M_map {α β : Type} (f : α → β) (x : M α) (s : State) :
    (f <$> x) s = match x s with
      | .ok a t => .ok (f a) t
      | .error e t => .error e t := by
  change EStateM.map f x s = _
  unfold EStateM.map
  cases x s <;> rfl

@[simp] theorem raise_run {α : Type} (v : Byte) (s : State) :
    (raise v : M α) s = .error (.exc { vector := v, code := none, newTask := false }) s := rfl

@[simp] theorem raiseCode_run {α : Type} (v : Byte) (c : Word32) (s : State) :
    (raiseCode v c : M α) s = .error (.exc { vector := v, code := some c, newTask := false }) s := rfl

@[simp] theorem require_true_run (v : Byte) (s : State) : require true v s = .ok () s := rfl

@[simp] theorem require0_true_run (v : Byte) (s : State) : require0 true v s = .ok () s := rfl

@[simp] theorem requireSel_true_run (v : Byte) (sel : Word16) (s : State) : requireSel true v sel s = .ok () s := rfl

@[simp] theorem require_false_run (v : Byte) (s : State) :
    require false v s = .error (.exc { vector := v, code := none, newTask := false }) s := rfl

@[simp] theorem require0_false_run (v : Byte) (s : State) :
    require0 false v s = .error (.exc { vector := v, code := some 0, newTask := false }) s := rfl

/-! ## What steps keep -/

/-- Whatever the steps do, a state with `p` is left with `p`, also where they stop. -/
def Keeps {α : Type} (p : State → Prop) (x : M α) : Prop :=
  ∀ s, p s → match x s with
    | .ok _ t => p t
    | .error _ t => p t

theorem Keeps.ok {α : Type} {p : State → Prop} {x : M α} (h : Keeps p x) {s t : State} {a : α} (hs : p s)
    (hx : x s = .ok a t) : p t := by
  have := h s hs
  rw [hx] at this
  exact this

theorem Keeps.error {α : Type} {p : State → Prop} {x : M α} (h : Keeps p x) {s t : State} {e : Stop} (hs : p s)
    (hx : x s = .error e t) : p t := by
  have := h s hs
  rw [hx] at this
  exact this

theorem keeps_pure {α : Type} (p : State → Prop) (a : α) : Keeps p (pure a : M α) := fun _ h => h

theorem keeps_get (p : State → Prop) : Keeps p (get : M State) := fun _ h => h

theorem keeps_throw {α : Type} (p : State → Prop) (e : Stop) : Keeps p (throw e : M α) := fun _ h => h

theorem keeps_modify (p : State → Prop) (f : State → State) (h : ∀ s, p s → p (f s)) :
    Keeps p (modify f : M PUnit) := fun s hs => h s hs

theorem keeps_bind {α β : Type} {p : State → Prop} {x : M α} {f : α → M β} (hx : Keeps p x)
    (hf : ∀ a, Keeps p (f a)) : Keeps p (x >>= f) := by
  intro s hs
  have h1 := hx s hs
  rw [M_bind]
  cases h : x s with
  | ok a t =>
    rw [h] at h1
    exact hf a t h1
  | error e t =>
    rw [h] at h1
    exact h1

theorem keeps_ite {α : Type} {p : State → Prop} {c : Prop} [Decidable c] {x y : M α} (hx : Keeps p x)
    (hy : Keeps p y) : Keeps p (if c then x else y) := by
  split
  · exact hx
  · exact hy

end Sys2Proof.Machine
end

