-- ==== Sys2Proof/Laws/State.lean ====
section
/-!
SUPPORT. The fields of a state after each named update of it, and after the end of an instruction.
-/
namespace Sys2Proof.Machine

/-! ## setReg32 -/

@[simp] theorem State.setReg32_cfg (s : State) (i : Fin 8) (v : Word32) : (s.setReg32 i v).cfg = s.cfg := rfl

@[simp] theorem State.setReg32_eip (s : State) (i : Fin 8) (v : Word32) : (s.setReg32 i v).eip = s.eip := rfl

@[simp] theorem State.setReg32_nextEip (s : State) (i : Fin 8) (v : Word32) :
    (s.setReg32 i v).nextEip = s.nextEip := rfl

@[simp] theorem State.setReg32_flags (s : State) (i : Fin 8) (v : Word32) : (s.setReg32 i v).flags = s.flags := rfl

@[simp] theorem State.setReg32_es (s : State) (i : Fin 8) (v : Word32) : (s.setReg32 i v).es = s.es := rfl

@[simp] theorem State.setReg32_cs (s : State) (i : Fin 8) (v : Word32) : (s.setReg32 i v).cs = s.cs := rfl

@[simp] theorem State.setReg32_ss (s : State) (i : Fin 8) (v : Word32) : (s.setReg32 i v).ss = s.ss := rfl

@[simp] theorem State.setReg32_ds (s : State) (i : Fin 8) (v : Word32) : (s.setReg32 i v).ds = s.ds := rfl

@[simp] theorem State.setReg32_fs (s : State) (i : Fin 8) (v : Word32) : (s.setReg32 i v).fs = s.fs := rfl

@[simp] theorem State.setReg32_gs (s : State) (i : Fin 8) (v : Word32) : (s.setReg32 i v).gs = s.gs := rfl

@[simp] theorem State.setReg32_gdtr (s : State) (i : Fin 8) (v : Word32) : (s.setReg32 i v).gdtr = s.gdtr := rfl

@[simp] theorem State.setReg32_idtr (s : State) (i : Fin 8) (v : Word32) : (s.setReg32 i v).idtr = s.idtr := rfl

@[simp] theorem State.setReg32_ldtr (s : State) (i : Fin 8) (v : Word32) : (s.setReg32 i v).ldtr = s.ldtr := rfl

@[simp] theorem State.setReg32_tr (s : State) (i : Fin 8) (v : Word32) : (s.setReg32 i v).tr = s.tr := rfl

@[simp] theorem State.setReg32_cpl (s : State) (i : Fin 8) (v : Word32) : (s.setReg32 i v).cpl = s.cpl := rfl

@[simp] theorem State.setReg32_cr0 (s : State) (i : Fin 8) (v : Word32) : (s.setReg32 i v).cr0 = s.cr0 := rfl

@[simp] theorem State.setReg32_cr2 (s : State) (i : Fin 8) (v : Word32) : (s.setReg32 i v).cr2 = s.cr2 := rfl

@[simp] theorem State.setReg32_cr3 (s : State) (i : Fin 8) (v : Word32) : (s.setReg32 i v).cr3 = s.cr3 := rfl

@[simp] theorem State.setReg32_dr0 (s : State) (i : Fin 8) (v : Word32) : (s.setReg32 i v).dr0 = s.dr0 := rfl

@[simp] theorem State.setReg32_dr1 (s : State) (i : Fin 8) (v : Word32) : (s.setReg32 i v).dr1 = s.dr1 := rfl

@[simp] theorem State.setReg32_dr2 (s : State) (i : Fin 8) (v : Word32) : (s.setReg32 i v).dr2 = s.dr2 := rfl

@[simp] theorem State.setReg32_dr3 (s : State) (i : Fin 8) (v : Word32) : (s.setReg32 i v).dr3 = s.dr3 := rfl

@[simp] theorem State.setReg32_dr6 (s : State) (i : Fin 8) (v : Word32) : (s.setReg32 i v).dr6 = s.dr6 := rfl

@[simp] theorem State.setReg32_dr7 (s : State) (i : Fin 8) (v : Word32) : (s.setReg32 i v).dr7 = s.dr7 := rfl

@[simp] theorem State.setReg32_tlb (s : State) (i : Fin 8) (v : Word32) : (s.setReg32 i v).tlb = s.tlb := rfl

@[simp] theorem State.setReg32_stale (s : State) (i : Fin 8) (v : Word32) : (s.setReg32 i v).stale = s.stale := rfl

@[simp] theorem State.setReg32_pfx (s : State) (i : Fin 8) (v : Word32) : (s.setReg32 i v).pfx = s.pfx := rfl

@[simp] theorem State.setReg32_run (s : State) (i : Fin 8) (v : Word32) : (s.setReg32 i v).run = s.run := rfl

@[simp] theorem State.setReg32_shadow (s : State) (i : Fin 8) (v : Word32) : (s.setReg32 i v).shadow = s.shadow := rfl

@[simp] theorem State.setReg32_midRep (s : State) (i : Fin 8) (v : Word32) : (s.setReg32 i v).midRep = s.midRep := rfl

@[simp] theorem State.setReg32_trap (s : State) (i : Fin 8) (v : Word32) : (s.setReg32 i v).trap = s.trap := rfl

@[simp] theorem State.setReg32_pending (s : State) (i : Fin 8) (v : Word32) :
    (s.setReg32 i v).pending = s.pending := rfl

@[simp] theorem State.setReg32_nmiLatch (s : State) (i : Fin 8) (v : Word32) :
    (s.setReg32 i v).nmiLatch = s.nmiLatch := rfl

@[simp] theorem State.setReg32_nmiBlocked (s : State) (i : Fin 8) (v : Word32) :
    (s.setReg32 i v).nmiBlocked = s.nmiBlocked := rfl

@[simp] theorem State.setReg32_pins (s : State) (i : Fin 8) (v : Word32) : (s.setReg32 i v).pins = s.pins := rfl

@[simp] theorem State.setReg32_hlda (s : State) (i : Fin 8) (v : Word32) : (s.setReg32 i v).hlda = s.hlda := rfl

@[simp] theorem State.setReg32_bus (s : State) (i : Fin 8) (v : Word32) : (s.setReg32 i v).bus = s.bus := rfl

@[simp] theorem State.setReg32_cop (s : State) (i : Fin 8) (v : Word32) : (s.setReg32 i v).cop = s.cop := rfl

@[simp] theorem State.setReg32_mem (s : State) (i : Fin 8) (v : Word32) : (s.setReg32 i v).mem = s.mem := rfl

@[simp] theorem State.setReg32_masters (s : State) (i : Fin 8) (v : Word32) :
    (s.setReg32 i v).masters = s.masters := rfl

@[simp] theorem State.setReg32_tick (s : State) (i : Fin 8) (v : Word32) : (s.setReg32 i v).tick = s.tick := rfl

/-! ## setReg -/

@[simp] theorem State.setReg_cfg (s : State) (w : Width) (i : Fin 8) (v : BitVec w.bits) :
    (s.setReg w i v).cfg = s.cfg := by cases w <;> rfl

@[simp] theorem State.setReg_eip (s : State) (w : Width) (i : Fin 8) (v : BitVec w.bits) :
    (s.setReg w i v).eip = s.eip := by cases w <;> rfl

@[simp] theorem State.setReg_nextEip (s : State) (w : Width) (i : Fin 8) (v : BitVec w.bits) :
    (s.setReg w i v).nextEip = s.nextEip := by cases w <;> rfl

@[simp] theorem State.setReg_flags (s : State) (w : Width) (i : Fin 8) (v : BitVec w.bits) :
    (s.setReg w i v).flags = s.flags := by cases w <;> rfl

@[simp] theorem State.setReg_es (s : State) (w : Width) (i : Fin 8) (v : BitVec w.bits) :
    (s.setReg w i v).es = s.es := by cases w <;> rfl

@[simp] theorem State.setReg_cs (s : State) (w : Width) (i : Fin 8) (v : BitVec w.bits) :
    (s.setReg w i v).cs = s.cs := by cases w <;> rfl

@[simp] theorem State.setReg_ss (s : State) (w : Width) (i : Fin 8) (v : BitVec w.bits) :
    (s.setReg w i v).ss = s.ss := by cases w <;> rfl

@[simp] theorem State.setReg_ds (s : State) (w : Width) (i : Fin 8) (v : BitVec w.bits) :
    (s.setReg w i v).ds = s.ds := by cases w <;> rfl

@[simp] theorem State.setReg_fs (s : State) (w : Width) (i : Fin 8) (v : BitVec w.bits) :
    (s.setReg w i v).fs = s.fs := by cases w <;> rfl

@[simp] theorem State.setReg_gs (s : State) (w : Width) (i : Fin 8) (v : BitVec w.bits) :
    (s.setReg w i v).gs = s.gs := by cases w <;> rfl

@[simp] theorem State.setReg_gdtr (s : State) (w : Width) (i : Fin 8) (v : BitVec w.bits) :
    (s.setReg w i v).gdtr = s.gdtr := by cases w <;> rfl

@[simp] theorem State.setReg_idtr (s : State) (w : Width) (i : Fin 8) (v : BitVec w.bits) :
    (s.setReg w i v).idtr = s.idtr := by cases w <;> rfl

@[simp] theorem State.setReg_ldtr (s : State) (w : Width) (i : Fin 8) (v : BitVec w.bits) :
    (s.setReg w i v).ldtr = s.ldtr := by cases w <;> rfl

@[simp] theorem State.setReg_tr (s : State) (w : Width) (i : Fin 8) (v : BitVec w.bits) :
    (s.setReg w i v).tr = s.tr := by cases w <;> rfl

@[simp] theorem State.setReg_cpl (s : State) (w : Width) (i : Fin 8) (v : BitVec w.bits) :
    (s.setReg w i v).cpl = s.cpl := by cases w <;> rfl

@[simp] theorem State.setReg_cr0 (s : State) (w : Width) (i : Fin 8) (v : BitVec w.bits) :
    (s.setReg w i v).cr0 = s.cr0 := by cases w <;> rfl

@[simp] theorem State.setReg_cr2 (s : State) (w : Width) (i : Fin 8) (v : BitVec w.bits) :
    (s.setReg w i v).cr2 = s.cr2 := by cases w <;> rfl

@[simp] theorem State.setReg_cr3 (s : State) (w : Width) (i : Fin 8) (v : BitVec w.bits) :
    (s.setReg w i v).cr3 = s.cr3 := by cases w <;> rfl

@[simp] theorem State.setReg_dr0 (s : State) (w : Width) (i : Fin 8) (v : BitVec w.bits) :
    (s.setReg w i v).dr0 = s.dr0 := by cases w <;> rfl

@[simp] theorem State.setReg_dr1 (s : State) (w : Width) (i : Fin 8) (v : BitVec w.bits) :
    (s.setReg w i v).dr1 = s.dr1 := by cases w <;> rfl

@[simp] theorem State.setReg_dr2 (s : State) (w : Width) (i : Fin 8) (v : BitVec w.bits) :
    (s.setReg w i v).dr2 = s.dr2 := by cases w <;> rfl

@[simp] theorem State.setReg_dr3 (s : State) (w : Width) (i : Fin 8) (v : BitVec w.bits) :
    (s.setReg w i v).dr3 = s.dr3 := by cases w <;> rfl

@[simp] theorem State.setReg_dr6 (s : State) (w : Width) (i : Fin 8) (v : BitVec w.bits) :
    (s.setReg w i v).dr6 = s.dr6 := by cases w <;> rfl

@[simp] theorem State.setReg_dr7 (s : State) (w : Width) (i : Fin 8) (v : BitVec w.bits) :
    (s.setReg w i v).dr7 = s.dr7 := by cases w <;> rfl

@[simp] theorem State.setReg_tlb (s : State) (w : Width) (i : Fin 8) (v : BitVec w.bits) :
    (s.setReg w i v).tlb = s.tlb := by cases w <;> rfl

@[simp] theorem State.setReg_stale (s : State) (w : Width) (i : Fin 8) (v : BitVec w.bits) :
    (s.setReg w i v).stale = s.stale := by cases w <;> rfl

@[simp] theorem State.setReg_pfx (s : State) (w : Width) (i : Fin 8) (v : BitVec w.bits) :
    (s.setReg w i v).pfx = s.pfx := by cases w <;> rfl

@[simp] theorem State.setReg_run (s : State) (w : Width) (i : Fin 8) (v : BitVec w.bits) :
    (s.setReg w i v).run = s.run := by cases w <;> rfl

@[simp] theorem State.setReg_shadow (s : State) (w : Width) (i : Fin 8) (v : BitVec w.bits) :
    (s.setReg w i v).shadow = s.shadow := by cases w <;> rfl

@[simp] theorem State.setReg_midRep (s : State) (w : Width) (i : Fin 8) (v : BitVec w.bits) :
    (s.setReg w i v).midRep = s.midRep := by cases w <;> rfl

@[simp] theorem State.setReg_trap (s : State) (w : Width) (i : Fin 8) (v : BitVec w.bits) :
    (s.setReg w i v).trap = s.trap := by cases w <;> rfl

@[simp] theorem State.setReg_pending (s : State) (w : Width) (i : Fin 8) (v : BitVec w.bits) :
    (s.setReg w i v).pending = s.pending := by cases w <;> rfl

@[simp] theorem State.setReg_nmiLatch (s : State) (w : Width) (i : Fin 8) (v : BitVec w.bits) :
    (s.setReg w i v).nmiLatch = s.nmiLatch := by cases w <;> rfl

@[simp] theorem State.setReg_nmiBlocked (s : State) (w : Width) (i : Fin 8) (v : BitVec w.bits) :
    (s.setReg w i v).nmiBlocked = s.nmiBlocked := by cases w <;> rfl

@[simp] theorem State.setReg_pins (s : State) (w : Width) (i : Fin 8) (v : BitVec w.bits) :
    (s.setReg w i v).pins = s.pins := by cases w <;> rfl

@[simp] theorem State.setReg_hlda (s : State) (w : Width) (i : Fin 8) (v : BitVec w.bits) :
    (s.setReg w i v).hlda = s.hlda := by cases w <;> rfl

@[simp] theorem State.setReg_bus (s : State) (w : Width) (i : Fin 8) (v : BitVec w.bits) :
    (s.setReg w i v).bus = s.bus := by cases w <;> rfl

@[simp] theorem State.setReg_cop (s : State) (w : Width) (i : Fin 8) (v : BitVec w.bits) :
    (s.setReg w i v).cop = s.cop := by cases w <;> rfl

@[simp] theorem State.setReg_mem (s : State) (w : Width) (i : Fin 8) (v : BitVec w.bits) :
    (s.setReg w i v).mem = s.mem := by cases w <;> rfl

@[simp] theorem State.setReg_masters (s : State) (w : Width) (i : Fin 8) (v : BitVec w.bits) :
    (s.setReg w i v).masters = s.masters := by cases w <;> rfl

@[simp] theorem State.setReg_tick (s : State) (w : Width) (i : Fin 8) (v : BitVec w.bits) :
    (s.setReg w i v).tick = s.tick := by cases w <;> rfl

/-! ## setAddrReg -/

@[simp] theorem State.setAddrReg_cfg (s : State) (z : Size) (i : Fin 8) (v : Word32) :
    (s.setAddrReg z i v).cfg = s.cfg := by cases z <;> rfl

@[simp] theorem State.setAddrReg_eip (s : State) (z : Size) (i : Fin 8) (v : Word32) :
    (s.setAddrReg z i v).eip = s.eip := by cases z <;> rfl

@[simp] theorem State.setAddrReg_nextEip (s : State) (z : Size) (i : Fin 8) (v : Word32) :
    (s.setAddrReg z i v).nextEip = s.nextEip := by cases z <;> rfl

@[simp] theorem State.setAddrReg_flags (s : State) (z : Size) (i : Fin 8) (v : Word32) :
    (s.setAddrReg z i v).flags = s.flags := by cases z <;> rfl

@[simp] theorem State.setAddrReg_es (s : State) (z : Size) (i : Fin 8) (v : Word32) :
    (s.setAddrReg z i v).es = s.es := by cases z <;> rfl

@[simp] theorem State.setAddrReg_cs (s : State) (z : Size) (i : Fin 8) (v : Word32) :
    (s.setAddrReg z i v).cs = s.cs := by cases z <;> rfl

@[simp] theorem State.setAddrReg_ss (s : State) (z : Size) (i : Fin 8) (v : Word32) :
    (s.setAddrReg z i v).ss = s.ss := by cases z <;> rfl

@[simp] theorem State.setAddrReg_ds (s : State) (z : Size) (i : Fin 8) (v : Word32) :
    (s.setAddrReg z i v).ds = s.ds := by cases z <;> rfl

@[simp] theorem State.setAddrReg_fs (s : State) (z : Size) (i : Fin 8) (v : Word32) :
    (s.setAddrReg z i v).fs = s.fs := by cases z <;> rfl

@[simp] theorem State.setAddrReg_gs (s : State) (z : Size) (i : Fin 8) (v : Word32) :
    (s.setAddrReg z i v).gs = s.gs := by cases z <;> rfl

@[simp] theorem State.setAddrReg_gdtr (s : State) (z : Size) (i : Fin 8) (v : Word32) :
    (s.setAddrReg z i v).gdtr = s.gdtr := by cases z <;> rfl

@[simp] theorem State.setAddrReg_idtr (s : State) (z : Size) (i : Fin 8) (v : Word32) :
    (s.setAddrReg z i v).idtr = s.idtr := by cases z <;> rfl

@[simp] theorem State.setAddrReg_ldtr (s : State) (z : Size) (i : Fin 8) (v : Word32) :
    (s.setAddrReg z i v).ldtr = s.ldtr := by cases z <;> rfl

@[simp] theorem State.setAddrReg_tr (s : State) (z : Size) (i : Fin 8) (v : Word32) :
    (s.setAddrReg z i v).tr = s.tr := by cases z <;> rfl

@[simp] theorem State.setAddrReg_cpl (s : State) (z : Size) (i : Fin 8) (v : Word32) :
    (s.setAddrReg z i v).cpl = s.cpl := by cases z <;> rfl

@[simp] theorem State.setAddrReg_cr0 (s : State) (z : Size) (i : Fin 8) (v : Word32) :
    (s.setAddrReg z i v).cr0 = s.cr0 := by cases z <;> rfl

@[simp] theorem State.setAddrReg_cr2 (s : State) (z : Size) (i : Fin 8) (v : Word32) :
    (s.setAddrReg z i v).cr2 = s.cr2 := by cases z <;> rfl

@[simp] theorem State.setAddrReg_cr3 (s : State) (z : Size) (i : Fin 8) (v : Word32) :
    (s.setAddrReg z i v).cr3 = s.cr3 := by cases z <;> rfl

@[simp] theorem State.setAddrReg_dr0 (s : State) (z : Size) (i : Fin 8) (v : Word32) :
    (s.setAddrReg z i v).dr0 = s.dr0 := by cases z <;> rfl

@[simp] theorem State.setAddrReg_dr1 (s : State) (z : Size) (i : Fin 8) (v : Word32) :
    (s.setAddrReg z i v).dr1 = s.dr1 := by cases z <;> rfl

@[simp] theorem State.setAddrReg_dr2 (s : State) (z : Size) (i : Fin 8) (v : Word32) :
    (s.setAddrReg z i v).dr2 = s.dr2 := by cases z <;> rfl

@[simp] theorem State.setAddrReg_dr3 (s : State) (z : Size) (i : Fin 8) (v : Word32) :
    (s.setAddrReg z i v).dr3 = s.dr3 := by cases z <;> rfl

@[simp] theorem State.setAddrReg_dr6 (s : State) (z : Size) (i : Fin 8) (v : Word32) :
    (s.setAddrReg z i v).dr6 = s.dr6 := by cases z <;> rfl

@[simp] theorem State.setAddrReg_dr7 (s : State) (z : Size) (i : Fin 8) (v : Word32) :
    (s.setAddrReg z i v).dr7 = s.dr7 := by cases z <;> rfl

@[simp] theorem State.setAddrReg_tlb (s : State) (z : Size) (i : Fin 8) (v : Word32) :
    (s.setAddrReg z i v).tlb = s.tlb := by cases z <;> rfl

@[simp] theorem State.setAddrReg_stale (s : State) (z : Size) (i : Fin 8) (v : Word32) :
    (s.setAddrReg z i v).stale = s.stale := by cases z <;> rfl

@[simp] theorem State.setAddrReg_pfx (s : State) (z : Size) (i : Fin 8) (v : Word32) :
    (s.setAddrReg z i v).pfx = s.pfx := by cases z <;> rfl

@[simp] theorem State.setAddrReg_run (s : State) (z : Size) (i : Fin 8) (v : Word32) :
    (s.setAddrReg z i v).run = s.run := by cases z <;> rfl

@[simp] theorem State.setAddrReg_shadow (s : State) (z : Size) (i : Fin 8) (v : Word32) :
    (s.setAddrReg z i v).shadow = s.shadow := by cases z <;> rfl

@[simp] theorem State.setAddrReg_midRep (s : State) (z : Size) (i : Fin 8) (v : Word32) :
    (s.setAddrReg z i v).midRep = s.midRep := by cases z <;> rfl

@[simp] theorem State.setAddrReg_trap (s : State) (z : Size) (i : Fin 8) (v : Word32) :
    (s.setAddrReg z i v).trap = s.trap := by cases z <;> rfl

@[simp] theorem State.setAddrReg_pending (s : State) (z : Size) (i : Fin 8) (v : Word32) :
    (s.setAddrReg z i v).pending = s.pending := by cases z <;> rfl

@[simp] theorem State.setAddrReg_nmiLatch (s : State) (z : Size) (i : Fin 8) (v : Word32) :
    (s.setAddrReg z i v).nmiLatch = s.nmiLatch := by cases z <;> rfl

@[simp] theorem State.setAddrReg_nmiBlocked (s : State) (z : Size) (i : Fin 8) (v : Word32) :
    (s.setAddrReg z i v).nmiBlocked = s.nmiBlocked := by cases z <;> rfl

@[simp] theorem State.setAddrReg_pins (s : State) (z : Size) (i : Fin 8) (v : Word32) :
    (s.setAddrReg z i v).pins = s.pins := by cases z <;> rfl

@[simp] theorem State.setAddrReg_hlda (s : State) (z : Size) (i : Fin 8) (v : Word32) :
    (s.setAddrReg z i v).hlda = s.hlda := by cases z <;> rfl

@[simp] theorem State.setAddrReg_bus (s : State) (z : Size) (i : Fin 8) (v : Word32) :
    (s.setAddrReg z i v).bus = s.bus := by cases z <;> rfl

@[simp] theorem State.setAddrReg_cop (s : State) (z : Size) (i : Fin 8) (v : Word32) :
    (s.setAddrReg z i v).cop = s.cop := by cases z <;> rfl

@[simp] theorem State.setAddrReg_mem (s : State) (z : Size) (i : Fin 8) (v : Word32) :
    (s.setAddrReg z i v).mem = s.mem := by cases z <;> rfl

@[simp] theorem State.setAddrReg_masters (s : State) (z : Size) (i : Fin 8) (v : Word32) :
    (s.setAddrReg z i v).masters = s.masters := by cases z <;> rfl

@[simp] theorem State.setAddrReg_tick (s : State) (z : Size) (i : Fin 8) (v : Word32) :
    (s.setAddrReg z i v).tick = s.tick := by cases z <;> rfl

/-! ## setSp -/

@[simp] theorem State.setSp_cfg (s : State) (v : Word32) : (s.setSp v).cfg = s.cfg := by
  unfold State.setSp
  simp

@[simp] theorem State.setSp_eip (s : State) (v : Word32) : (s.setSp v).eip = s.eip := by
  unfold State.setSp
  simp

@[simp] theorem State.setSp_nextEip (s : State) (v : Word32) :
    (s.setSp v).nextEip = s.nextEip := by
  unfold State.setSp
  simp

@[simp] theorem State.setSp_flags (s : State) (v : Word32) :
    (s.setSp v).flags = s.flags := by
  unfold State.setSp
  simp

@[simp] theorem State.setSp_es (s : State) (v : Word32) : (s.setSp v).es = s.es := by
  unfold State.setSp
  simp

@[simp] theorem State.setSp_cs (s : State) (v : Word32) : (s.setSp v).cs = s.cs := by
  unfold State.setSp
  simp

@[simp] theorem State.setSp_ss (s : State) (v : Word32) : (s.setSp v).ss = s.ss := by
  unfold State.setSp
  simp

@[simp] theorem State.setSp_ds (s : State) (v : Word32) : (s.setSp v).ds = s.ds := by
  unfold State.setSp
  simp

@[simp] theorem State.setSp_fs (s : State) (v : Word32) : (s.setSp v).fs = s.fs := by
  unfold State.setSp
  simp

@[simp] theorem State.setSp_gs (s : State) (v : Word32) : (s.setSp v).gs = s.gs := by
  unfold State.setSp
  simp

@[simp] theorem State.setSp_gdtr (s : State) (v : Word32) : (s.setSp v).gdtr = s.gdtr := by
  unfold State.setSp
  simp

@[simp] theorem State.setSp_idtr (s : State) (v : Word32) : (s.setSp v).idtr = s.idtr := by
  unfold State.setSp
  simp

@[simp] theorem State.setSp_ldtr (s : State) (v : Word32) : (s.setSp v).ldtr = s.ldtr := by
  unfold State.setSp
  simp

@[simp] theorem State.setSp_tr (s : State) (v : Word32) : (s.setSp v).tr = s.tr := by
  unfold State.setSp
  simp

@[simp] theorem State.setSp_cpl (s : State) (v : Word32) : (s.setSp v).cpl = s.cpl := by
  unfold State.setSp
  simp

@[simp] theorem State.setSp_cr0 (s : State) (v : Word32) : (s.setSp v).cr0 = s.cr0 := by
  unfold State.setSp
  simp

@[simp] theorem State.setSp_cr2 (s : State) (v : Word32) : (s.setSp v).cr2 = s.cr2 := by
  unfold State.setSp
  simp

@[simp] theorem State.setSp_cr3 (s : State) (v : Word32) : (s.setSp v).cr3 = s.cr3 := by
  unfold State.setSp
  simp

@[simp] theorem State.setSp_dr0 (s : State) (v : Word32) : (s.setSp v).dr0 = s.dr0 := by
  unfold State.setSp
  simp

@[simp] theorem State.setSp_dr1 (s : State) (v : Word32) : (s.setSp v).dr1 = s.dr1 := by
  unfold State.setSp
  simp

@[simp] theorem State.setSp_dr2 (s : State) (v : Word32) : (s.setSp v).dr2 = s.dr2 := by
  unfold State.setSp
  simp

@[simp] theorem State.setSp_dr3 (s : State) (v : Word32) : (s.setSp v).dr3 = s.dr3 := by
  unfold State.setSp
  simp

@[simp] theorem State.setSp_dr6 (s : State) (v : Word32) : (s.setSp v).dr6 = s.dr6 := by
  unfold State.setSp
  simp

@[simp] theorem State.setSp_dr7 (s : State) (v : Word32) : (s.setSp v).dr7 = s.dr7 := by
  unfold State.setSp
  simp

@[simp] theorem State.setSp_tlb (s : State) (v : Word32) : (s.setSp v).tlb = s.tlb := by
  unfold State.setSp
  simp

@[simp] theorem State.setSp_stale (s : State) (v : Word32) :
    (s.setSp v).stale = s.stale := by
  unfold State.setSp
  simp

@[simp] theorem State.setSp_pfx (s : State) (v : Word32) : (s.setSp v).pfx = s.pfx := by
  unfold State.setSp
  simp

@[simp] theorem State.setSp_run (s : State) (v : Word32) : (s.setSp v).run = s.run := by
  unfold State.setSp
  simp

@[simp] theorem State.setSp_shadow (s : State) (v : Word32) :
    (s.setSp v).shadow = s.shadow := by
  unfold State.setSp
  simp

@[simp] theorem State.setSp_midRep (s : State) (v : Word32) :
    (s.setSp v).midRep = s.midRep := by
  unfold State.setSp
  simp

@[simp] theorem State.setSp_trap (s : State) (v : Word32) : (s.setSp v).trap = s.trap := by
  unfold State.setSp
  simp

@[simp] theorem State.setSp_pending (s : State) (v : Word32) :
    (s.setSp v).pending = s.pending := by
  unfold State.setSp
  simp

@[simp] theorem State.setSp_nmiLatch (s : State) (v : Word32) :
    (s.setSp v).nmiLatch = s.nmiLatch := by
  unfold State.setSp
  simp

@[simp] theorem State.setSp_nmiBlocked (s : State) (v : Word32) :
    (s.setSp v).nmiBlocked = s.nmiBlocked := by
  unfold State.setSp
  simp

@[simp] theorem State.setSp_pins (s : State) (v : Word32) : (s.setSp v).pins = s.pins := by
  unfold State.setSp
  simp

@[simp] theorem State.setSp_hlda (s : State) (v : Word32) : (s.setSp v).hlda = s.hlda := by
  unfold State.setSp
  simp

@[simp] theorem State.setSp_bus (s : State) (v : Word32) : (s.setSp v).bus = s.bus := by
  unfold State.setSp
  simp

@[simp] theorem State.setSp_cop (s : State) (v : Word32) : (s.setSp v).cop = s.cop := by
  unfold State.setSp
  simp

@[simp] theorem State.setSp_mem (s : State) (v : Word32) : (s.setSp v).mem = s.mem := by
  unfold State.setSp
  simp

@[simp] theorem State.setSp_masters (s : State) (v : Word32) :
    (s.setSp v).masters = s.masters := by
  unfold State.setSp
  simp

@[simp] theorem State.setSp_tick (s : State) (v : Word32) : (s.setSp v).tick = s.tick := by
  unfold State.setSp
  simp

/-! ## The offset of the current instruction -/

theorem State.codeOffset_wide {s : State} (h : s.defaultSize = .s32) : s.codeOffset = s.eip := by
  simp [State.codeOffset, State.wrapEip, wrapTo, h]

/-- R27: a 16-bit code segment uses the low 16 bits of EIP. -/
theorem State.codeOffset_narrow_toNat {s : State} (h : s.defaultSize = .s16) :
    s.codeOffset.toNat = s.eip.toNat % 2 ^ 16 := by
  simp only [State.codeOffset, State.wrapEip, wrapTo, h, BitVec.toNat_and]
  exact Nat.and_two_pow_sub_one_eq_mod _ 16

/-! ## setPhysByte -/

@[simp] theorem State.setPhysByte_cfg (s : State) (a : Word32) (b : Byte) : (s.setPhysByte a b).cfg = s.cfg := rfl

@[simp] theorem State.setPhysByte_regs (s : State) (a : Word32) (b : Byte) : (s.setPhysByte a b).regs = s.regs := rfl

@[simp] theorem State.setPhysByte_eip (s : State) (a : Word32) (b : Byte) : (s.setPhysByte a b).eip = s.eip := rfl

@[simp] theorem State.setPhysByte_nextEip (s : State) (a : Word32) (b : Byte) :
    (s.setPhysByte a b).nextEip = s.nextEip := rfl

@[simp] theorem State.setPhysByte_flags (s : State) (a : Word32) (b : Byte) : (s.setPhysByte a b).flags = s.flags := rfl

@[simp] theorem State.setPhysByte_es (s : State) (a : Word32) (b : Byte) : (s.setPhysByte a b).es = s.es := rfl

@[simp] theorem State.setPhysByte_cs (s : State) (a : Word32) (b : Byte) : (s.setPhysByte a b).cs = s.cs := rfl

@[simp] theorem State.setPhysByte_ss (s : State) (a : Word32) (b : Byte) : (s.setPhysByte a b).ss = s.ss := rfl

@[simp] theorem State.setPhysByte_ds (s : State) (a : Word32) (b : Byte) : (s.setPhysByte a b).ds = s.ds := rfl

@[simp] theorem State.setPhysByte_fs (s : State) (a : Word32) (b : Byte) : (s.setPhysByte a b).fs = s.fs := rfl

@[simp] theorem State.setPhysByte_gs (s : State) (a : Word32) (b : Byte) : (s.setPhysByte a b).gs = s.gs := rfl

@[simp] theorem State.setPhysByte_gdtr (s : State) (a : Word32) (b : Byte) : (s.setPhysByte a b).gdtr = s.gdtr := rfl

@[simp] theorem State.setPhysByte_idtr (s : State) (a : Word32) (b : Byte) : (s.setPhysByte a b).idtr = s.idtr := rfl

@[simp] theorem State.setPhysByte_ldtr (s : State) (a : Word32) (b : Byte) : (s.setPhysByte a b).ldtr = s.ldtr := rfl

@[simp] theorem State.setPhysByte_tr (s : State) (a : Word32) (b : Byte) : (s.setPhysByte a b).tr = s.tr := rfl

@[simp] theorem State.setPhysByte_cpl (s : State) (a : Word32) (b : Byte) : (s.setPhysByte a b).cpl = s.cpl := rfl

@[simp] theorem State.setPhysByte_cr0 (s : State) (a : Word32) (b : Byte) : (s.setPhysByte a b).cr0 = s.cr0 := rfl

@[simp] theorem State.setPhysByte_cr2 (s : State) (a : Word32) (b : Byte) : (s.setPhysByte a b).cr2 = s.cr2 := rfl

@[simp] theorem State.setPhysByte_cr3 (s : State) (a : Word32) (b : Byte) : (s.setPhysByte a b).cr3 = s.cr3 := rfl

@[simp] theorem State.setPhysByte_dr0 (s : State) (a : Word32) (b : Byte) : (s.setPhysByte a b).dr0 = s.dr0 := rfl

@[simp] theorem State.setPhysByte_dr1 (s : State) (a : Word32) (b : Byte) : (s.setPhysByte a b).dr1 = s.dr1 := rfl

@[simp] theorem State.setPhysByte_dr2 (s : State) (a : Word32) (b : Byte) : (s.setPhysByte a b).dr2 = s.dr2 := rfl

@[simp] theorem State.setPhysByte_dr3 (s : State) (a : Word32) (b : Byte) : (s.setPhysByte a b).dr3 = s.dr3 := rfl

@[simp] theorem State.setPhysByte_dr6 (s : State) (a : Word32) (b : Byte) : (s.setPhysByte a b).dr6 = s.dr6 := rfl

@[simp] theorem State.setPhysByte_dr7 (s : State) (a : Word32) (b : Byte) : (s.setPhysByte a b).dr7 = s.dr7 := rfl

@[simp] theorem State.setPhysByte_tlb (s : State) (a : Word32) (b : Byte) : (s.setPhysByte a b).tlb = s.tlb := rfl

@[simp] theorem State.setPhysByte_pfx (s : State) (a : Word32) (b : Byte) : (s.setPhysByte a b).pfx = s.pfx := rfl

@[simp] theorem State.setPhysByte_run (s : State) (a : Word32) (b : Byte) : (s.setPhysByte a b).run = s.run := rfl

@[simp] theorem State.setPhysByte_shadow (s : State) (a : Word32) (b : Byte) :
    (s.setPhysByte a b).shadow = s.shadow := rfl

@[simp] theorem State.setPhysByte_midRep (s : State) (a : Word32) (b : Byte) :
    (s.setPhysByte a b).midRep = s.midRep := rfl

@[simp] theorem State.setPhysByte_trap (s : State) (a : Word32) (b : Byte) : (s.setPhysByte a b).trap = s.trap := rfl

@[simp] theorem State.setPhysByte_pending (s : State) (a : Word32) (b : Byte) :
    (s.setPhysByte a b).pending = s.pending := rfl

@[simp] theorem State.setPhysByte_nmiLatch (s : State) (a : Word32) (b : Byte) :
    (s.setPhysByte a b).nmiLatch = s.nmiLatch := rfl

@[simp] theorem State.setPhysByte_nmiBlocked (s : State) (a : Word32) (b : Byte) :
    (s.setPhysByte a b).nmiBlocked = s.nmiBlocked := rfl

@[simp] theorem State.setPhysByte_pins (s : State) (a : Word32) (b : Byte) : (s.setPhysByte a b).pins = s.pins := rfl

@[simp] theorem State.setPhysByte_hlda (s : State) (a : Word32) (b : Byte) : (s.setPhysByte a b).hlda = s.hlda := rfl

@[simp] theorem State.setPhysByte_bus (s : State) (a : Word32) (b : Byte) : (s.setPhysByte a b).bus = s.bus := rfl

@[simp] theorem State.setPhysByte_cop (s : State) (a : Word32) (b : Byte) : (s.setPhysByte a b).cop = s.cop := rfl

@[simp] theorem State.setPhysByte_masters (s : State) (a : Word32) (b : Byte) :
    (s.setPhysByte a b).masters = s.masters := rfl

@[simp] theorem State.setPhysByte_tick (s : State) (a : Word32) (b : Byte) : (s.setPhysByte a b).tick = s.tick := rfl

/-! ## tlbInsert -/

@[simp] theorem State.tlbInsert_cfg (s : State) (e : TlbEntry) : (s.tlbInsert e).cfg = s.cfg := rfl

@[simp] theorem State.tlbInsert_regs (s : State) (e : TlbEntry) : (s.tlbInsert e).regs = s.regs := rfl

@[simp] theorem State.tlbInsert_eip (s : State) (e : TlbEntry) : (s.tlbInsert e).eip = s.eip := rfl

@[simp] theorem State.tlbInsert_nextEip (s : State) (e : TlbEntry) : (s.tlbInsert e).nextEip = s.nextEip := rfl

@[simp] theorem State.tlbInsert_flags (s : State) (e : TlbEntry) : (s.tlbInsert e).flags = s.flags := rfl

@[simp] theorem State.tlbInsert_es (s : State) (e : TlbEntry) : (s.tlbInsert e).es = s.es := rfl

@[simp] theorem State.tlbInsert_cs (s : State) (e : TlbEntry) : (s.tlbInsert e).cs = s.cs := rfl

@[simp] theorem State.tlbInsert_ss (s : State) (e : TlbEntry) : (s.tlbInsert e).ss = s.ss := rfl

@[simp] theorem State.tlbInsert_ds (s : State) (e : TlbEntry) : (s.tlbInsert e).ds = s.ds := rfl

@[simp] theorem State.tlbInsert_fs (s : State) (e : TlbEntry) : (s.tlbInsert e).fs = s.fs := rfl

@[simp] theorem State.tlbInsert_gs (s : State) (e : TlbEntry) : (s.tlbInsert e).gs = s.gs := rfl

@[simp] theorem State.tlbInsert_gdtr (s : State) (e : TlbEntry) : (s.tlbInsert e).gdtr = s.gdtr := rfl

@[simp] theorem State.tlbInsert_idtr (s : State) (e : TlbEntry) : (s.tlbInsert e).idtr = s.idtr := rfl

@[simp] theorem State.tlbInsert_ldtr (s : State) (e : TlbEntry) : (s.tlbInsert e).ldtr = s.ldtr := rfl

@[simp] theorem State.tlbInsert_tr (s : State) (e : TlbEntry) : (s.tlbInsert e).tr = s.tr := rfl

@[simp] theorem State.tlbInsert_cpl (s : State) (e : TlbEntry) : (s.tlbInsert e).cpl = s.cpl := rfl

@[simp] theorem State.tlbInsert_cr0 (s : State) (e : TlbEntry) : (s.tlbInsert e).cr0 = s.cr0 := rfl

@[simp] theorem State.tlbInsert_cr2 (s : State) (e : TlbEntry) : (s.tlbInsert e).cr2 = s.cr2 := rfl

@[simp] theorem State.tlbInsert_cr3 (s : State) (e : TlbEntry) : (s.tlbInsert e).cr3 = s.cr3 := rfl

@[simp] theorem State.tlbInsert_dr0 (s : State) (e : TlbEntry) : (s.tlbInsert e).dr0 = s.dr0 := rfl

@[simp] theorem State.tlbInsert_dr1 (s : State) (e : TlbEntry) : (s.tlbInsert e).dr1 = s.dr1 := rfl

@[simp] theorem State.tlbInsert_dr2 (s : State) (e : TlbEntry) : (s.tlbInsert e).dr2 = s.dr2 := rfl

@[simp] theorem State.tlbInsert_dr3 (s : State) (e : TlbEntry) : (s.tlbInsert e).dr3 = s.dr3 := rfl

@[simp] theorem State.tlbInsert_dr6 (s : State) (e : TlbEntry) : (s.tlbInsert e).dr6 = s.dr6 := rfl

@[simp] theorem State.tlbInsert_dr7 (s : State) (e : TlbEntry) : (s.tlbInsert e).dr7 = s.dr7 := rfl

@[simp] theorem State.tlbInsert_stale (s : State) (e : TlbEntry) : (s.tlbInsert e).stale = s.stale := rfl

@[simp] theorem State.tlbInsert_pfx (s : State) (e : TlbEntry) : (s.tlbInsert e).pfx = s.pfx := rfl

@[simp] theorem State.tlbInsert_run (s : State) (e : TlbEntry) : (s.tlbInsert e).run = s.run := rfl

@[simp] theorem State.tlbInsert_shadow (s : State) (e : TlbEntry) : (s.tlbInsert e).shadow = s.shadow := rfl

@[simp] theorem State.tlbInsert_midRep (s : State) (e : TlbEntry) : (s.tlbInsert e).midRep = s.midRep := rfl

@[simp] theorem State.tlbInsert_trap (s : State) (e : TlbEntry) : (s.tlbInsert e).trap = s.trap := rfl

@[simp] theorem State.tlbInsert_pending (s : State) (e : TlbEntry) : (s.tlbInsert e).pending = s.pending := rfl

@[simp] theorem State.tlbInsert_nmiLatch (s : State) (e : TlbEntry) : (s.tlbInsert e).nmiLatch = s.nmiLatch := rfl

@[simp] theorem State.tlbInsert_nmiBlocked (s : State) (e : TlbEntry) : (s.tlbInsert e).nmiBlocked = s.nmiBlocked := rfl

@[simp] theorem State.tlbInsert_pins (s : State) (e : TlbEntry) : (s.tlbInsert e).pins = s.pins := rfl

@[simp] theorem State.tlbInsert_hlda (s : State) (e : TlbEntry) : (s.tlbInsert e).hlda = s.hlda := rfl

@[simp] theorem State.tlbInsert_bus (s : State) (e : TlbEntry) : (s.tlbInsert e).bus = s.bus := rfl

@[simp] theorem State.tlbInsert_cop (s : State) (e : TlbEntry) : (s.tlbInsert e).cop = s.cop := rfl

@[simp] theorem State.tlbInsert_mem (s : State) (e : TlbEntry) : (s.tlbInsert e).mem = s.mem := rfl

@[simp] theorem State.tlbInsert_masters (s : State) (e : TlbEntry) : (s.tlbInsert e).masters = s.masters := rfl

@[simp] theorem State.tlbInsert_tick (s : State) (e : TlbEntry) : (s.tlbInsert e).tick = s.tick := rfl

/-! ## tlbFlush -/

@[simp] theorem State.tlbFlush_cfg (s : State)  : (s.tlbFlush).cfg = s.cfg := rfl

@[simp] theorem State.tlbFlush_regs (s : State)  : (s.tlbFlush).regs = s.regs := rfl

@[simp] theorem State.tlbFlush_eip (s : State)  : (s.tlbFlush).eip = s.eip := rfl

@[simp] theorem State.tlbFlush_nextEip (s : State)  : (s.tlbFlush).nextEip = s.nextEip := rfl

@[simp] theorem State.tlbFlush_flags (s : State)  : (s.tlbFlush).flags = s.flags := rfl

@[simp] theorem State.tlbFlush_es (s : State)  : (s.tlbFlush).es = s.es := rfl

@[simp] theorem State.tlbFlush_cs (s : State)  : (s.tlbFlush).cs = s.cs := rfl

@[simp] theorem State.tlbFlush_ss (s : State)  : (s.tlbFlush).ss = s.ss := rfl

@[simp] theorem State.tlbFlush_ds (s : State)  : (s.tlbFlush).ds = s.ds := rfl

@[simp] theorem State.tlbFlush_fs (s : State)  : (s.tlbFlush).fs = s.fs := rfl

@[simp] theorem State.tlbFlush_gs (s : State)  : (s.tlbFlush).gs = s.gs := rfl

@[simp] theorem State.tlbFlush_gdtr (s : State)  : (s.tlbFlush).gdtr = s.gdtr := rfl

@[simp] theorem State.tlbFlush_idtr (s : State)  : (s.tlbFlush).idtr = s.idtr := rfl

@[simp] theorem State.tlbFlush_ldtr (s : State)  : (s.tlbFlush).ldtr = s.ldtr := rfl

@[simp] theorem State.tlbFlush_tr (s : State)  : (s.tlbFlush).tr = s.tr := rfl

@[simp] theorem State.tlbFlush_cpl (s : State)  : (s.tlbFlush).cpl = s.cpl := rfl

@[simp] theorem State.tlbFlush_cr0 (s : State)  : (s.tlbFlush).cr0 = s.cr0 := rfl

@[simp] theorem State.tlbFlush_cr2 (s : State)  : (s.tlbFlush).cr2 = s.cr2 := rfl

@[simp] theorem State.tlbFlush_cr3 (s : State)  : (s.tlbFlush).cr3 = s.cr3 := rfl

@[simp] theorem State.tlbFlush_dr0 (s : State)  : (s.tlbFlush).dr0 = s.dr0 := rfl

@[simp] theorem State.tlbFlush_dr1 (s : State)  : (s.tlbFlush).dr1 = s.dr1 := rfl

@[simp] theorem State.tlbFlush_dr2 (s : State)  : (s.tlbFlush).dr2 = s.dr2 := rfl

@[simp] theorem State.tlbFlush_dr3 (s : State)  : (s.tlbFlush).dr3 = s.dr3 := rfl

@[simp] theorem State.tlbFlush_dr6 (s : State)  : (s.tlbFlush).dr6 = s.dr6 := rfl

@[simp] theorem State.tlbFlush_dr7 (s : State)  : (s.tlbFlush).dr7 = s.dr7 := rfl

@[simp] theorem State.tlbFlush_stale (s : State)  : (s.tlbFlush).stale = s.stale := rfl

@[simp] theorem State.tlbFlush_pfx (s : State)  : (s.tlbFlush).pfx = s.pfx := rfl

@[simp] theorem State.tlbFlush_run (s : State)  : (s.tlbFlush).run = s.run := rfl

@[simp] theorem State.tlbFlush_shadow (s : State)  : (s.tlbFlush).shadow = s.shadow := rfl

@[simp] theorem State.tlbFlush_midRep (s : State)  : (s.tlbFlush).midRep = s.midRep := rfl

@[simp] theorem State.tlbFlush_trap (s : State)  : (s.tlbFlush).trap = s.trap := rfl

@[simp] theorem State.tlbFlush_pending (s : State)  : (s.tlbFlush).pending = s.pending := rfl

@[simp] theorem State.tlbFlush_nmiLatch (s : State)  : (s.tlbFlush).nmiLatch = s.nmiLatch := rfl

@[simp] theorem State.tlbFlush_nmiBlocked (s : State)  : (s.tlbFlush).nmiBlocked = s.nmiBlocked := rfl

@[simp] theorem State.tlbFlush_pins (s : State)  : (s.tlbFlush).pins = s.pins := rfl

@[simp] theorem State.tlbFlush_hlda (s : State)  : (s.tlbFlush).hlda = s.hlda := rfl

@[simp] theorem State.tlbFlush_bus (s : State)  : (s.tlbFlush).bus = s.bus := rfl

@[simp] theorem State.tlbFlush_cop (s : State)  : (s.tlbFlush).cop = s.cop := rfl

@[simp] theorem State.tlbFlush_mem (s : State)  : (s.tlbFlush).mem = s.mem := rfl

@[simp] theorem State.tlbFlush_masters (s : State)  : (s.tlbFlush).masters = s.masters := rfl

@[simp] theorem State.tlbFlush_tick (s : State)  : (s.tlbFlush).tick = s.tick := rfl

/-! ## noteAccess -/

@[simp] theorem State.noteAccess_cfg (s : State) (la : Word32) (n : Nat) (w : Bool) :
    (s.noteAccess la n w).cfg = s.cfg := rfl

@[simp] theorem State.noteAccess_regs (s : State) (la : Word32) (n : Nat) (w : Bool) :
    (s.noteAccess la n w).regs = s.regs := rfl

@[simp] theorem State.noteAccess_eip (s : State) (la : Word32) (n : Nat) (w : Bool) :
    (s.noteAccess la n w).eip = s.eip := rfl

@[simp] theorem State.noteAccess_nextEip (s : State) (la : Word32) (n : Nat) (w : Bool) :
    (s.noteAccess la n w).nextEip = s.nextEip := rfl

@[simp] theorem State.noteAccess_flags (s : State) (la : Word32) (n : Nat) (w : Bool) :
    (s.noteAccess la n w).flags = s.flags := rfl

@[simp] theorem State.noteAccess_es (s : State) (la : Word32) (n : Nat) (w : Bool) :
    (s.noteAccess la n w).es = s.es := rfl

@[simp] theorem State.noteAccess_cs (s : State) (la : Word32) (n : Nat) (w : Bool) :
    (s.noteAccess la n w).cs = s.cs := rfl

@[simp] theorem State.noteAccess_ss (s : State) (la : Word32) (n : Nat) (w : Bool) :
    (s.noteAccess la n w).ss = s.ss := rfl

@[simp] theorem State.noteAccess_ds (s : State) (la : Word32) (n : Nat) (w : Bool) :
    (s.noteAccess la n w).ds = s.ds := rfl

@[simp] theorem State.noteAccess_fs (s : State) (la : Word32) (n : Nat) (w : Bool) :
    (s.noteAccess la n w).fs = s.fs := rfl

@[simp] theorem State.noteAccess_gs (s : State) (la : Word32) (n : Nat) (w : Bool) :
    (s.noteAccess la n w).gs = s.gs := rfl

@[simp] theorem State.noteAccess_gdtr (s : State) (la : Word32) (n : Nat) (w : Bool) :
    (s.noteAccess la n w).gdtr = s.gdtr := rfl

@[simp] theorem State.noteAccess_idtr (s : State) (la : Word32) (n : Nat) (w : Bool) :
    (s.noteAccess la n w).idtr = s.idtr := rfl

@[simp] theorem State.noteAccess_ldtr (s : State) (la : Word32) (n : Nat) (w : Bool) :
    (s.noteAccess la n w).ldtr = s.ldtr := rfl

@[simp] theorem State.noteAccess_tr (s : State) (la : Word32) (n : Nat) (w : Bool) :
    (s.noteAccess la n w).tr = s.tr := rfl

@[simp] theorem State.noteAccess_cpl (s : State) (la : Word32) (n : Nat) (w : Bool) :
    (s.noteAccess la n w).cpl = s.cpl := rfl

@[simp] theorem State.noteAccess_cr0 (s : State) (la : Word32) (n : Nat) (w : Bool) :
    (s.noteAccess la n w).cr0 = s.cr0 := rfl

@[simp] theorem State.noteAccess_cr2 (s : State) (la : Word32) (n : Nat) (w : Bool) :
    (s.noteAccess la n w).cr2 = s.cr2 := rfl

@[simp] theorem State.noteAccess_cr3 (s : State) (la : Word32) (n : Nat) (w : Bool) :
    (s.noteAccess la n w).cr3 = s.cr3 := rfl

@[simp] theorem State.noteAccess_dr0 (s : State) (la : Word32) (n : Nat) (w : Bool) :
    (s.noteAccess la n w).dr0 = s.dr0 := rfl

@[simp] theorem State.noteAccess_dr1 (s : State) (la : Word32) (n : Nat) (w : Bool) :
    (s.noteAccess la n w).dr1 = s.dr1 := rfl

@[simp] theorem State.noteAccess_dr2 (s : State) (la : Word32) (n : Nat) (w : Bool) :
    (s.noteAccess la n w).dr2 = s.dr2 := rfl

@[simp] theorem State.noteAccess_dr3 (s : State) (la : Word32) (n : Nat) (w : Bool) :
    (s.noteAccess la n w).dr3 = s.dr3 := rfl

@[simp] theorem State.noteAccess_dr6 (s : State) (la : Word32) (n : Nat) (w : Bool) :
    (s.noteAccess la n w).dr6 = s.dr6 := rfl

@[simp] theorem State.noteAccess_dr7 (s : State) (la : Word32) (n : Nat) (w : Bool) :
    (s.noteAccess la n w).dr7 = s.dr7 := rfl

@[simp] theorem State.noteAccess_tlb (s : State) (la : Word32) (n : Nat) (w : Bool) :
    (s.noteAccess la n w).tlb = s.tlb := rfl

@[simp] theorem State.noteAccess_stale (s : State) (la : Word32) (n : Nat) (w : Bool) :
    (s.noteAccess la n w).stale = s.stale := rfl

@[simp] theorem State.noteAccess_pfx (s : State) (la : Word32) (n : Nat) (w : Bool) :
    (s.noteAccess la n w).pfx = s.pfx := rfl

@[simp] theorem State.noteAccess_run (s : State) (la : Word32) (n : Nat) (w : Bool) :
    (s.noteAccess la n w).run = s.run := rfl

@[simp] theorem State.noteAccess_shadow (s : State) (la : Word32) (n : Nat) (w : Bool) :
    (s.noteAccess la n w).shadow = s.shadow := rfl

@[simp] theorem State.noteAccess_midRep (s : State) (la : Word32) (n : Nat) (w : Bool) :
    (s.noteAccess la n w).midRep = s.midRep := rfl

@[simp] theorem State.noteAccess_pending (s : State) (la : Word32) (n : Nat) (w : Bool) :
    (s.noteAccess la n w).pending = s.pending := rfl

@[simp] theorem State.noteAccess_nmiLatch (s : State) (la : Word32) (n : Nat) (w : Bool) :
    (s.noteAccess la n w).nmiLatch = s.nmiLatch := rfl

@[simp] theorem State.noteAccess_nmiBlocked (s : State) (la : Word32) (n : Nat) (w : Bool) :
    (s.noteAccess la n w).nmiBlocked = s.nmiBlocked := rfl

@[simp] theorem State.noteAccess_pins (s : State) (la : Word32) (n : Nat) (w : Bool) :
    (s.noteAccess la n w).pins = s.pins := rfl

@[simp] theorem State.noteAccess_hlda (s : State) (la : Word32) (n : Nat) (w : Bool) :
    (s.noteAccess la n w).hlda = s.hlda := rfl

@[simp] theorem State.noteAccess_bus (s : State) (la : Word32) (n : Nat) (w : Bool) :
    (s.noteAccess la n w).bus = s.bus := rfl

@[simp] theorem State.noteAccess_cop (s : State) (la : Word32) (n : Nat) (w : Bool) :
    (s.noteAccess la n w).cop = s.cop := rfl

@[simp] theorem State.noteAccess_mem (s : State) (la : Word32) (n : Nat) (w : Bool) :
    (s.noteAccess la n w).mem = s.mem := rfl

@[simp] theorem State.noteAccess_masters (s : State) (la : Word32) (n : Nat) (w : Bool) :
    (s.noteAccess la n w).masters = s.masters := rfl

@[simp] theorem State.noteAccess_tick (s : State) (la : Word32) (n : Nat) (w : Bool) :
    (s.noteAccess la n w).tick = s.tick := rfl

/-! ## tlbForget -/

@[simp] theorem State.tlbForget_cfg (s : State) (p : BitVec 20) :
    (s.tlbForget p).cfg = s.cfg := by
  unfold State.tlbForget
  split <;> rfl

@[simp] theorem State.tlbForget_regs (s : State) (p : BitVec 20) :
    (s.tlbForget p).regs = s.regs := by
  unfold State.tlbForget
  split <;> rfl

@[simp] theorem State.tlbForget_eip (s : State) (p : BitVec 20) :
    (s.tlbForget p).eip = s.eip := by
  unfold State.tlbForget
  split <;> rfl

@[simp] theorem State.tlbForget_nextEip (s : State) (p : BitVec 20) :
    (s.tlbForget p).nextEip = s.nextEip := by
  unfold State.tlbForget
  split <;> rfl

@[simp] theorem State.tlbForget_flags (s : State) (p : BitVec 20) :
    (s.tlbForget p).flags = s.flags := by
  unfold State.tlbForget
  split <;> rfl

@[simp] theorem State.tlbForget_es (s : State) (p : BitVec 20) :
    (s.tlbForget p).es = s.es := by
  unfold State.tlbForget
  split <;> rfl

@[simp] theorem State.tlbForget_cs (s : State) (p : BitVec 20) :
    (s.tlbForget p).cs = s.cs := by
  unfold State.tlbForget
  split <;> rfl

@[simp] theorem State.tlbForget_ss (s : State) (p : BitVec 20) :
    (s.tlbForget p).ss = s.ss := by
  unfold State.tlbForget
  split <;> rfl

@[simp] theorem State.tlbForget_ds (s : State) (p : BitVec 20) :
    (s.tlbForget p).ds = s.ds := by
  unfold State.tlbForget
  split <;> rfl

@[simp] theorem State.tlbForget_fs (s : State) (p : BitVec 20) :
    (s.tlbForget p).fs = s.fs := by
  unfold State.tlbForget
  split <;> rfl

@[simp] theorem State.tlbForget_gs (s : State) (p : BitVec 20) :
    (s.tlbForget p).gs = s.gs := by
  unfold State.tlbForget
  split <;> rfl

@[simp] theorem State.tlbForget_gdtr (s : State) (p : BitVec 20) :
    (s.tlbForget p).gdtr = s.gdtr := by
  unfold State.tlbForget
  split <;> rfl

@[simp] theorem State.tlbForget_idtr (s : State) (p : BitVec 20) :
    (s.tlbForget p).idtr = s.idtr := by
  unfold State.tlbForget
  split <;> rfl

@[simp] theorem State.tlbForget_ldtr (s : State) (p : BitVec 20) :
    (s.tlbForget p).ldtr = s.ldtr := by
  unfold State.tlbForget
  split <;> rfl

@[simp] theorem State.tlbForget_tr (s : State) (p : BitVec 20) :
    (s.tlbForget p).tr = s.tr := by
  unfold State.tlbForget
  split <;> rfl

@[simp] theorem State.tlbForget_cpl (s : State) (p : BitVec 20) :
    (s.tlbForget p).cpl = s.cpl := by
  unfold State.tlbForget
  split <;> rfl

@[simp] theorem State.tlbForget_cr0 (s : State) (p : BitVec 20) :
    (s.tlbForget p).cr0 = s.cr0 := by
  unfold State.tlbForget
  split <;> rfl

@[simp] theorem State.tlbForget_cr2 (s : State) (p : BitVec 20) :
    (s.tlbForget p).cr2 = s.cr2 := by
  unfold State.tlbForget
  split <;> rfl

@[simp] theorem State.tlbForget_cr3 (s : State) (p : BitVec 20) :
    (s.tlbForget p).cr3 = s.cr3 := by
  unfold State.tlbForget
  split <;> rfl

@[simp] theorem State.tlbForget_dr0 (s : State) (p : BitVec 20) :
    (s.tlbForget p).dr0 = s.dr0 := by
  unfold State.tlbForget
  split <;> rfl

@[simp] theorem State.tlbForget_dr1 (s : State) (p : BitVec 20) :
    (s.tlbForget p).dr1 = s.dr1 := by
  unfold State.tlbForget
  split <;> rfl

@[simp] theorem State.tlbForget_dr2 (s : State) (p : BitVec 20) :
    (s.tlbForget p).dr2 = s.dr2 := by
  unfold State.tlbForget
  split <;> rfl

@[simp] theorem State.tlbForget_dr3 (s : State) (p : BitVec 20) :
    (s.tlbForget p).dr3 = s.dr3 := by
  unfold State.tlbForget
  split <;> rfl

@[simp] theorem State.tlbForget_dr6 (s : State) (p : BitVec 20) :
    (s.tlbForget p).dr6 = s.dr6 := by
  unfold State.tlbForget
  split <;> rfl

@[simp] theorem State.tlbForget_dr7 (s : State) (p : BitVec 20) :
    (s.tlbForget p).dr7 = s.dr7 := by
  unfold State.tlbForget
  split <;> rfl

@[simp] theorem State.tlbForget_stale (s : State) (p : BitVec 20) :
    (s.tlbForget p).stale = s.stale := by
  unfold State.tlbForget
  split <;> rfl

@[simp] theorem State.tlbForget_pfx (s : State) (p : BitVec 20) :
    (s.tlbForget p).pfx = s.pfx := by
  unfold State.tlbForget
  split <;> rfl

@[simp] theorem State.tlbForget_run (s : State) (p : BitVec 20) :
    (s.tlbForget p).run = s.run := by
  unfold State.tlbForget
  split <;> rfl

@[simp] theorem State.tlbForget_shadow (s : State) (p : BitVec 20) :
    (s.tlbForget p).shadow = s.shadow := by
  unfold State.tlbForget
  split <;> rfl

@[simp] theorem State.tlbForget_midRep (s : State) (p : BitVec 20) :
    (s.tlbForget p).midRep = s.midRep := by
  unfold State.tlbForget
  split <;> rfl

@[simp] theorem State.tlbForget_trap (s : State) (p : BitVec 20) :
    (s.tlbForget p).trap = s.trap := by
  unfold State.tlbForget
  split <;> rfl

@[simp] theorem State.tlbForget_pending (s : State) (p : BitVec 20) :
    (s.tlbForget p).pending = s.pending := by
  unfold State.tlbForget
  split <;> rfl

@[simp] theorem State.tlbForget_nmiLatch (s : State) (p : BitVec 20) :
    (s.tlbForget p).nmiLatch = s.nmiLatch := by
  unfold State.tlbForget
  split <;> rfl

@[simp] theorem State.tlbForget_nmiBlocked (s : State) (p : BitVec 20) :
    (s.tlbForget p).nmiBlocked = s.nmiBlocked := by
  unfold State.tlbForget
  split <;> rfl

@[simp] theorem State.tlbForget_pins (s : State) (p : BitVec 20) :
    (s.tlbForget p).pins = s.pins := by
  unfold State.tlbForget
  split <;> rfl

@[simp] theorem State.tlbForget_hlda (s : State) (p : BitVec 20) :
    (s.tlbForget p).hlda = s.hlda := by
  unfold State.tlbForget
  split <;> rfl

@[simp] theorem State.tlbForget_bus (s : State) (p : BitVec 20) :
    (s.tlbForget p).bus = s.bus := by
  unfold State.tlbForget
  split <;> rfl

@[simp] theorem State.tlbForget_cop (s : State) (p : BitVec 20) :
    (s.tlbForget p).cop = s.cop := by
  unfold State.tlbForget
  split <;> rfl

@[simp] theorem State.tlbForget_mem (s : State) (p : BitVec 20) :
    (s.tlbForget p).mem = s.mem := by
  unfold State.tlbForget
  split <;> rfl

@[simp] theorem State.tlbForget_masters (s : State) (p : BitVec 20) :
    (s.tlbForget p).masters = s.masters := by
  unfold State.tlbForget
  split <;> rfl

@[simp] theorem State.tlbForget_tick (s : State) (p : BitVec 20) :
    (s.tlbForget p).tick = s.tick := by
  unfold State.tlbForget
  split <;> rfl

/-! ## keepMap -/

@[simp] theorem State.keepMap_cfg (s : State) (c : Bool) : (s.keepMap c).cfg = s.cfg := by cases c <;> rfl

@[simp] theorem State.keepMap_regs (s : State) (c : Bool) : (s.keepMap c).regs = s.regs := by cases c <;> rfl

@[simp] theorem State.keepMap_eip (s : State) (c : Bool) : (s.keepMap c).eip = s.eip := by cases c <;> rfl

@[simp] theorem State.keepMap_nextEip (s : State) (c : Bool) : (s.keepMap c).nextEip = s.nextEip := by cases c <;> rfl

@[simp] theorem State.keepMap_flags (s : State) (c : Bool) : (s.keepMap c).flags = s.flags := by cases c <;> rfl

@[simp] theorem State.keepMap_es (s : State) (c : Bool) : (s.keepMap c).es = s.es := by cases c <;> rfl

@[simp] theorem State.keepMap_cs (s : State) (c : Bool) : (s.keepMap c).cs = s.cs := by cases c <;> rfl

@[simp] theorem State.keepMap_ss (s : State) (c : Bool) : (s.keepMap c).ss = s.ss := by cases c <;> rfl

@[simp] theorem State.keepMap_ds (s : State) (c : Bool) : (s.keepMap c).ds = s.ds := by cases c <;> rfl

@[simp] theorem State.keepMap_fs (s : State) (c : Bool) : (s.keepMap c).fs = s.fs := by cases c <;> rfl

@[simp] theorem State.keepMap_gs (s : State) (c : Bool) : (s.keepMap c).gs = s.gs := by cases c <;> rfl

@[simp] theorem State.keepMap_gdtr (s : State) (c : Bool) : (s.keepMap c).gdtr = s.gdtr := by cases c <;> rfl

@[simp] theorem State.keepMap_idtr (s : State) (c : Bool) : (s.keepMap c).idtr = s.idtr := by cases c <;> rfl

@[simp] theorem State.keepMap_ldtr (s : State) (c : Bool) : (s.keepMap c).ldtr = s.ldtr := by cases c <;> rfl

@[simp] theorem State.keepMap_tr (s : State) (c : Bool) : (s.keepMap c).tr = s.tr := by cases c <;> rfl

@[simp] theorem State.keepMap_cpl (s : State) (c : Bool) : (s.keepMap c).cpl = s.cpl := by cases c <;> rfl

@[simp] theorem State.keepMap_cr0 (s : State) (c : Bool) : (s.keepMap c).cr0 = s.cr0 := by cases c <;> rfl

@[simp] theorem State.keepMap_cr2 (s : State) (c : Bool) : (s.keepMap c).cr2 = s.cr2 := by cases c <;> rfl

@[simp] theorem State.keepMap_cr3 (s : State) (c : Bool) : (s.keepMap c).cr3 = s.cr3 := by cases c <;> rfl

@[simp] theorem State.keepMap_dr0 (s : State) (c : Bool) : (s.keepMap c).dr0 = s.dr0 := by cases c <;> rfl

@[simp] theorem State.keepMap_dr1 (s : State) (c : Bool) : (s.keepMap c).dr1 = s.dr1 := by cases c <;> rfl

@[simp] theorem State.keepMap_dr2 (s : State) (c : Bool) : (s.keepMap c).dr2 = s.dr2 := by cases c <;> rfl

@[simp] theorem State.keepMap_dr3 (s : State) (c : Bool) : (s.keepMap c).dr3 = s.dr3 := by cases c <;> rfl

@[simp] theorem State.keepMap_dr6 (s : State) (c : Bool) : (s.keepMap c).dr6 = s.dr6 := by cases c <;> rfl

@[simp] theorem State.keepMap_dr7 (s : State) (c : Bool) : (s.keepMap c).dr7 = s.dr7 := by cases c <;> rfl

@[simp] theorem State.keepMap_tlb (s : State) (c : Bool) : (s.keepMap c).tlb = s.tlb := by cases c <;> rfl

@[simp] theorem State.keepMap_pfx (s : State) (c : Bool) : (s.keepMap c).pfx = s.pfx := by cases c <;> rfl

@[simp] theorem State.keepMap_run (s : State) (c : Bool) : (s.keepMap c).run = s.run := by cases c <;> rfl

@[simp] theorem State.keepMap_shadow (s : State) (c : Bool) : (s.keepMap c).shadow = s.shadow := by cases c <;> rfl

@[simp] theorem State.keepMap_midRep (s : State) (c : Bool) : (s.keepMap c).midRep = s.midRep := by cases c <;> rfl

@[simp] theorem State.keepMap_trap (s : State) (c : Bool) : (s.keepMap c).trap = s.trap := by cases c <;> rfl

@[simp] theorem State.keepMap_pending (s : State) (c : Bool) : (s.keepMap c).pending = s.pending := by cases c <;> rfl

@[simp] theorem State.keepMap_nmiLatch (s : State) (c : Bool) :
    (s.keepMap c).nmiLatch = s.nmiLatch := by cases c <;> rfl

@[simp] theorem State.keepMap_nmiBlocked (s : State) (c : Bool) :
    (s.keepMap c).nmiBlocked = s.nmiBlocked := by cases c <;> rfl

@[simp] theorem State.keepMap_pins (s : State) (c : Bool) : (s.keepMap c).pins = s.pins := by cases c <;> rfl

@[simp] theorem State.keepMap_hlda (s : State) (c : Bool) : (s.keepMap c).hlda = s.hlda := by cases c <;> rfl

@[simp] theorem State.keepMap_bus (s : State) (c : Bool) : (s.keepMap c).bus = s.bus := by cases c <;> rfl

@[simp] theorem State.keepMap_cop (s : State) (c : Bool) : (s.keepMap c).cop = s.cop := by cases c <;> rfl

@[simp] theorem State.keepMap_mem (s : State) (c : Bool) : (s.keepMap c).mem = s.mem := by cases c <;> rfl

@[simp] theorem State.keepMap_masters (s : State) (c : Bool) : (s.keepMap c).masters = s.masters := by cases c <;> rfl

@[simp] theorem State.keepMap_tick (s : State) (c : Bool) : (s.keepMap c).tick = s.tick := by cases c <;> rfl

/-- A kept mapping leaves the bytes that the prefetch may hold. -/
@[simp] theorem State.keepMap_cells (s : State) (c : Bool) : (s.keepMap c).stale.cells = s.stale.cells := by
  cases c <;> rfl

/-- What the removal of a forgotten entry can do. -/
theorem State.tlbForget_cases (s : State) (p : BitVec 20) : s.tlbForget p = s ∨
    s.tlbForget p = { s with tlb := s.tlb.filter fun e => e.page != p } := by
  unfold State.tlbForget
  split
  · exact .inr rfl
  · exact .inl rfl

/-! ## setSeg -/

@[simp] theorem State.setSeg_cfg (s : State) (r : SReg) (g : SegReg) : (s.setSeg r g).cfg = s.cfg := by cases r <;> rfl

@[simp] theorem State.setSeg_regs (s : State) (r : SReg) (g : SegReg) :
    (s.setSeg r g).regs = s.regs := by cases r <;> rfl

@[simp] theorem State.setSeg_eip (s : State) (r : SReg) (g : SegReg) : (s.setSeg r g).eip = s.eip := by cases r <;> rfl

@[simp] theorem State.setSeg_nextEip (s : State) (r : SReg) (g : SegReg) :
    (s.setSeg r g).nextEip = s.nextEip := by cases r <;> rfl

@[simp] theorem State.setSeg_flags (s : State) (r : SReg) (g : SegReg) :
    (s.setSeg r g).flags = s.flags := by cases r <;> rfl

@[simp] theorem State.setSeg_gdtr (s : State) (r : SReg) (g : SegReg) :
    (s.setSeg r g).gdtr = s.gdtr := by cases r <;> rfl

@[simp] theorem State.setSeg_idtr (s : State) (r : SReg) (g : SegReg) :
    (s.setSeg r g).idtr = s.idtr := by cases r <;> rfl

@[simp] theorem State.setSeg_ldtr (s : State) (r : SReg) (g : SegReg) :
    (s.setSeg r g).ldtr = s.ldtr := by cases r <;> rfl

@[simp] theorem State.setSeg_tr (s : State) (r : SReg) (g : SegReg) : (s.setSeg r g).tr = s.tr := by cases r <;> rfl

@[simp] theorem State.setSeg_cpl (s : State) (r : SReg) (g : SegReg) : (s.setSeg r g).cpl = s.cpl := by cases r <;> rfl

@[simp] theorem State.setSeg_cr0 (s : State) (r : SReg) (g : SegReg) : (s.setSeg r g).cr0 = s.cr0 := by cases r <;> rfl

@[simp] theorem State.setSeg_cr2 (s : State) (r : SReg) (g : SegReg) : (s.setSeg r g).cr2 = s.cr2 := by cases r <;> rfl

@[simp] theorem State.setSeg_cr3 (s : State) (r : SReg) (g : SegReg) : (s.setSeg r g).cr3 = s.cr3 := by cases r <;> rfl

@[simp] theorem State.setSeg_dr0 (s : State) (r : SReg) (g : SegReg) : (s.setSeg r g).dr0 = s.dr0 := by cases r <;> rfl

@[simp] theorem State.setSeg_dr1 (s : State) (r : SReg) (g : SegReg) : (s.setSeg r g).dr1 = s.dr1 := by cases r <;> rfl

@[simp] theorem State.setSeg_dr2 (s : State) (r : SReg) (g : SegReg) : (s.setSeg r g).dr2 = s.dr2 := by cases r <;> rfl

@[simp] theorem State.setSeg_dr3 (s : State) (r : SReg) (g : SegReg) : (s.setSeg r g).dr3 = s.dr3 := by cases r <;> rfl

@[simp] theorem State.setSeg_dr6 (s : State) (r : SReg) (g : SegReg) : (s.setSeg r g).dr6 = s.dr6 := by cases r <;> rfl

@[simp] theorem State.setSeg_dr7 (s : State) (r : SReg) (g : SegReg) : (s.setSeg r g).dr7 = s.dr7 := by cases r <;> rfl

@[simp] theorem State.setSeg_tlb (s : State) (r : SReg) (g : SegReg) : (s.setSeg r g).tlb = s.tlb := by cases r <;> rfl

@[simp] theorem State.setSeg_stale (s : State) (r : SReg) (g : SegReg) :
    (s.setSeg r g).stale = s.stale := by cases r <;> rfl

@[simp] theorem State.setSeg_pfx (s : State) (r : SReg) (g : SegReg) : (s.setSeg r g).pfx = s.pfx := by cases r <;> rfl

@[simp] theorem State.setSeg_run (s : State) (r : SReg) (g : SegReg) : (s.setSeg r g).run = s.run := by cases r <;> rfl

@[simp] theorem State.setSeg_shadow (s : State) (r : SReg) (g : SegReg) :
    (s.setSeg r g).shadow = s.shadow := by cases r <;> rfl

@[simp] theorem State.setSeg_midRep (s : State) (r : SReg) (g : SegReg) :
    (s.setSeg r g).midRep = s.midRep := by cases r <;> rfl

@[simp] theorem State.setSeg_trap (s : State) (r : SReg) (g : SegReg) :
    (s.setSeg r g).trap = s.trap := by cases r <;> rfl

@[simp] theorem State.setSeg_pending (s : State) (r : SReg) (g : SegReg) :
    (s.setSeg r g).pending = s.pending := by cases r <;> rfl

@[simp] theorem State.setSeg_nmiLatch (s : State) (r : SReg) (g : SegReg) :
    (s.setSeg r g).nmiLatch = s.nmiLatch := by cases r <;> rfl

@[simp] theorem State.setSeg_nmiBlocked (s : State) (r : SReg) (g : SegReg) :
    (s.setSeg r g).nmiBlocked = s.nmiBlocked := by cases r <;> rfl

@[simp] theorem State.setSeg_pins (s : State) (r : SReg) (g : SegReg) :
    (s.setSeg r g).pins = s.pins := by cases r <;> rfl

@[simp] theorem State.setSeg_hlda (s : State) (r : SReg) (g : SegReg) :
    (s.setSeg r g).hlda = s.hlda := by cases r <;> rfl

@[simp] theorem State.setSeg_bus (s : State) (r : SReg) (g : SegReg) : (s.setSeg r g).bus = s.bus := by cases r <;> rfl

@[simp] theorem State.setSeg_cop (s : State) (r : SReg) (g : SegReg) : (s.setSeg r g).cop = s.cop := by cases r <;> rfl

@[simp] theorem State.setSeg_mem (s : State) (r : SReg) (g : SegReg) : (s.setSeg r g).mem = s.mem := by cases r <;> rfl

@[simp] theorem State.setSeg_masters (s : State) (r : SReg) (g : SegReg) :
    (s.setSeg r g).masters = s.masters := by cases r <;> rfl

@[simp] theorem State.setSeg_tick (s : State) (r : SReg) (g : SegReg) :
    (s.setSeg r g).tick = s.tick := by cases r <;> rfl

/-! ## setPhysBytes -/

@[simp] theorem State.setPhysBytes_cfg (s : State) (as : List Word32) (bs : List Byte) :
    (s.setPhysBytes as bs).cfg = s.cfg := by
  induction as generalizing s bs with
  | nil => rfl
  | cons a as ih =>
    cases bs with
    | nil => rfl
    | cons b bs => exact ih (s.setPhysByte a b) bs

@[simp] theorem State.setPhysBytes_regs (s : State) (as : List Word32) (bs : List Byte) :
    (s.setPhysBytes as bs).regs = s.regs := by
  induction as generalizing s bs with
  | nil => rfl
  | cons a as ih =>
    cases bs with
    | nil => rfl
    | cons b bs => exact ih (s.setPhysByte a b) bs

@[simp] theorem State.setPhysBytes_eip (s : State) (as : List Word32) (bs : List Byte) :
    (s.setPhysBytes as bs).eip = s.eip := by
  induction as generalizing s bs with
  | nil => rfl
  | cons a as ih =>
    cases bs with
    | nil => rfl
    | cons b bs => exact ih (s.setPhysByte a b) bs

@[simp] theorem State.setPhysBytes_nextEip (s : State) (as : List Word32) (bs : List Byte) :
    (s.setPhysBytes as bs).nextEip = s.nextEip := by
  induction as generalizing s bs with
  | nil => rfl
  | cons a as ih =>
    cases bs with
    | nil => rfl
    | cons b bs => exact ih (s.setPhysByte a b) bs

@[simp] theorem State.setPhysBytes_flags (s : State) (as : List Word32) (bs : List Byte) :
    (s.setPhysBytes as bs).flags = s.flags := by
  induction as generalizing s bs with
  | nil => rfl
  | cons a as ih =>
    cases bs with
    | nil => rfl
    | cons b bs => exact ih (s.setPhysByte a b) bs

@[simp] theorem State.setPhysBytes_es (s : State) (as : List Word32) (bs : List Byte) :
    (s.setPhysBytes as bs).es = s.es := by
  induction as generalizing s bs with
  | nil => rfl
  | cons a as ih =>
    cases bs with
    | nil => rfl
    | cons b bs => exact ih (s.setPhysByte a b) bs

@[simp] theorem State.setPhysBytes_cs (s : State) (as : List Word32) (bs : List Byte) :
    (s.setPhysBytes as bs).cs = s.cs := by
  induction as generalizing s bs with
  | nil => rfl
  | cons a as ih =>
    cases bs with
    | nil => rfl
    | cons b bs => exact ih (s.setPhysByte a b) bs

@[simp] theorem State.setPhysBytes_ss (s : State) (as : List Word32) (bs : List Byte) :
    (s.setPhysBytes as bs).ss = s.ss := by
  induction as generalizing s bs with
  | nil => rfl
  | cons a as ih =>
    cases bs with
    | nil => rfl
    | cons b bs => exact ih (s.setPhysByte a b) bs

@[simp] theorem State.setPhysBytes_ds (s : State) (as : List Word32) (bs : List Byte) :
    (s.setPhysBytes as bs).ds = s.ds := by
  induction as generalizing s bs with
  | nil => rfl
  | cons a as ih =>
    cases bs with
    | nil => rfl
    | cons b bs => exact ih (s.setPhysByte a b) bs

@[simp] theorem State.setPhysBytes_fs (s : State) (as : List Word32) (bs : List Byte) :
    (s.setPhysBytes as bs).fs = s.fs := by
  induction as generalizing s bs with
  | nil => rfl
  | cons a as ih =>
    cases bs with
    | nil => rfl
    | cons b bs => exact ih (s.setPhysByte a b) bs

@[simp] theorem State.setPhysBytes_gs (s : State) (as : List Word32) (bs : List Byte) :
    (s.setPhysBytes as bs).gs = s.gs := by
  induction as generalizing s bs with
  | nil => rfl
  | cons a as ih =>
    cases bs with
    | nil => rfl
    | cons b bs => exact ih (s.setPhysByte a b) bs

@[simp] theorem State.setPhysBytes_gdtr (s : State) (as : List Word32) (bs : List Byte) :
    (s.setPhysBytes as bs).gdtr = s.gdtr := by
  induction as generalizing s bs with
  | nil => rfl
  | cons a as ih =>
    cases bs with
    | nil => rfl
    | cons b bs => exact ih (s.setPhysByte a b) bs

@[simp] theorem State.setPhysBytes_idtr (s : State) (as : List Word32) (bs : List Byte) :
    (s.setPhysBytes as bs).idtr = s.idtr := by
  induction as generalizing s bs with
  | nil => rfl
  | cons a as ih =>
    cases bs with
    | nil => rfl
    | cons b bs => exact ih (s.setPhysByte a b) bs

@[simp] theorem State.setPhysBytes_ldtr (s : State) (as : List Word32) (bs : List Byte) :
    (s.setPhysBytes as bs).ldtr = s.ldtr := by
  induction as generalizing s bs with
  | nil => rfl
  | cons a as ih =>
    cases bs with
    | nil => rfl
    | cons b bs => exact ih (s.setPhysByte a b) bs

@[simp] theorem State.setPhysBytes_tr (s : State) (as : List Word32) (bs : List Byte) :
    (s.setPhysBytes as bs).tr = s.tr := by
  induction as generalizing s bs with
  | nil => rfl
  | cons a as ih =>
    cases bs with
    | nil => rfl
    | cons b bs => exact ih (s.setPhysByte a b) bs

@[simp] theorem State.setPhysBytes_cpl (s : State) (as : List Word32) (bs : List Byte) :
    (s.setPhysBytes as bs).cpl = s.cpl := by
  induction as generalizing s bs with
  | nil => rfl
  | cons a as ih =>
    cases bs with
    | nil => rfl
    | cons b bs => exact ih (s.setPhysByte a b) bs

@[simp] theorem State.setPhysBytes_cr0 (s : State) (as : List Word32) (bs : List Byte) :
    (s.setPhysBytes as bs).cr0 = s.cr0 := by
  induction as generalizing s bs with
  | nil => rfl
  | cons a as ih =>
    cases bs with
    | nil => rfl
    | cons b bs => exact ih (s.setPhysByte a b) bs

@[simp] theorem State.setPhysBytes_cr2 (s : State) (as : List Word32) (bs : List Byte) :
    (s.setPhysBytes as bs).cr2 = s.cr2 := by
  induction as generalizing s bs with
  | nil => rfl
  | cons a as ih =>
    cases bs with
    | nil => rfl
    | cons b bs => exact ih (s.setPhysByte a b) bs

@[simp] theorem State.setPhysBytes_cr3 (s : State) (as : List Word32) (bs : List Byte) :
    (s.setPhysBytes as bs).cr3 = s.cr3 := by
  induction as generalizing s bs with
  | nil => rfl
  | cons a as ih =>
    cases bs with
    | nil => rfl
    | cons b bs => exact ih (s.setPhysByte a b) bs

@[simp] theorem State.setPhysBytes_dr0 (s : State) (as : List Word32) (bs : List Byte) :
    (s.setPhysBytes as bs).dr0 = s.dr0 := by
  induction as generalizing s bs with
  | nil => rfl
  | cons a as ih =>
    cases bs with
    | nil => rfl
    | cons b bs => exact ih (s.setPhysByte a b) bs

@[simp] theorem State.setPhysBytes_dr1 (s : State) (as : List Word32) (bs : List Byte) :
    (s.setPhysBytes as bs).dr1 = s.dr1 := by
  induction as generalizing s bs with
  | nil => rfl
  | cons a as ih =>
    cases bs with
    | nil => rfl
    | cons b bs => exact ih (s.setPhysByte a b) bs

@[simp] theorem State.setPhysBytes_dr2 (s : State) (as : List Word32) (bs : List Byte) :
    (s.setPhysBytes as bs).dr2 = s.dr2 := by
  induction as generalizing s bs with
  | nil => rfl
  | cons a as ih =>
    cases bs with
    | nil => rfl
    | cons b bs => exact ih (s.setPhysByte a b) bs

@[simp] theorem State.setPhysBytes_dr3 (s : State) (as : List Word32) (bs : List Byte) :
    (s.setPhysBytes as bs).dr3 = s.dr3 := by
  induction as generalizing s bs with
  | nil => rfl
  | cons a as ih =>
    cases bs with
    | nil => rfl
    | cons b bs => exact ih (s.setPhysByte a b) bs

@[simp] theorem State.setPhysBytes_dr6 (s : State) (as : List Word32) (bs : List Byte) :
    (s.setPhysBytes as bs).dr6 = s.dr6 := by
  induction as generalizing s bs with
  | nil => rfl
  | cons a as ih =>
    cases bs with
    | nil => rfl
    | cons b bs => exact ih (s.setPhysByte a b) bs

@[simp] theorem State.setPhysBytes_dr7 (s : State) (as : List Word32) (bs : List Byte) :
    (s.setPhysBytes as bs).dr7 = s.dr7 := by
  induction as generalizing s bs with
  | nil => rfl
  | cons a as ih =>
    cases bs with
    | nil => rfl
    | cons b bs => exact ih (s.setPhysByte a b) bs

@[simp] theorem State.setPhysBytes_tlb (s : State) (as : List Word32) (bs : List Byte) :
    (s.setPhysBytes as bs).tlb = s.tlb := by
  induction as generalizing s bs with
  | nil => rfl
  | cons a as ih =>
    cases bs with
    | nil => rfl
    | cons b bs => exact ih (s.setPhysByte a b) bs

@[simp] theorem State.setPhysBytes_pfx (s : State) (as : List Word32) (bs : List Byte) :
    (s.setPhysBytes as bs).pfx = s.pfx := by
  induction as generalizing s bs with
  | nil => rfl
  | cons a as ih =>
    cases bs with
    | nil => rfl
    | cons b bs => exact ih (s.setPhysByte a b) bs

@[simp] theorem State.setPhysBytes_run (s : State) (as : List Word32) (bs : List Byte) :
    (s.setPhysBytes as bs).run = s.run := by
  induction as generalizing s bs with
  | nil => rfl
  | cons a as ih =>
    cases bs with
    | nil => rfl
    | cons b bs => exact ih (s.setPhysByte a b) bs

@[simp] theorem State.setPhysBytes_shadow (s : State) (as : List Word32) (bs : List Byte) :
    (s.setPhysBytes as bs).shadow = s.shadow := by
  induction as generalizing s bs with
  | nil => rfl
  | cons a as ih =>
    cases bs with
    | nil => rfl
    | cons b bs => exact ih (s.setPhysByte a b) bs

@[simp] theorem State.setPhysBytes_midRep (s : State) (as : List Word32) (bs : List Byte) :
    (s.setPhysBytes as bs).midRep = s.midRep := by
  induction as generalizing s bs with
  | nil => rfl
  | cons a as ih =>
    cases bs with
    | nil => rfl
    | cons b bs => exact ih (s.setPhysByte a b) bs

@[simp] theorem State.setPhysBytes_trap (s : State) (as : List Word32) (bs : List Byte) :
    (s.setPhysBytes as bs).trap = s.trap := by
  induction as generalizing s bs with
  | nil => rfl
  | cons a as ih =>
    cases bs with
    | nil => rfl
    | cons b bs => exact ih (s.setPhysByte a b) bs

@[simp] theorem State.setPhysBytes_pending (s : State) (as : List Word32) (bs : List Byte) :
    (s.setPhysBytes as bs).pending = s.pending := by
  induction as generalizing s bs with
  | nil => rfl
  | cons a as ih =>
    cases bs with
    | nil => rfl
    | cons b bs => exact ih (s.setPhysByte a b) bs

@[simp] theorem State.setPhysBytes_nmiLatch (s : State) (as : List Word32) (bs : List Byte) :
    (s.setPhysBytes as bs).nmiLatch = s.nmiLatch := by
  induction as generalizing s bs with
  | nil => rfl
  | cons a as ih =>
    cases bs with
    | nil => rfl
    | cons b bs => exact ih (s.setPhysByte a b) bs

@[simp] theorem State.setPhysBytes_nmiBlocked (s : State) (as : List Word32) (bs : List Byte) :
    (s.setPhysBytes as bs).nmiBlocked = s.nmiBlocked := by
  induction as generalizing s bs with
  | nil => rfl
  | cons a as ih =>
    cases bs with
    | nil => rfl
    | cons b bs => exact ih (s.setPhysByte a b) bs

@[simp] theorem State.setPhysBytes_pins (s : State) (as : List Word32) (bs : List Byte) :
    (s.setPhysBytes as bs).pins = s.pins := by
  induction as generalizing s bs with
  | nil => rfl
  | cons a as ih =>
    cases bs with
    | nil => rfl
    | cons b bs => exact ih (s.setPhysByte a b) bs

@[simp] theorem State.setPhysBytes_hlda (s : State) (as : List Word32) (bs : List Byte) :
    (s.setPhysBytes as bs).hlda = s.hlda := by
  induction as generalizing s bs with
  | nil => rfl
  | cons a as ih =>
    cases bs with
    | nil => rfl
    | cons b bs => exact ih (s.setPhysByte a b) bs

@[simp] theorem State.setPhysBytes_bus (s : State) (as : List Word32) (bs : List Byte) :
    (s.setPhysBytes as bs).bus = s.bus := by
  induction as generalizing s bs with
  | nil => rfl
  | cons a as ih =>
    cases bs with
    | nil => rfl
    | cons b bs => exact ih (s.setPhysByte a b) bs

@[simp] theorem State.setPhysBytes_cop (s : State) (as : List Word32) (bs : List Byte) :
    (s.setPhysBytes as bs).cop = s.cop := by
  induction as generalizing s bs with
  | nil => rfl
  | cons a as ih =>
    cases bs with
    | nil => rfl
    | cons b bs => exact ih (s.setPhysByte a b) bs

@[simp] theorem State.setPhysBytes_masters (s : State) (as : List Word32) (bs : List Byte) :
    (s.setPhysBytes as bs).masters = s.masters := by
  induction as generalizing s bs with
  | nil => rfl
  | cons a as ih =>
    cases bs with
    | nil => rfl
    | cons b bs => exact ih (s.setPhysByte a b) bs

@[simp] theorem State.setPhysBytes_tick (s : State) (as : List Word32) (bs : List Byte) :
    (s.setPhysBytes as bs).tick = s.tick := by
  induction as generalizing s bs with
  | nil => rfl
  | cons a as ih =>
    cases bs with
    | nil => rfl
    | cons b bs => exact ih (s.setPhysByte a b) bs

/-! ## turned and busWrite -/

/-- `t` differs from `s` at most in what bus cycles change: memory, the groups the other masters still have, and the bytes the
prefetch may hold. -/
def State.SameButMemory (s t : State) : Prop := t = { s with mem := t.mem, masters := t.masters, stale := t.stale }

theorem State.SameButMemory.eq {s t : State} (h : s.SameButMemory t) :
    t = { s with mem := t.mem, masters := t.masters, stale := t.stale } := h

/-- A field that bus cycles leave alone. -/
theorem State.SameButMemory.field {α : Type} {s t : State} (h : s.SameButMemory t) (f : State → α)
    (hf : ∀ m ms st, f { s with mem := m, masters := ms, stale := st } = f s) : f t = f s := by
  rw [h.eq]
  exact hf _ _ _

theorem State.SameButMemory.refl (s : State) : s.SameButMemory s := rfl

theorem State.SameButMemory.trans {s t u : State} (h : s.SameButMemory t) (k : t.SameButMemory u) :
    s.SameButMemory u := by
  unfold State.SameButMemory at *
  rw [k, h]

theorem State.setPhysBytes_same (s : State) (as : List Word32) (bs : List Byte) :
    s.SameButMemory (s.setPhysBytes as bs) := by
  induction as generalizing s bs with
  | nil => exact .refl s
  | cons a as ih =>
    cases bs with
    | nil => exact .refl s
    | cons b bs => exact .trans (t := s.setPhysByte a b) rfl (ih _ _)

theorem State.turned_same (s : State) : s.SameButMemory s.turned := by
  unfold State.turned
  split
  · exact .refl s
  · exact .trans (t := { s with masters := _ }) rfl (State.setPhysBytes_same _ _ _)

theorem State.cycleWrite_same (s : State) (as : List Word32) (bs : List Byte) :
    s.SameButMemory (s.cycleWrite as bs) := s.turned_same.trans (State.setPhysBytes_same _ _ _)

theorem State.pieceWrite_same (s : State) (as : List Word32) (bs : List Byte) :
    s.SameButMemory (s.pieceWrite as bs) := by
  simp only [State.pieceWrite]
  split
  · exact s.cycleWrite_same _ _
  · exact (s.cycleWrite_same _ _).trans (State.cycleWrite_same _ _ _)

theorem State.cyclesWrite_same (s : State) (ps : List (List Word32)) (bs : List Byte) :
    s.SameButMemory (s.cyclesWrite ps bs) := by
  induction ps generalizing s bs with
  | nil => exact .refl s
  | cons p ps ih => exact (s.pieceWrite_same _ _).trans (ih _ _)

/-- What a write of memory can change. -/
theorem State.busWrite_same (s : State) (k : Nat) (as : List Word32) (bs : List Byte) :
    s.SameButMemory (s.busWrite k as bs) := by
  unfold State.busWrite
  split
  · exact s.setPhysBytes_same _ _
  · exact s.cyclesWrite_same _ _

theorem State.pieceRead_same (s : State) (as : List Word32) : s.SameButMemory (s.pieceRead as).2 := by
  simp only [State.pieceRead]
  split
  · exact s.turned_same
  · exact s.turned_same.trans (State.turned_same _)

theorem State.cyclesRead_same (s : State) (ps : List (List Word32)) : s.SameButMemory (s.cyclesRead ps).2 := by
  induction ps generalizing s with
  | nil => exact .refl s
  | cons p ps ih => exact (s.pieceRead_same _).trans (ih _)

/-- What a read of memory can change: the other masters may store between its cycles. -/
theorem State.busRead_same (s : State) (k : Nat) (as : List Word32) : s.SameButMemory (s.busRead k as).2 := by
  unfold State.busRead
  split
  · exact .refl s
  · exact s.cyclesRead_same _

/-- What a turn of the bus can do: nothing when no group is left, else it stores the bytes of the first one. -/
theorem State.turned_cases (s : State) : (s.masters = [] ∧ s.turned = s) ∨ ∃ g gs, s.masters = g :: gs ∧
    s.turned = { s with masters := gs }.setPhysBytes (g.map MasterWrite.addr) (g.map MasterWrite.byte) := by
  unfold State.turned
  split
  · exact .inl ⟨‹_›, rfl⟩
  · exact .inr ⟨_, _, ‹_›, rfl⟩

@[simp] theorem State.turned_masters (s : State) : s.turned.masters = s.masters.tail := by
  unfold State.turned
  split <;> simp_all

theorem State.turned_alone {s : State} (h : s.masters = []) : s.turned = s := by
  unfold State.turned
  rw [h]

theorem State.busWrite_alone {s : State} (h : s.masters = []) (k : Nat) (as : List Word32) (bs : List Byte) :
    s.busWrite k as bs = s.setPhysBytes as bs := by simp [State.busWrite, h]

theorem State.busRead_alone {s : State} (h : s.masters = []) (k : Nat) (as : List Word32) :
    s.busRead k as = (as.map s.physByte, s) := by simp [State.busRead, h]

@[simp] theorem State.turned_cfg (s : State) : s.turned.cfg = s.cfg := 
    s.turned_same.field State.cfg fun _ _ _ => rfl

@[simp] theorem State.busWrite_cfg (s : State) (k : Nat) (as : List Word32) (bs : List Byte) :
    (s.busWrite k as bs).cfg = s.cfg := (s.busWrite_same k as bs).field State.cfg fun _ _ _ => rfl

@[simp] theorem State.busRead_cfg (s : State) (k : Nat) (as : List Word32) :
    (s.busRead k as).2.cfg = s.cfg := (s.busRead_same k as).field State.cfg fun _ _ _ => rfl

@[simp] theorem State.turned_regs (s : State) : s.turned.regs = s.regs := 
    s.turned_same.field State.regs fun _ _ _ => rfl

@[simp] theorem State.busWrite_regs (s : State) (k : Nat) (as : List Word32) (bs : List Byte) :
    (s.busWrite k as bs).regs = s.regs := (s.busWrite_same k as bs).field State.regs fun _ _ _ => rfl

@[simp] theorem State.busRead_regs (s : State) (k : Nat) (as : List Word32) :
    (s.busRead k as).2.regs = s.regs := (s.busRead_same k as).field State.regs fun _ _ _ => rfl

@[simp] theorem State.turned_eip (s : State) : s.turned.eip = s.eip := 
    s.turned_same.field State.eip fun _ _ _ => rfl

@[simp] theorem State.busWrite_eip (s : State) (k : Nat) (as : List Word32) (bs : List Byte) :
    (s.busWrite k as bs).eip = s.eip := (s.busWrite_same k as bs).field State.eip fun _ _ _ => rfl

@[simp] theorem State.busRead_eip (s : State) (k : Nat) (as : List Word32) :
    (s.busRead k as).2.eip = s.eip := (s.busRead_same k as).field State.eip fun _ _ _ => rfl

@[simp] theorem State.turned_nextEip (s : State) : s.turned.nextEip = s.nextEip := 
    s.turned_same.field State.nextEip fun _ _ _ => rfl

@[simp] theorem State.busWrite_nextEip (s : State) (k : Nat) (as : List Word32) (bs : List Byte) :
    (s.busWrite k as bs).nextEip = s.nextEip := (s.busWrite_same k as bs).field State.nextEip fun _ _ _ => rfl

@[simp] theorem State.busRead_nextEip (s : State) (k : Nat) (as : List Word32) :
    (s.busRead k as).2.nextEip = s.nextEip := (s.busRead_same k as).field State.nextEip fun _ _ _ => rfl

@[simp] theorem State.turned_flags (s : State) : s.turned.flags = s.flags := 
    s.turned_same.field State.flags fun _ _ _ => rfl

@[simp] theorem State.busWrite_flags (s : State) (k : Nat) (as : List Word32) (bs : List Byte) :
    (s.busWrite k as bs).flags = s.flags := (s.busWrite_same k as bs).field State.flags fun _ _ _ => rfl

@[simp] theorem State.busRead_flags (s : State) (k : Nat) (as : List Word32) :
    (s.busRead k as).2.flags = s.flags := (s.busRead_same k as).field State.flags fun _ _ _ => rfl

@[simp] theorem State.turned_es (s : State) : s.turned.es = s.es := 
    s.turned_same.field State.es fun _ _ _ => rfl

@[simp] theorem State.busWrite_es (s : State) (k : Nat) (as : List Word32) (bs : List Byte) :
    (s.busWrite k as bs).es = s.es := (s.busWrite_same k as bs).field State.es fun _ _ _ => rfl

@[simp] theorem State.busRead_es (s : State) (k : Nat) (as : List Word32) :
    (s.busRead k as).2.es = s.es := (s.busRead_same k as).field State.es fun _ _ _ => rfl

@[simp] theorem State.turned_cs (s : State) : s.turned.cs = s.cs := 
    s.turned_same.field State.cs fun _ _ _ => rfl

@[simp] theorem State.busWrite_cs (s : State) (k : Nat) (as : List Word32) (bs : List Byte) :
    (s.busWrite k as bs).cs = s.cs := (s.busWrite_same k as bs).field State.cs fun _ _ _ => rfl

@[simp] theorem State.busRead_cs (s : State) (k : Nat) (as : List Word32) :
    (s.busRead k as).2.cs = s.cs := (s.busRead_same k as).field State.cs fun _ _ _ => rfl

@[simp] theorem State.turned_ss (s : State) : s.turned.ss = s.ss := 
    s.turned_same.field State.ss fun _ _ _ => rfl

@[simp] theorem State.busWrite_ss (s : State) (k : Nat) (as : List Word32) (bs : List Byte) :
    (s.busWrite k as bs).ss = s.ss := (s.busWrite_same k as bs).field State.ss fun _ _ _ => rfl

@[simp] theorem State.busRead_ss (s : State) (k : Nat) (as : List Word32) :
    (s.busRead k as).2.ss = s.ss := (s.busRead_same k as).field State.ss fun _ _ _ => rfl

@[simp] theorem State.turned_ds (s : State) : s.turned.ds = s.ds := 
    s.turned_same.field State.ds fun _ _ _ => rfl

@[simp] theorem State.busWrite_ds (s : State) (k : Nat) (as : List Word32) (bs : List Byte) :
    (s.busWrite k as bs).ds = s.ds := (s.busWrite_same k as bs).field State.ds fun _ _ _ => rfl

@[simp] theorem State.busRead_ds (s : State) (k : Nat) (as : List Word32) :
    (s.busRead k as).2.ds = s.ds := (s.busRead_same k as).field State.ds fun _ _ _ => rfl

@[simp] theorem State.turned_fs (s : State) : s.turned.fs = s.fs := 
    s.turned_same.field State.fs fun _ _ _ => rfl

@[simp] theorem State.busWrite_fs (s : State) (k : Nat) (as : List Word32) (bs : List Byte) :
    (s.busWrite k as bs).fs = s.fs := (s.busWrite_same k as bs).field State.fs fun _ _ _ => rfl

@[simp] theorem State.busRead_fs (s : State) (k : Nat) (as : List Word32) :
    (s.busRead k as).2.fs = s.fs := (s.busRead_same k as).field State.fs fun _ _ _ => rfl

@[simp] theorem State.turned_gs (s : State) : s.turned.gs = s.gs := 
    s.turned_same.field State.gs fun _ _ _ => rfl

@[simp] theorem State.busWrite_gs (s : State) (k : Nat) (as : List Word32) (bs : List Byte) :
    (s.busWrite k as bs).gs = s.gs := (s.busWrite_same k as bs).field State.gs fun _ _ _ => rfl

@[simp] theorem State.busRead_gs (s : State) (k : Nat) (as : List Word32) :
    (s.busRead k as).2.gs = s.gs := (s.busRead_same k as).field State.gs fun _ _ _ => rfl

@[simp] theorem State.turned_gdtr (s : State) : s.turned.gdtr = s.gdtr := 
    s.turned_same.field State.gdtr fun _ _ _ => rfl

@[simp] theorem State.busWrite_gdtr (s : State) (k : Nat) (as : List Word32) (bs : List Byte) :
    (s.busWrite k as bs).gdtr = s.gdtr := (s.busWrite_same k as bs).field State.gdtr fun _ _ _ => rfl

@[simp] theorem State.busRead_gdtr (s : State) (k : Nat) (as : List Word32) :
    (s.busRead k as).2.gdtr = s.gdtr := (s.busRead_same k as).field State.gdtr fun _ _ _ => rfl

@[simp] theorem State.turned_idtr (s : State) : s.turned.idtr = s.idtr := 
    s.turned_same.field State.idtr fun _ _ _ => rfl

@[simp] theorem State.busWrite_idtr (s : State) (k : Nat) (as : List Word32) (bs : List Byte) :
    (s.busWrite k as bs).idtr = s.idtr := (s.busWrite_same k as bs).field State.idtr fun _ _ _ => rfl

@[simp] theorem State.busRead_idtr (s : State) (k : Nat) (as : List Word32) :
    (s.busRead k as).2.idtr = s.idtr := (s.busRead_same k as).field State.idtr fun _ _ _ => rfl

@[simp] theorem State.turned_ldtr (s : State) : s.turned.ldtr = s.ldtr := 
    s.turned_same.field State.ldtr fun _ _ _ => rfl

@[simp] theorem State.busWrite_ldtr (s : State) (k : Nat) (as : List Word32) (bs : List Byte) :
    (s.busWrite k as bs).ldtr = s.ldtr := (s.busWrite_same k as bs).field State.ldtr fun _ _ _ => rfl

@[simp] theorem State.busRead_ldtr (s : State) (k : Nat) (as : List Word32) :
    (s.busRead k as).2.ldtr = s.ldtr := (s.busRead_same k as).field State.ldtr fun _ _ _ => rfl

@[simp] theorem State.turned_tr (s : State) : s.turned.tr = s.tr := 
    s.turned_same.field State.tr fun _ _ _ => rfl

@[simp] theorem State.busWrite_tr (s : State) (k : Nat) (as : List Word32) (bs : List Byte) :
    (s.busWrite k as bs).tr = s.tr := (s.busWrite_same k as bs).field State.tr fun _ _ _ => rfl

@[simp] theorem State.busRead_tr (s : State) (k : Nat) (as : List Word32) :
    (s.busRead k as).2.tr = s.tr := (s.busRead_same k as).field State.tr fun _ _ _ => rfl

@[simp] theorem State.turned_cpl (s : State) : s.turned.cpl = s.cpl := 
    s.turned_same.field State.cpl fun _ _ _ => rfl

@[simp] theorem State.busWrite_cpl (s : State) (k : Nat) (as : List Word32) (bs : List Byte) :
    (s.busWrite k as bs).cpl = s.cpl := (s.busWrite_same k as bs).field State.cpl fun _ _ _ => rfl

@[simp] theorem State.busRead_cpl (s : State) (k : Nat) (as : List Word32) :
    (s.busRead k as).2.cpl = s.cpl := (s.busRead_same k as).field State.cpl fun _ _ _ => rfl

@[simp] theorem State.turned_cr0 (s : State) : s.turned.cr0 = s.cr0 := 
    s.turned_same.field State.cr0 fun _ _ _ => rfl

@[simp] theorem State.busWrite_cr0 (s : State) (k : Nat) (as : List Word32) (bs : List Byte) :
    (s.busWrite k as bs).cr0 = s.cr0 := (s.busWrite_same k as bs).field State.cr0 fun _ _ _ => rfl

@[simp] theorem State.busRead_cr0 (s : State) (k : Nat) (as : List Word32) :
    (s.busRead k as).2.cr0 = s.cr0 := (s.busRead_same k as).field State.cr0 fun _ _ _ => rfl

@[simp] theorem State.turned_cr2 (s : State) : s.turned.cr2 = s.cr2 := 
    s.turned_same.field State.cr2 fun _ _ _ => rfl

@[simp] theorem State.busWrite_cr2 (s : State) (k : Nat) (as : List Word32) (bs : List Byte) :
    (s.busWrite k as bs).cr2 = s.cr2 := (s.busWrite_same k as bs).field State.cr2 fun _ _ _ => rfl

@[simp] theorem State.busRead_cr2 (s : State) (k : Nat) (as : List Word32) :
    (s.busRead k as).2.cr2 = s.cr2 := (s.busRead_same k as).field State.cr2 fun _ _ _ => rfl

@[simp] theorem State.turned_cr3 (s : State) : s.turned.cr3 = s.cr3 := 
    s.turned_same.field State.cr3 fun _ _ _ => rfl

@[simp] theorem State.busWrite_cr3 (s : State) (k : Nat) (as : List Word32) (bs : List Byte) :
    (s.busWrite k as bs).cr3 = s.cr3 := (s.busWrite_same k as bs).field State.cr3 fun _ _ _ => rfl

@[simp] theorem State.busRead_cr3 (s : State) (k : Nat) (as : List Word32) :
    (s.busRead k as).2.cr3 = s.cr3 := (s.busRead_same k as).field State.cr3 fun _ _ _ => rfl

@[simp] theorem State.turned_dr0 (s : State) : s.turned.dr0 = s.dr0 := 
    s.turned_same.field State.dr0 fun _ _ _ => rfl

@[simp] theorem State.busWrite_dr0 (s : State) (k : Nat) (as : List Word32) (bs : List Byte) :
    (s.busWrite k as bs).dr0 = s.dr0 := (s.busWrite_same k as bs).field State.dr0 fun _ _ _ => rfl

@[simp] theorem State.busRead_dr0 (s : State) (k : Nat) (as : List Word32) :
    (s.busRead k as).2.dr0 = s.dr0 := (s.busRead_same k as).field State.dr0 fun _ _ _ => rfl

@[simp] theorem State.turned_dr1 (s : State) : s.turned.dr1 = s.dr1 := 
    s.turned_same.field State.dr1 fun _ _ _ => rfl

@[simp] theorem State.busWrite_dr1 (s : State) (k : Nat) (as : List Word32) (bs : List Byte) :
    (s.busWrite k as bs).dr1 = s.dr1 := (s.busWrite_same k as bs).field State.dr1 fun _ _ _ => rfl

@[simp] theorem State.busRead_dr1 (s : State) (k : Nat) (as : List Word32) :
    (s.busRead k as).2.dr1 = s.dr1 := (s.busRead_same k as).field State.dr1 fun _ _ _ => rfl

@[simp] theorem State.turned_dr2 (s : State) : s.turned.dr2 = s.dr2 := 
    s.turned_same.field State.dr2 fun _ _ _ => rfl

@[simp] theorem State.busWrite_dr2 (s : State) (k : Nat) (as : List Word32) (bs : List Byte) :
    (s.busWrite k as bs).dr2 = s.dr2 := (s.busWrite_same k as bs).field State.dr2 fun _ _ _ => rfl

@[simp] theorem State.busRead_dr2 (s : State) (k : Nat) (as : List Word32) :
    (s.busRead k as).2.dr2 = s.dr2 := (s.busRead_same k as).field State.dr2 fun _ _ _ => rfl

@[simp] theorem State.turned_dr3 (s : State) : s.turned.dr3 = s.dr3 := 
    s.turned_same.field State.dr3 fun _ _ _ => rfl

@[simp] theorem State.busWrite_dr3 (s : State) (k : Nat) (as : List Word32) (bs : List Byte) :
    (s.busWrite k as bs).dr3 = s.dr3 := (s.busWrite_same k as bs).field State.dr3 fun _ _ _ => rfl

@[simp] theorem State.busRead_dr3 (s : State) (k : Nat) (as : List Word32) :
    (s.busRead k as).2.dr3 = s.dr3 := (s.busRead_same k as).field State.dr3 fun _ _ _ => rfl

@[simp] theorem State.turned_dr6 (s : State) : s.turned.dr6 = s.dr6 := 
    s.turned_same.field State.dr6 fun _ _ _ => rfl

@[simp] theorem State.busWrite_dr6 (s : State) (k : Nat) (as : List Word32) (bs : List Byte) :
    (s.busWrite k as bs).dr6 = s.dr6 := (s.busWrite_same k as bs).field State.dr6 fun _ _ _ => rfl

@[simp] theorem State.busRead_dr6 (s : State) (k : Nat) (as : List Word32) :
    (s.busRead k as).2.dr6 = s.dr6 := (s.busRead_same k as).field State.dr6 fun _ _ _ => rfl

@[simp] theorem State.turned_dr7 (s : State) : s.turned.dr7 = s.dr7 := 
    s.turned_same.field State.dr7 fun _ _ _ => rfl

@[simp] theorem State.busWrite_dr7 (s : State) (k : Nat) (as : List Word32) (bs : List Byte) :
    (s.busWrite k as bs).dr7 = s.dr7 := (s.busWrite_same k as bs).field State.dr7 fun _ _ _ => rfl

@[simp] theorem State.busRead_dr7 (s : State) (k : Nat) (as : List Word32) :
    (s.busRead k as).2.dr7 = s.dr7 := (s.busRead_same k as).field State.dr7 fun _ _ _ => rfl

@[simp] theorem State.turned_tlb (s : State) : s.turned.tlb = s.tlb := 
    s.turned_same.field State.tlb fun _ _ _ => rfl

@[simp] theorem State.busWrite_tlb (s : State) (k : Nat) (as : List Word32) (bs : List Byte) :
    (s.busWrite k as bs).tlb = s.tlb := (s.busWrite_same k as bs).field State.tlb fun _ _ _ => rfl

@[simp] theorem State.busRead_tlb (s : State) (k : Nat) (as : List Word32) :
    (s.busRead k as).2.tlb = s.tlb := (s.busRead_same k as).field State.tlb fun _ _ _ => rfl

@[simp] theorem State.turned_pfx (s : State) : s.turned.pfx = s.pfx := 
    s.turned_same.field State.pfx fun _ _ _ => rfl

@[simp] theorem State.busWrite_pfx (s : State) (k : Nat) (as : List Word32) (bs : List Byte) :
    (s.busWrite k as bs).pfx = s.pfx := (s.busWrite_same k as bs).field State.pfx fun _ _ _ => rfl

@[simp] theorem State.busRead_pfx (s : State) (k : Nat) (as : List Word32) :
    (s.busRead k as).2.pfx = s.pfx := (s.busRead_same k as).field State.pfx fun _ _ _ => rfl

@[simp] theorem State.turned_run (s : State) : s.turned.run = s.run := 
    s.turned_same.field State.run fun _ _ _ => rfl

@[simp] theorem State.busWrite_run (s : State) (k : Nat) (as : List Word32) (bs : List Byte) :
    (s.busWrite k as bs).run = s.run := (s.busWrite_same k as bs).field State.run fun _ _ _ => rfl

@[simp] theorem State.busRead_run (s : State) (k : Nat) (as : List Word32) :
    (s.busRead k as).2.run = s.run := (s.busRead_same k as).field State.run fun _ _ _ => rfl

@[simp] theorem State.turned_shadow (s : State) : s.turned.shadow = s.shadow := 
    s.turned_same.field State.shadow fun _ _ _ => rfl

@[simp] theorem State.busWrite_shadow (s : State) (k : Nat) (as : List Word32) (bs : List Byte) :
    (s.busWrite k as bs).shadow = s.shadow := (s.busWrite_same k as bs).field State.shadow fun _ _ _ => rfl

@[simp] theorem State.busRead_shadow (s : State) (k : Nat) (as : List Word32) :
    (s.busRead k as).2.shadow = s.shadow := (s.busRead_same k as).field State.shadow fun _ _ _ => rfl

@[simp] theorem State.turned_midRep (s : State) : s.turned.midRep = s.midRep := 
    s.turned_same.field State.midRep fun _ _ _ => rfl

@[simp] theorem State.busWrite_midRep (s : State) (k : Nat) (as : List Word32) (bs : List Byte) :
    (s.busWrite k as bs).midRep = s.midRep := (s.busWrite_same k as bs).field State.midRep fun _ _ _ => rfl

@[simp] theorem State.busRead_midRep (s : State) (k : Nat) (as : List Word32) :
    (s.busRead k as).2.midRep = s.midRep := (s.busRead_same k as).field State.midRep fun _ _ _ => rfl

@[simp] theorem State.turned_trap (s : State) : s.turned.trap = s.trap := 
    s.turned_same.field State.trap fun _ _ _ => rfl

@[simp] theorem State.busWrite_trap (s : State) (k : Nat) (as : List Word32) (bs : List Byte) :
    (s.busWrite k as bs).trap = s.trap := (s.busWrite_same k as bs).field State.trap fun _ _ _ => rfl

@[simp] theorem State.busRead_trap (s : State) (k : Nat) (as : List Word32) :
    (s.busRead k as).2.trap = s.trap := (s.busRead_same k as).field State.trap fun _ _ _ => rfl

@[simp] theorem State.turned_pending (s : State) : s.turned.pending = s.pending := 
    s.turned_same.field State.pending fun _ _ _ => rfl

@[simp] theorem State.busWrite_pending (s : State) (k : Nat) (as : List Word32) (bs : List Byte) :
    (s.busWrite k as bs).pending = s.pending := (s.busWrite_same k as bs).field State.pending fun _ _ _ => rfl

@[simp] theorem State.busRead_pending (s : State) (k : Nat) (as : List Word32) :
    (s.busRead k as).2.pending = s.pending := (s.busRead_same k as).field State.pending fun _ _ _ => rfl

@[simp] theorem State.turned_nmiLatch (s : State) : s.turned.nmiLatch = s.nmiLatch := 
    s.turned_same.field State.nmiLatch fun _ _ _ => rfl

@[simp] theorem State.busWrite_nmiLatch (s : State) (k : Nat) (as : List Word32) (bs : List Byte) :
    (s.busWrite k as bs).nmiLatch = s.nmiLatch := (s.busWrite_same k as bs).field State.nmiLatch fun _ _ _ => rfl

@[simp] theorem State.busRead_nmiLatch (s : State) (k : Nat) (as : List Word32) :
    (s.busRead k as).2.nmiLatch = s.nmiLatch := (s.busRead_same k as).field State.nmiLatch fun _ _ _ => rfl

@[simp] theorem State.turned_nmiBlocked (s : State) : s.turned.nmiBlocked = s.nmiBlocked := 
    s.turned_same.field State.nmiBlocked fun _ _ _ => rfl

@[simp] theorem State.busWrite_nmiBlocked (s : State) (k : Nat) (as : List Word32) (bs : List Byte) :
    (s.busWrite k as bs).nmiBlocked = s.nmiBlocked := (s.busWrite_same k as bs).field State.nmiBlocked fun _ _ _ => rfl

@[simp] theorem State.busRead_nmiBlocked (s : State) (k : Nat) (as : List Word32) :
    (s.busRead k as).2.nmiBlocked = s.nmiBlocked := (s.busRead_same k as).field State.nmiBlocked fun _ _ _ => rfl

@[simp] theorem State.turned_pins (s : State) : s.turned.pins = s.pins := 
    s.turned_same.field State.pins fun _ _ _ => rfl

@[simp] theorem State.busWrite_pins (s : State) (k : Nat) (as : List Word32) (bs : List Byte) :
    (s.busWrite k as bs).pins = s.pins := (s.busWrite_same k as bs).field State.pins fun _ _ _ => rfl

@[simp] theorem State.busRead_pins (s : State) (k : Nat) (as : List Word32) :
    (s.busRead k as).2.pins = s.pins := (s.busRead_same k as).field State.pins fun _ _ _ => rfl

@[simp] theorem State.turned_hlda (s : State) : s.turned.hlda = s.hlda := 
    s.turned_same.field State.hlda fun _ _ _ => rfl

@[simp] theorem State.busWrite_hlda (s : State) (k : Nat) (as : List Word32) (bs : List Byte) :
    (s.busWrite k as bs).hlda = s.hlda := (s.busWrite_same k as bs).field State.hlda fun _ _ _ => rfl

@[simp] theorem State.busRead_hlda (s : State) (k : Nat) (as : List Word32) :
    (s.busRead k as).2.hlda = s.hlda := (s.busRead_same k as).field State.hlda fun _ _ _ => rfl

@[simp] theorem State.turned_bus (s : State) : s.turned.bus = s.bus := 
    s.turned_same.field State.bus fun _ _ _ => rfl

@[simp] theorem State.busWrite_bus (s : State) (k : Nat) (as : List Word32) (bs : List Byte) :
    (s.busWrite k as bs).bus = s.bus := (s.busWrite_same k as bs).field State.bus fun _ _ _ => rfl

@[simp] theorem State.busRead_bus (s : State) (k : Nat) (as : List Word32) :
    (s.busRead k as).2.bus = s.bus := (s.busRead_same k as).field State.bus fun _ _ _ => rfl

@[simp] theorem State.turned_cop (s : State) : s.turned.cop = s.cop := 
    s.turned_same.field State.cop fun _ _ _ => rfl

@[simp] theorem State.busWrite_cop (s : State) (k : Nat) (as : List Word32) (bs : List Byte) :
    (s.busWrite k as bs).cop = s.cop := (s.busWrite_same k as bs).field State.cop fun _ _ _ => rfl

@[simp] theorem State.busRead_cop (s : State) (k : Nat) (as : List Word32) :
    (s.busRead k as).2.cop = s.cop := (s.busRead_same k as).field State.cop fun _ _ _ => rfl

@[simp] theorem State.turned_tick (s : State) : s.turned.tick = s.tick := 
    s.turned_same.field State.tick fun _ _ _ => rfl

@[simp] theorem State.busWrite_tick (s : State) (k : Nat) (as : List Word32) (bs : List Byte) :
    (s.busWrite k as bs).tick = s.tick := (s.busWrite_same k as bs).field State.tick fun _ _ _ => rfl

@[simp] theorem State.busRead_tick (s : State) (k : Nat) (as : List Word32) :
    (s.busRead k as).2.tick = s.tick := (s.busRead_same k as).field State.tick fun _ _ _ => rfl

/-! ## checkedWrite, copMoved and copStored -/

@[simp] theorem State.checkedWrite_cfg (s : State) (k : Nat) (la : Word32) (as : List Word32) (bs : List Byte) :
    (s.checkedWrite k la as bs).cfg = s.cfg := by simp [State.checkedWrite]

@[simp] theorem State.checkedWrite_regs (s : State) (k : Nat) (la : Word32) (as : List Word32) (bs : List Byte) :
    (s.checkedWrite k la as bs).regs = s.regs := by simp [State.checkedWrite]

@[simp] theorem State.checkedWrite_eip (s : State) (k : Nat) (la : Word32) (as : List Word32) (bs : List Byte) :
    (s.checkedWrite k la as bs).eip = s.eip := by simp [State.checkedWrite]

@[simp] theorem State.checkedWrite_nextEip (s : State) (k : Nat) (la : Word32) (as : List Word32) (bs : List Byte) :
    (s.checkedWrite k la as bs).nextEip = s.nextEip := by simp [State.checkedWrite]

@[simp] theorem State.checkedWrite_flags (s : State) (k : Nat) (la : Word32) (as : List Word32) (bs : List Byte) :
    (s.checkedWrite k la as bs).flags = s.flags := by simp [State.checkedWrite]

@[simp] theorem State.checkedWrite_es (s : State) (k : Nat) (la : Word32) (as : List Word32) (bs : List Byte) :
    (s.checkedWrite k la as bs).es = s.es := by simp [State.checkedWrite]

@[simp] theorem State.checkedWrite_cs (s : State) (k : Nat) (la : Word32) (as : List Word32) (bs : List Byte) :
    (s.checkedWrite k la as bs).cs = s.cs := by simp [State.checkedWrite]

@[simp] theorem State.checkedWrite_ss (s : State) (k : Nat) (la : Word32) (as : List Word32) (bs : List Byte) :
    (s.checkedWrite k la as bs).ss = s.ss := by simp [State.checkedWrite]

@[simp] theorem State.checkedWrite_ds (s : State) (k : Nat) (la : Word32) (as : List Word32) (bs : List Byte) :
    (s.checkedWrite k la as bs).ds = s.ds := by simp [State.checkedWrite]

@[simp] theorem State.checkedWrite_fs (s : State) (k : Nat) (la : Word32) (as : List Word32) (bs : List Byte) :
    (s.checkedWrite k la as bs).fs = s.fs := by simp [State.checkedWrite]

@[simp] theorem State.checkedWrite_gs (s : State) (k : Nat) (la : Word32) (as : List Word32) (bs : List Byte) :
    (s.checkedWrite k la as bs).gs = s.gs := by simp [State.checkedWrite]

@[simp] theorem State.checkedWrite_gdtr (s : State) (k : Nat) (la : Word32) (as : List Word32) (bs : List Byte) :
    (s.checkedWrite k la as bs).gdtr = s.gdtr := by simp [State.checkedWrite]

@[simp] theorem State.checkedWrite_idtr (s : State) (k : Nat) (la : Word32) (as : List Word32) (bs : List Byte) :
    (s.checkedWrite k la as bs).idtr = s.idtr := by simp [State.checkedWrite]

@[simp] theorem State.checkedWrite_ldtr (s : State) (k : Nat) (la : Word32) (as : List Word32) (bs : List Byte) :
    (s.checkedWrite k la as bs).ldtr = s.ldtr := by simp [State.checkedWrite]

@[simp] theorem State.checkedWrite_tr (s : State) (k : Nat) (la : Word32) (as : List Word32) (bs : List Byte) :
    (s.checkedWrite k la as bs).tr = s.tr := by simp [State.checkedWrite]

@[simp] theorem State.checkedWrite_cpl (s : State) (k : Nat) (la : Word32) (as : List Word32) (bs : List Byte) :
    (s.checkedWrite k la as bs).cpl = s.cpl := by simp [State.checkedWrite]

@[simp] theorem State.checkedWrite_cr0 (s : State) (k : Nat) (la : Word32) (as : List Word32) (bs : List Byte) :
    (s.checkedWrite k la as bs).cr0 = s.cr0 := by simp [State.checkedWrite]

@[simp] theorem State.checkedWrite_cr2 (s : State) (k : Nat) (la : Word32) (as : List Word32) (bs : List Byte) :
    (s.checkedWrite k la as bs).cr2 = s.cr2 := by simp [State.checkedWrite]

@[simp] theorem State.checkedWrite_cr3 (s : State) (k : Nat) (la : Word32) (as : List Word32) (bs : List Byte) :
    (s.checkedWrite k la as bs).cr3 = s.cr3 := by simp [State.checkedWrite]

@[simp] theorem State.checkedWrite_dr0 (s : State) (k : Nat) (la : Word32) (as : List Word32) (bs : List Byte) :
    (s.checkedWrite k la as bs).dr0 = s.dr0 := by simp [State.checkedWrite]

@[simp] theorem State.checkedWrite_dr1 (s : State) (k : Nat) (la : Word32) (as : List Word32) (bs : List Byte) :
    (s.checkedWrite k la as bs).dr1 = s.dr1 := by simp [State.checkedWrite]

@[simp] theorem State.checkedWrite_dr2 (s : State) (k : Nat) (la : Word32) (as : List Word32) (bs : List Byte) :
    (s.checkedWrite k la as bs).dr2 = s.dr2 := by simp [State.checkedWrite]

@[simp] theorem State.checkedWrite_dr3 (s : State) (k : Nat) (la : Word32) (as : List Word32) (bs : List Byte) :
    (s.checkedWrite k la as bs).dr3 = s.dr3 := by simp [State.checkedWrite]

@[simp] theorem State.checkedWrite_dr6 (s : State) (k : Nat) (la : Word32) (as : List Word32) (bs : List Byte) :
    (s.checkedWrite k la as bs).dr6 = s.dr6 := by simp [State.checkedWrite]

@[simp] theorem State.checkedWrite_dr7 (s : State) (k : Nat) (la : Word32) (as : List Word32) (bs : List Byte) :
    (s.checkedWrite k la as bs).dr7 = s.dr7 := by simp [State.checkedWrite]

@[simp] theorem State.checkedWrite_tlb (s : State) (k : Nat) (la : Word32) (as : List Word32) (bs : List Byte) :
    (s.checkedWrite k la as bs).tlb = s.tlb := by simp [State.checkedWrite]

@[simp] theorem State.checkedWrite_pfx (s : State) (k : Nat) (la : Word32) (as : List Word32) (bs : List Byte) :
    (s.checkedWrite k la as bs).pfx = s.pfx := by simp [State.checkedWrite]

@[simp] theorem State.checkedWrite_run (s : State) (k : Nat) (la : Word32) (as : List Word32) (bs : List Byte) :
    (s.checkedWrite k la as bs).run = s.run := by simp [State.checkedWrite]

@[simp] theorem State.checkedWrite_shadow (s : State) (k : Nat) (la : Word32) (as : List Word32) (bs : List Byte) :
    (s.checkedWrite k la as bs).shadow = s.shadow := by simp [State.checkedWrite]

@[simp] theorem State.checkedWrite_midRep (s : State) (k : Nat) (la : Word32) (as : List Word32) (bs : List Byte) :
    (s.checkedWrite k la as bs).midRep = s.midRep := by simp [State.checkedWrite]

@[simp] theorem State.checkedWrite_pending (s : State) (k : Nat) (la : Word32) (as : List Word32) (bs : List Byte) :
    (s.checkedWrite k la as bs).pending = s.pending := by simp [State.checkedWrite]

@[simp] theorem State.checkedWrite_nmiLatch (s : State) (k : Nat) (la : Word32) (as : List Word32) (bs : List Byte) :
    (s.checkedWrite k la as bs).nmiLatch = s.nmiLatch := by simp [State.checkedWrite]

@[simp] theorem State.checkedWrite_nmiBlocked (s : State) (k : Nat) (la : Word32) (as : List Word32) (bs : List Byte) :
    (s.checkedWrite k la as bs).nmiBlocked = s.nmiBlocked := by simp [State.checkedWrite]

@[simp] theorem State.checkedWrite_pins (s : State) (k : Nat) (la : Word32) (as : List Word32) (bs : List Byte) :
    (s.checkedWrite k la as bs).pins = s.pins := by simp [State.checkedWrite]

@[simp] theorem State.checkedWrite_hlda (s : State) (k : Nat) (la : Word32) (as : List Word32) (bs : List Byte) :
    (s.checkedWrite k la as bs).hlda = s.hlda := by simp [State.checkedWrite]

@[simp] theorem State.checkedWrite_bus (s : State) (k : Nat) (la : Word32) (as : List Word32) (bs : List Byte) :
    (s.checkedWrite k la as bs).bus = s.bus := by simp [State.checkedWrite]

@[simp] theorem State.checkedWrite_cop (s : State) (k : Nat) (la : Word32) (as : List Word32) (bs : List Byte) :
    (s.checkedWrite k la as bs).cop = s.cop := by simp [State.checkedWrite]

@[simp] theorem State.checkedWrite_tick (s : State) (k : Nat) (la : Word32) (as : List Word32) (bs : List Byte) :
    (s.checkedWrite k la as bs).tick = s.tick := by simp [State.checkedWrite]

@[simp] theorem State.copMoved_cfg (s : State) (f : List Byte → BusEvent) (bs : List Byte) :
    (s.copMoved f bs).cfg = s.cfg := rfl

@[simp] theorem State.copMoved_regs (s : State) (f : List Byte → BusEvent) (bs : List Byte) :
    (s.copMoved f bs).regs = s.regs := rfl

@[simp] theorem State.copMoved_eip (s : State) (f : List Byte → BusEvent) (bs : List Byte) :
    (s.copMoved f bs).eip = s.eip := rfl

@[simp] theorem State.copMoved_nextEip (s : State) (f : List Byte → BusEvent) (bs : List Byte) :
    (s.copMoved f bs).nextEip = s.nextEip := rfl

@[simp] theorem State.copMoved_flags (s : State) (f : List Byte → BusEvent) (bs : List Byte) :
    (s.copMoved f bs).flags = s.flags := rfl

@[simp] theorem State.copMoved_es (s : State) (f : List Byte → BusEvent) (bs : List Byte) :
    (s.copMoved f bs).es = s.es := rfl

@[simp] theorem State.copMoved_cs (s : State) (f : List Byte → BusEvent) (bs : List Byte) :
    (s.copMoved f bs).cs = s.cs := rfl

@[simp] theorem State.copMoved_ss (s : State) (f : List Byte → BusEvent) (bs : List Byte) :
    (s.copMoved f bs).ss = s.ss := rfl

@[simp] theorem State.copMoved_ds (s : State) (f : List Byte → BusEvent) (bs : List Byte) :
    (s.copMoved f bs).ds = s.ds := rfl

@[simp] theorem State.copMoved_fs (s : State) (f : List Byte → BusEvent) (bs : List Byte) :
    (s.copMoved f bs).fs = s.fs := rfl

@[simp] theorem State.copMoved_gs (s : State) (f : List Byte → BusEvent) (bs : List Byte) :
    (s.copMoved f bs).gs = s.gs := rfl

@[simp] theorem State.copMoved_gdtr (s : State) (f : List Byte → BusEvent) (bs : List Byte) :
    (s.copMoved f bs).gdtr = s.gdtr := rfl

@[simp] theorem State.copMoved_idtr (s : State) (f : List Byte → BusEvent) (bs : List Byte) :
    (s.copMoved f bs).idtr = s.idtr := rfl

@[simp] theorem State.copMoved_ldtr (s : State) (f : List Byte → BusEvent) (bs : List Byte) :
    (s.copMoved f bs).ldtr = s.ldtr := rfl

@[simp] theorem State.copMoved_tr (s : State) (f : List Byte → BusEvent) (bs : List Byte) :
    (s.copMoved f bs).tr = s.tr := rfl

@[simp] theorem State.copMoved_cpl (s : State) (f : List Byte → BusEvent) (bs : List Byte) :
    (s.copMoved f bs).cpl = s.cpl := rfl

@[simp] theorem State.copMoved_cr0 (s : State) (f : List Byte → BusEvent) (bs : List Byte) :
    (s.copMoved f bs).cr0 = s.cr0 := rfl

@[simp] theorem State.copMoved_cr2 (s : State) (f : List Byte → BusEvent) (bs : List Byte) :
    (s.copMoved f bs).cr2 = s.cr2 := rfl

@[simp] theorem State.copMoved_cr3 (s : State) (f : List Byte → BusEvent) (bs : List Byte) :
    (s.copMoved f bs).cr3 = s.cr3 := rfl

@[simp] theorem State.copMoved_dr0 (s : State) (f : List Byte → BusEvent) (bs : List Byte) :
    (s.copMoved f bs).dr0 = s.dr0 := rfl

@[simp] theorem State.copMoved_dr1 (s : State) (f : List Byte → BusEvent) (bs : List Byte) :
    (s.copMoved f bs).dr1 = s.dr1 := rfl

@[simp] theorem State.copMoved_dr2 (s : State) (f : List Byte → BusEvent) (bs : List Byte) :
    (s.copMoved f bs).dr2 = s.dr2 := rfl

@[simp] theorem State.copMoved_dr3 (s : State) (f : List Byte → BusEvent) (bs : List Byte) :
    (s.copMoved f bs).dr3 = s.dr3 := rfl

@[simp] theorem State.copMoved_dr6 (s : State) (f : List Byte → BusEvent) (bs : List Byte) :
    (s.copMoved f bs).dr6 = s.dr6 := rfl

@[simp] theorem State.copMoved_dr7 (s : State) (f : List Byte → BusEvent) (bs : List Byte) :
    (s.copMoved f bs).dr7 = s.dr7 := rfl

@[simp] theorem State.copMoved_tlb (s : State) (f : List Byte → BusEvent) (bs : List Byte) :
    (s.copMoved f bs).tlb = s.tlb := rfl

@[simp] theorem State.copMoved_stale (s : State) (f : List Byte → BusEvent) (bs : List Byte) :
    (s.copMoved f bs).stale = s.stale := rfl

@[simp] theorem State.copMoved_pfx (s : State) (f : List Byte → BusEvent) (bs : List Byte) :
    (s.copMoved f bs).pfx = s.pfx := rfl

@[simp] theorem State.copMoved_run (s : State) (f : List Byte → BusEvent) (bs : List Byte) :
    (s.copMoved f bs).run = s.run := rfl

@[simp] theorem State.copMoved_shadow (s : State) (f : List Byte → BusEvent) (bs : List Byte) :
    (s.copMoved f bs).shadow = s.shadow := rfl

@[simp] theorem State.copMoved_midRep (s : State) (f : List Byte → BusEvent) (bs : List Byte) :
    (s.copMoved f bs).midRep = s.midRep := rfl

@[simp] theorem State.copMoved_trap (s : State) (f : List Byte → BusEvent) (bs : List Byte) :
    (s.copMoved f bs).trap = s.trap := rfl

@[simp] theorem State.copMoved_pending (s : State) (f : List Byte → BusEvent) (bs : List Byte) :
    (s.copMoved f bs).pending = s.pending := rfl

@[simp] theorem State.copMoved_nmiLatch (s : State) (f : List Byte → BusEvent) (bs : List Byte) :
    (s.copMoved f bs).nmiLatch = s.nmiLatch := rfl

@[simp] theorem State.copMoved_nmiBlocked (s : State) (f : List Byte → BusEvent) (bs : List Byte) :
    (s.copMoved f bs).nmiBlocked = s.nmiBlocked := rfl

@[simp] theorem State.copMoved_pins (s : State) (f : List Byte → BusEvent) (bs : List Byte) :
    (s.copMoved f bs).pins = s.pins := rfl

@[simp] theorem State.copMoved_hlda (s : State) (f : List Byte → BusEvent) (bs : List Byte) :
    (s.copMoved f bs).hlda = s.hlda := rfl

@[simp] theorem State.copMoved_cop (s : State) (f : List Byte → BusEvent) (bs : List Byte) :
    (s.copMoved f bs).cop = s.cop := rfl

@[simp] theorem State.copMoved_mem (s : State) (f : List Byte → BusEvent) (bs : List Byte) :
    (s.copMoved f bs).mem = s.mem := rfl

@[simp] theorem State.copMoved_masters (s : State) (f : List Byte → BusEvent) (bs : List Byte) :
    (s.copMoved f bs).masters = s.masters := rfl

@[simp] theorem State.copMoved_tick (s : State) (f : List Byte → BusEvent) (bs : List Byte) :
    (s.copMoved f bs).tick = s.tick := rfl

@[simp] theorem State.copStored_cfg (s : State) : s.copStored.cfg = s.cfg := by
  unfold State.copStored
  split <;> simp

@[simp] theorem State.copStored_regs (s : State) : s.copStored.regs = s.regs := by
  unfold State.copStored
  split <;> simp

@[simp] theorem State.copStored_eip (s : State) : s.copStored.eip = s.eip := by
  unfold State.copStored
  split <;> simp

@[simp] theorem State.copStored_nextEip (s : State) : s.copStored.nextEip = s.nextEip := by
  unfold State.copStored
  split <;> simp

@[simp] theorem State.copStored_flags (s : State) : s.copStored.flags = s.flags := by
  unfold State.copStored
  split <;> simp

@[simp] theorem State.copStored_es (s : State) : s.copStored.es = s.es := by
  unfold State.copStored
  split <;> simp

@[simp] theorem State.copStored_cs (s : State) : s.copStored.cs = s.cs := by
  unfold State.copStored
  split <;> simp

@[simp] theorem State.copStored_ss (s : State) : s.copStored.ss = s.ss := by
  unfold State.copStored
  split <;> simp

@[simp] theorem State.copStored_ds (s : State) : s.copStored.ds = s.ds := by
  unfold State.copStored
  split <;> simp

@[simp] theorem State.copStored_fs (s : State) : s.copStored.fs = s.fs := by
  unfold State.copStored
  split <;> simp

@[simp] theorem State.copStored_gs (s : State) : s.copStored.gs = s.gs := by
  unfold State.copStored
  split <;> simp

@[simp] theorem State.copStored_gdtr (s : State) : s.copStored.gdtr = s.gdtr := by
  unfold State.copStored
  split <;> simp

@[simp] theorem State.copStored_idtr (s : State) : s.copStored.idtr = s.idtr := by
  unfold State.copStored
  split <;> simp

@[simp] theorem State.copStored_ldtr (s : State) : s.copStored.ldtr = s.ldtr := by
  unfold State.copStored
  split <;> simp

@[simp] theorem State.copStored_tr (s : State) : s.copStored.tr = s.tr := by
  unfold State.copStored
  split <;> simp

@[simp] theorem State.copStored_cpl (s : State) : s.copStored.cpl = s.cpl := by
  unfold State.copStored
  split <;> simp

@[simp] theorem State.copStored_cr0 (s : State) : s.copStored.cr0 = s.cr0 := by
  unfold State.copStored
  split <;> simp

@[simp] theorem State.copStored_cr2 (s : State) : s.copStored.cr2 = s.cr2 := by
  unfold State.copStored
  split <;> simp

@[simp] theorem State.copStored_cr3 (s : State) : s.copStored.cr3 = s.cr3 := by
  unfold State.copStored
  split <;> simp

@[simp] theorem State.copStored_dr0 (s : State) : s.copStored.dr0 = s.dr0 := by
  unfold State.copStored
  split <;> simp

@[simp] theorem State.copStored_dr1 (s : State) : s.copStored.dr1 = s.dr1 := by
  unfold State.copStored
  split <;> simp

@[simp] theorem State.copStored_dr2 (s : State) : s.copStored.dr2 = s.dr2 := by
  unfold State.copStored
  split <;> simp

@[simp] theorem State.copStored_dr3 (s : State) : s.copStored.dr3 = s.dr3 := by
  unfold State.copStored
  split <;> simp

@[simp] theorem State.copStored_dr6 (s : State) : s.copStored.dr6 = s.dr6 := by
  unfold State.copStored
  split <;> simp

@[simp] theorem State.copStored_dr7 (s : State) : s.copStored.dr7 = s.dr7 := by
  unfold State.copStored
  split <;> simp

@[simp] theorem State.copStored_tlb (s : State) : s.copStored.tlb = s.tlb := by
  unfold State.copStored
  split <;> simp

@[simp] theorem State.copStored_pfx (s : State) : s.copStored.pfx = s.pfx := by
  unfold State.copStored
  split <;> simp

@[simp] theorem State.copStored_run (s : State) : s.copStored.run = s.run := by
  unfold State.copStored
  split <;> simp

@[simp] theorem State.copStored_shadow (s : State) : s.copStored.shadow = s.shadow := by
  unfold State.copStored
  split <;> simp

@[simp] theorem State.copStored_midRep (s : State) : s.copStored.midRep = s.midRep := by
  unfold State.copStored
  split <;> simp

@[simp] theorem State.copStored_pending (s : State) : s.copStored.pending = s.pending := by
  unfold State.copStored
  split <;> simp

@[simp] theorem State.copStored_nmiLatch (s : State) : s.copStored.nmiLatch = s.nmiLatch := by
  unfold State.copStored
  split <;> simp

@[simp] theorem State.copStored_nmiBlocked (s : State) : s.copStored.nmiBlocked = s.nmiBlocked := by
  unfold State.copStored
  split <;> simp

@[simp] theorem State.copStored_pins (s : State) : s.copStored.pins = s.pins := by
  unfold State.copStored
  split <;> simp

@[simp] theorem State.copStored_hlda (s : State) : s.copStored.hlda = s.hlda := by
  unfold State.copStored
  split <;> simp

@[simp] theorem State.copStored_tick (s : State) : s.copStored.tick = s.tick := by
  unfold State.copStored
  split <;> simp

/-- What a late store can do: nothing when none is due, else it writes the coprocessor's bytes and notes the access. -/
theorem State.copStored_cases (s : State) : (s.cop.due = none ∧ s.copStored = s) ∨
    ∃ d, s.cop.due = some d ∧ s.copStored =
      (({ s with cop := { s.cop with due := none } } : State).copMoved .copGet (s.copBytes d.addrs.length)).checkedWrite
        s.copItem d.la d.addrs (s.copBytes d.addrs.length) := by
  unfold State.copStored
  split
  · exact .inl ⟨‹_›, rfl⟩
  · exact .inr ⟨_, ‹_›, rfl⟩

/-! ## retire -/

@[simp] theorem retire_cfg (s t : State) (r : Retire) : (retire s t r).cfg = t.cfg := rfl

@[simp] theorem retire_regs (s t : State) (r : Retire) : (retire s t r).regs = t.regs := rfl

@[simp] theorem retire_nextEip (s t : State) (r : Retire) : (retire s t r).nextEip = t.nextEip := rfl

@[simp] theorem retire_es (s t : State) (r : Retire) : (retire s t r).es = t.es := rfl

@[simp] theorem retire_cs (s t : State) (r : Retire) : (retire s t r).cs = t.cs := rfl

@[simp] theorem retire_ss (s t : State) (r : Retire) : (retire s t r).ss = t.ss := rfl

@[simp] theorem retire_ds (s t : State) (r : Retire) : (retire s t r).ds = t.ds := rfl

@[simp] theorem retire_fs (s t : State) (r : Retire) : (retire s t r).fs = t.fs := rfl

@[simp] theorem retire_gs (s t : State) (r : Retire) : (retire s t r).gs = t.gs := rfl

@[simp] theorem retire_gdtr (s t : State) (r : Retire) : (retire s t r).gdtr = t.gdtr := rfl

@[simp] theorem retire_idtr (s t : State) (r : Retire) : (retire s t r).idtr = t.idtr := rfl

@[simp] theorem retire_ldtr (s t : State) (r : Retire) : (retire s t r).ldtr = t.ldtr := rfl

@[simp] theorem retire_tr (s t : State) (r : Retire) : (retire s t r).tr = t.tr := rfl

@[simp] theorem retire_cpl (s t : State) (r : Retire) : (retire s t r).cpl = t.cpl := rfl

@[simp] theorem retire_cr0 (s t : State) (r : Retire) : (retire s t r).cr0 = t.cr0 := rfl

@[simp] theorem retire_cr2 (s t : State) (r : Retire) : (retire s t r).cr2 = t.cr2 := rfl

@[simp] theorem retire_cr3 (s t : State) (r : Retire) : (retire s t r).cr3 = t.cr3 := rfl

@[simp] theorem retire_dr0 (s t : State) (r : Retire) : (retire s t r).dr0 = t.dr0 := rfl

@[simp] theorem retire_dr1 (s t : State) (r : Retire) : (retire s t r).dr1 = t.dr1 := rfl

@[simp] theorem retire_dr2 (s t : State) (r : Retire) : (retire s t r).dr2 = t.dr2 := rfl

@[simp] theorem retire_dr3 (s t : State) (r : Retire) : (retire s t r).dr3 = t.dr3 := rfl

@[simp] theorem retire_dr6 (s t : State) (r : Retire) : (retire s t r).dr6 = t.dr6 := rfl

@[simp] theorem retire_dr7 (s t : State) (r : Retire) : (retire s t r).dr7 = t.dr7 := rfl

@[simp] theorem retire_tlb (s t : State) (r : Retire) : (retire s t r).tlb = t.tlb := rfl

@[simp] theorem retire_stale (s t : State) (r : Retire) : (retire s t r).stale = t.stale := rfl

@[simp] theorem retire_run (s t : State) (r : Retire) : (retire s t r).run = t.run := rfl

@[simp] theorem retire_pending (s t : State) (r : Retire) : (retire s t r).pending = t.pending := rfl

@[simp] theorem retire_nmiLatch (s t : State) (r : Retire) : (retire s t r).nmiLatch = t.nmiLatch := rfl

@[simp] theorem retire_nmiBlocked (s t : State) (r : Retire) : (retire s t r).nmiBlocked = t.nmiBlocked := rfl

@[simp] theorem retire_pins (s t : State) (r : Retire) : (retire s t r).pins = t.pins := rfl

@[simp] theorem retire_hlda (s t : State) (r : Retire) : (retire s t r).hlda = t.hlda := rfl

@[simp] theorem retire_bus (s t : State) (r : Retire) : (retire s t r).bus = t.bus := rfl

@[simp] theorem retire_cop (s t : State) (r : Retire) : (retire s t r).cop = t.cop := rfl

@[simp] theorem retire_mem (s t : State) (r : Retire) : (retire s t r).mem = t.mem := rfl

@[simp] theorem retire_masters (s t : State) (r : Retire) : (retire s t r).masters = t.masters := rfl

@[simp] theorem retire_tick (s t : State) (r : Retire) : (retire s t r).tick = t.tick := rfl

/-! ## rollback -/

@[simp] theorem State.rollback_cfg (s t : State) : (s.rollback t).cfg = s.cfg := rfl

@[simp] theorem State.rollback_regs (s t : State) : (s.rollback t).regs = s.regs := rfl

@[simp] theorem State.rollback_eip (s t : State) : (s.rollback t).eip = s.eip := rfl

@[simp] theorem State.rollback_nextEip (s t : State) : (s.rollback t).nextEip = s.nextEip := rfl

@[simp] theorem State.rollback_flags (s t : State) : (s.rollback t).flags = s.flags := rfl

@[simp] theorem State.rollback_es (s t : State) : (s.rollback t).es = s.es := rfl

@[simp] theorem State.rollback_cs (s t : State) : (s.rollback t).cs = s.cs := rfl

@[simp] theorem State.rollback_ss (s t : State) : (s.rollback t).ss = s.ss := rfl

@[simp] theorem State.rollback_ds (s t : State) : (s.rollback t).ds = s.ds := rfl

@[simp] theorem State.rollback_fs (s t : State) : (s.rollback t).fs = s.fs := rfl

@[simp] theorem State.rollback_gs (s t : State) : (s.rollback t).gs = s.gs := rfl

@[simp] theorem State.rollback_gdtr (s t : State) : (s.rollback t).gdtr = s.gdtr := rfl

@[simp] theorem State.rollback_idtr (s t : State) : (s.rollback t).idtr = s.idtr := rfl

@[simp] theorem State.rollback_ldtr (s t : State) : (s.rollback t).ldtr = s.ldtr := rfl

@[simp] theorem State.rollback_tr (s t : State) : (s.rollback t).tr = s.tr := rfl

@[simp] theorem State.rollback_cpl (s t : State) : (s.rollback t).cpl = s.cpl := rfl

@[simp] theorem State.rollback_cr0 (s t : State) : (s.rollback t).cr0 = s.cr0 := rfl

@[simp] theorem State.rollback_cr2 (s t : State) : (s.rollback t).cr2 = t.cr2 := rfl

@[simp] theorem State.rollback_cr3 (s t : State) : (s.rollback t).cr3 = s.cr3 := rfl

@[simp] theorem State.rollback_dr0 (s t : State) : (s.rollback t).dr0 = s.dr0 := rfl

@[simp] theorem State.rollback_dr1 (s t : State) : (s.rollback t).dr1 = s.dr1 := rfl

@[simp] theorem State.rollback_dr2 (s t : State) : (s.rollback t).dr2 = s.dr2 := rfl

@[simp] theorem State.rollback_dr3 (s t : State) : (s.rollback t).dr3 = s.dr3 := rfl

@[simp] theorem State.rollback_dr6 (s t : State) : (s.rollback t).dr6 = t.dr6 := rfl

@[simp] theorem State.rollback_dr7 (s t : State) : (s.rollback t).dr7 = t.dr7 := rfl

@[simp] theorem State.rollback_tlb (s t : State) : (s.rollback t).tlb = t.tlb := rfl

@[simp] theorem State.rollback_stale (s t : State) : (s.rollback t).stale = t.stale := rfl

@[simp] theorem State.rollback_pfx (s t : State) : (s.rollback t).pfx = s.pfx := rfl

@[simp] theorem State.rollback_run (s t : State) : (s.rollback t).run = s.run := rfl

@[simp] theorem State.rollback_shadow (s t : State) : (s.rollback t).shadow = s.shadow := rfl

@[simp] theorem State.rollback_midRep (s t : State) : (s.rollback t).midRep = s.midRep := rfl

@[simp] theorem State.rollback_trap (s t : State) : (s.rollback t).trap = s.trap := rfl

@[simp] theorem State.rollback_pending (s t : State) : (s.rollback t).pending = s.pending := rfl

@[simp] theorem State.rollback_nmiLatch (s t : State) : (s.rollback t).nmiLatch = s.nmiLatch := rfl

@[simp] theorem State.rollback_nmiBlocked (s t : State) : (s.rollback t).nmiBlocked = s.nmiBlocked := rfl

@[simp] theorem State.rollback_pins (s t : State) : (s.rollback t).pins = s.pins := rfl

@[simp] theorem State.rollback_hlda (s t : State) : (s.rollback t).hlda = s.hlda := rfl

@[simp] theorem State.rollback_bus (s t : State) : (s.rollback t).bus = t.bus := rfl

@[simp] theorem State.rollback_cop (s t : State) : (s.rollback t).cop = s.cop := rfl

@[simp] theorem State.rollback_mem (s t : State) : (s.rollback t).mem = t.mem := rfl

@[simp] theorem State.rollback_masters (s t : State) : (s.rollback t).masters = t.masters := rfl

@[simp] theorem State.rollback_tick (s t : State) : (s.rollback t).tick = s.tick := rfl

end Sys2Proof.Machine
end

