-- ==== Sys2Proof/Laws/Access.lean ====
section
/-!
SUPPORT. What a stored byte reads back as, and what the accesses do when paging is off: one equation per operation of
Access.lean and Operands.lean.
-/
namespace Sys2Proof.Machine

@[simp] theorem byteAddrs_length (la : Word32) (n : Nat) : (byteAddrs la n).length = n := by simp [byteAddrs]

@[simp] theorem bytesOfNat_length (n v : Nat) : (bytesOfNat n v).length = n := by
  induction n generalizing v with
  | zero => rfl
  | succ n ih => simp [bytesOfNat, ih]

@[simp] theorem bytesOf_length (w : Width) (v : BitVec w.bits) : (bytesOf w v).length = w.bytes := by simp [bytesOf]

/-! ## Stored bytes -/

/-- What a byte reads as after a store of one byte, where memory has its canonical form. -/
theorem physByte_setPhysByte {s : State} (hm : Memory.wf s.mem = true) (a c : Word32) (b : Byte) :
    (s.setPhysByte a b).physByte c = if c = a then b else s.physByte c := by
  by_cases h : c = a
  · subst c
    rw [if_pos rfl]
    exact memRead_memWrite_same s.mem a.toNat b hm
  · rw [if_neg h]
    exact memRead_memWrite_other s.mem a.toNat c.toNat b fun e => h (BitVec.eq_of_toNat_eq e)

theorem setPhysByte_wf {s : State} (hm : Memory.wf s.mem = true) (a : Word32) (b : Byte) :
    Memory.wf (s.setPhysByte a b).mem = true := memWrite_wf s.mem a.toNat b a.isLt hm

theorem setPhysBytes_wf {s : State} (hm : Memory.wf s.mem = true) (as : List Word32) (bs : List Byte) :
    Memory.wf (s.setPhysBytes as bs).mem = true := by
  induction as generalizing s bs with
  | nil => exact hm
  | cons a as ih =>
    cases bs with
    | nil => exact hm
    | cons b bs => exact ih (setPhysByte_wf hm a b) bs

/-- A turn of the other masters keeps the canonical form. -/
theorem turned_wf {s : State} (hm : Memory.wf s.mem = true) : Memory.wf s.turned.mem = true := by
  unfold State.turned
  split
  · exact hm
  · rename_i g gs _
    exact setPhysBytes_wf (s := { s with masters := gs }) hm _ _

/-- A store leaves every byte alone whose address is not in its list, whatever memory is. -/
theorem physByte_setPhysBytes_other (s : State) (as : List Word32) (bs : List Byte) (c : Word32) (hc : c ∉ as) :
    (s.setPhysBytes as bs).physByte c = s.physByte c := by
  induction as generalizing s bs with
  | nil => rfl
  | cons a as ih =>
    cases bs with
    | nil => rfl
    | cons b bs =>
      obtain ⟨hca, hcs⟩ := not_or.mp (mt List.mem_cons.mpr hc)
      rw [State.setPhysBytes, ih _ _ hcs]
      exact memRead_memWrite_other s.mem a.toNat c.toNat b fun e => hca (BitVec.eq_of_toNat_eq e)

/-! ## The pieces of an access -/

/-- The pieces of a list, one after the other, are the list. -/
theorem piecesOf_flatten {α : Type} {k : Nat} (hk : 0 < k) (fuel : Nat) (l : List α) (h : l.length ≤ fuel) :
    (piecesOf k fuel l).flatten = l := by
  induction fuel generalizing l with
  | zero => simp [List.length_eq_zero_iff.mp (Nat.le_zero.mp h), piecesOf]
  | succ n ih =>
    unfold piecesOf
    split
    · simp_all
    · rw [List.flatten_cons, ih _ (by simp; omega), List.take_append_drop]

/-- The first piece of a list that begins with `k` elements. -/
theorem piecesOf_append {α : Type} {k : Nat} (hk : 0 < k) (fuel : Nat) (a b : List α) (ha : a.length = k) :
    piecesOf k (fuel + 1) (a ++ b) = a :: piecesOf k fuel b := by
  have hne : (a ++ b).isEmpty = false := by
    cases a with
    | nil => simp at ha; omega
    | cons => rfl
  simp [piecesOf, hne, ← ha]

@[simp] theorem linear_seg_setPhysBytes (s : State) (as : List Word32) (bs : List Byte) (r : SReg) :
    (s.setPhysBytes as bs).seg r = s.seg r := by cases r <;> simp [State.seg]

@[simp] theorem seg_noteAccess (s : State) (la : Word32) (n : Nat) (w : Bool) (r : SReg) :
    (s.noteAccess la n w).seg r = s.seg r := by cases r <;> rfl

@[simp] theorem seg_afterLoad (s : State) (r q : SReg) (off : Word32) (n : Nat) :
    (s.afterLoad r off n).seg q = s.seg q := by simp [State.afterLoad]

@[simp] theorem seg_afterStore (s : State) (r q : SReg) (off : Word32) (bs : List Byte) :
    (s.afterStore r off bs).seg q = s.seg q := by simp [State.afterStore]

theorem segCheck_run {s : State} {r : SReg} {off : Word32} {n : Nat} {w : Bool} (h : s.segAllows r off n w = true) :
    segCheck r off n w s = .ok () s := by
  simp only [State.segAllows, Bool.and_eq_true] at h
  obtain ⟨⟨h1, h2⟩, h3⟩ := h
  simp [segCheck, M_bind, h1, h2, h3]

theorem translate_flat {s : State} (h : s.cr0.pg = false) (la : Word32) (w u : Bool) :
    translate la w u s = .ok la s := by simp [translate, h]

theorem translateRange_flat {s : State} (h : s.cr0.pg = false) (la : Word32) (n : Nat) (w u : Bool) :
    translateRange la n w u s = .ok (byteAddrs la n) s := by
  unfold translateRange
  simp only [M_bind, translate_flat h]
  split
  · rfl
  · simp only [M_bind, translate_flat h, M_pure, byteAddrs]
    congr 1
    apply List.map_congr_left
    intro k _
    split
    · rfl
    · rename_i hk
      rw [BitVec.add_assoc, ← BitVec.ofNat_add, Nat.add_sub_cancel' (by omega)]

theorem canAccess_pg {s : State} {r : SReg} {off : Word32} {n : Nat} {w : Bool} (h : s.canAccess r off n w = true) :
    s.cr0.pg = false := by
  simp only [State.canAccess, State.flat, Bool.and_eq_true, Bool.not_eq_true'] at h
  exact h.1.1

theorem canAccess_masters {s : State} {r : SReg} {off : Word32} {n : Nat} {w : Bool}
    (h : s.canAccess r off n w = true) : s.masters = [] := by
  simp only [State.canAccess, State.flat, Bool.and_eq_true, List.isEmpty_iff] at h
  exact h.1.2

theorem canAccess_seg {s : State} {r : SReg} {off : Word32} {n : Nat} {w : Bool} (h : s.canAccess r off n w = true) :
    s.segAllows r off n w = true := by
  simp only [State.canAccess, Bool.and_eq_true] at h
  exact h.2

/-- A read by the processor itself. -/
theorem linRead_flat {s : State} (h : s.cr0.pg = false) (hm : s.masters = []) (la : Word32) (n : Nat) (u : Bool) :
    linRead la n u s = .ok ((byteAddrs la n).map s.physByte) s := by
  simp only [linRead, M_bind, translateRange_flat h, M_modifyGet, State.busRead_alone hm]

/-- A write by the processor itself. -/
theorem linWrite_flat {s : State} (h : s.cr0.pg = false) (hm : s.masters = []) (la : Word32) (bs : List Byte) (u : Bool) :
    linWrite la bs u s = .ok () (s.setPhysBytes (byteAddrs la bs.length) bs) := by
  simp only [linWrite, M_bind, translateRange_flat h, M_modify, State.busWrite_alone hm]

/-- The physical addresses of an operand. -/
theorem accessAddrs_flat {s : State} {r : SReg} {off : Word32} {n : Nat} {w : Bool}
    (h : s.canAccess r off n w = true) : accessAddrs r off n w s = .ok (byteAddrs (linear (s.seg r) off) n) s := by
  simp only [accessAddrs, M_bind, segCheck_run (canAccess_seg h), M_get, translateRange_flat (canAccess_pg h)]

/-- The read of an operand that has been checked. -/
theorem readChecked_flat {s : State} (hm : s.masters = []) (k : Nat) (la : Word32) (as : List Word32) :
    readChecked k la as s = .ok (as.map s.physByte) (s.noteAccess la as.length false) := by
  simp only [readChecked, M_bind, M_modifyGet, State.busRead_alone hm, M_modify, M_pure]

/-- The write of an operand that has been checked. -/
theorem writeChecked_flat {s : State} (hm : s.masters = []) (k : Nat) (la : Word32) (as : List Word32) (bs : List Byte) :
    writeChecked k la as bs s = .ok () ((s.setPhysBytes as bs).noteAccess la bs.length true) := by
  simp only [writeChecked, State.checkedWrite, M_modify, State.busWrite_alone hm]

/-- `LRead` of bytes. -/
theorem lreadBytes_flat {s : State} {r : SReg} {off : Word32} {n : Nat} (h : s.canAccess r off n false = true) :
    lreadBytes r off n s = .ok (s.operandBytes r off n) (s.afterLoad r off n) := by
  simp only [lreadBytes, M_bind, M_get, accessAddrs_flat h, readChecked_flat (canAccess_masters h), byteAddrs_length,
    State.operandBytes, State.afterLoad]

/-- `LRead`. -/
theorem lread_flat {s : State} {w : Width} {r : SReg} {off : Word32} (h : s.canAccess r off w.bytes false = true) :
    lread w r off s = .ok (s.operand w r off) (s.afterLoad r off w.bytes) := by
  simp only [lread, M_bind, lreadBytes_flat h, M_pure, State.operand]

/-- `LWrite` of bytes. -/
theorem lwriteBytes_flat {s : State} {r : SReg} {off : Word32} {bs : List Byte}
    (h : s.canAccess r off bs.length true = true) : lwriteBytes r off bs s = .ok () (s.afterStore r off bs) := by
  simp only [lwriteBytes, M_bind, M_get, accessAddrs_flat h, writeChecked_flat (canAccess_masters h), State.afterStore]

/-- `LWrite`. -/
theorem lwrite_flat {s : State} {w : Width} {r : SReg} {off : Word32} (v : BitVec w.bits)
    (h : s.canAccess r off w.bytes true = true) : lwrite w r off v s = .ok () (s.afterStore r off (bytesOf w v)) :=
  lwriteBytes_flat (by simpa using h)

/-- The checks of an access. -/
theorem checkAccess_flat {s : State} {r : SReg} {off : Word32} {n : Nat} {w : Bool}
    (h : s.canAccess r off n w = true) : checkAccess r off n w s = .ok () s := by
  simp only [checkAccess, M_bind, accessAddrs_flat h, M_pure]

/-- The frame of a return lies on the stack. -/
theorem requireHeld_run {s : State} {sp : Word32} {n : Nat} (h : s.segAllows .ss sp n false = true) :
    requireHeld sp n s = .ok () s := segCheck_run h

@[simp] theorem getReg_run (w : Width) (r : Fin 8) (s : State) : getReg w r s = .ok (s.reg w r) s := rfl

@[simp] theorem putReg_run (w : Width) (r : Fin 8) (v : BitVec w.bits) (s : State) :
    putReg w r v s = .ok () (s.setReg w r v) := rfl

@[simp] theorem putFlags_run (f : EFlags) (s : State) : putFlags f s = .ok () (s.withFlags f) := rfl

theorem readLoc_flat {s : State} {w : Width} {l : Loc} (h : s.readable w l = true) :
    readLoc w l s = .ok (s.valueAt w l) (s.afterRead w l) := by
  cases l with
  | reg r => rfl
  | mem r off => exact lread_flat h

theorem writeLoc_flat {s : State} {w : Width} {l : Loc} (v : BitVec w.bits) (h : s.storable w l = true) :
    writeLoc w l v s = .ok () (s.afterWrite w l v) := by
  cases l with
  | reg r => rfl
  | mem r off => exact lwrite_flat v h

theorem checkLoc_flat {s : State} {w : Width} {l : Loc} (h : s.storable w l = true) : checkLoc w l s = .ok () s := by
  cases l with
  | reg r => rfl
  | mem r off => exact checkAccess_flat h

theorem updatable_readable {s : State} {w : Width} {l : Loc} (h : s.updatable w l = true) :
    s.readable w l = true ∧ s.storable w l = true := by
  cases l with
  | reg r => exact ⟨rfl, rfl⟩
  | mem r off =>
    simp only [State.updatable, Bool.and_eq_true] at h
    exact h

/-- `ReadRM`. -/
theorem readRM_flat {s : State} {w : Width} {rm : RM} (h : s.readable w (s.locate rm) = true) :
    readRM w rm s = .ok (s.valueAt w (s.locate rm)) (s.afterRead w (s.locate rm)) := by
  simp only [readRM, M_get_bind, readLoc_flat h]

/-- `WriteRM`. -/
theorem writeRM_flat {s : State} {w : Width} {rm : RM} (v : BitVec w.bits) (h : s.storable w (s.locate rm) = true) :
    writeRM w rm v s = .ok () (s.afterWrite w (s.locate rm) v) := by
  simp only [writeRM, M_get_bind, writeLoc_flat v h]

/-- An access stays possible when only flags and pending breakpoints have changed. -/
theorem storable_congr {s t : State} {w : Width} {l : Loc} (hc : t.cr0 = s.cr0) (hm : t.masters = s.masters)
    (hs : ∀ r, t.seg r = s.seg r) : t.storable w l = s.storable w l := by
  cases l with
  | reg r => rfl
  | mem r off =>
    simp only [State.storable, State.canAccess, State.flat, State.segAllows, State.inReach, State.realMode, hc, hm, hs]

@[simp] theorem afterRead_masters (s : State) (w : Width) (l : Loc) : (s.afterRead w l).masters = s.masters := by
  cases l <;> rfl

@[simp] theorem afterWrite_masters (s : State) (w : Width) (l : Loc) (v : BitVec w.bits) :
    (s.afterWrite w l v).masters = s.masters := by
  cases l
  · simp [State.afterWrite]
  · simp [State.afterWrite, State.afterStore]

/-- With no other master about to use the bus, a locked sequence is its steps. -/
theorem locked_alone {α : Type} {x : M α} {s u : State} {a : α} (hs : s.masters = []) (hu : u.masters = [])
    (hx : x s = .ok a u) : locked x s = .ok a u := by
  have h1 : ({ s with masters := [] } : State) = s := by rw [← hs]
  have h2 : ({ u with masters := [] } : State) = u := by rw [← hu]
  simp only [locked, State.turned_alone hs, h1, hx, hs, h2]

/-- The same where it is locked on some operands only. -/
theorem lockedIf_alone {α : Type} {x : M α} {lock : Bool} {l : Loc} {s u : State} {a : α}
    (h : ∀ r off, l = .mem r off → s.masters = [] ∧ u.masters = []) (hx : x s = .ok a u) : lockedIf lock l x s = .ok a u := by
  cases l with
  | reg r => exact hx
  | mem r off =>
    cases lock
    · exact hx
    · exact locked_alone (h r off rfl).1 (h r off rfl).2 hx

@[simp] theorem afterRead_cr0 (s : State) (w : Width) (l : Loc) : (s.afterRead w l).cr0 = s.cr0 := by
  cases l <;> rfl

@[simp] theorem afterRead_seg (s : State) (w : Width) (l : Loc) (r : SReg) : (s.afterRead w l).seg r = s.seg r := by
  cases l
  · rfl
  · simp [State.afterRead]

/-- The read-modify-write: `f` gives a value and changes at most the flags. -/
theorem modifyRM_flat {s : State} {w : Width} {rm : RM} {f : BitVec w.bits → M (BitVec w.bits)} {v : BitVec w.bits}
    {g : EFlags} (h : s.updatable w (s.locate rm) = true)
    (hf : f (s.valueAt w (s.locate rm)) (s.afterRead w (s.locate rm)) =
      .ok v ((s.afterRead w (s.locate rm)).withFlags g)) :
    modifyRM w rm f s =
      .ok () (((s.afterRead w (s.locate rm)).withFlags g).afterWrite w (s.locate rm) v) := by
  obtain ⟨h1, h2⟩ := updatable_readable h
  have h3 : ((s.afterRead w (s.locate rm)).withFlags g).storable w (s.locate rm) = true := by
    rw [storable_congr (s := s)]
    · exact h2
    · simp [State.withFlags]
    · simp [State.withFlags]
    · intro r
      have : ∀ t : State, (t.withFlags g).seg r = t.seg r := by intro t; cases r <;> rfl
      rw [this, afterRead_seg]
  simp only [modifyRM, M_bind, M_get, checkLoc_flat h2]
  refine lockedIf_alone (fun r off hl => ?_) (by simp only [M_bind, readLoc_flat h1, hf, writeLoc_flat v h3])
  have hm : s.masters = [] := by
    rw [hl] at h2
    exact canAccess_masters h2
  exact ⟨hm, by simpa [State.withFlags] using hm⟩

/-- `Push` of bytes. -/
theorem pushBytes_flat {s : State} {bs : List Byte}
    (h : s.canAccess .ss (s.spBelow s.sp bs.length) bs.length true = true) :
    pushBytes bs s = .ok () ((s.afterStore .ss (s.spBelow s.sp bs.length) bs).setSp (s.spBelow s.sp bs.length)) := by
  simp only [pushBytes, M_bind, M_get, lwriteBytes_flat h, M_modify]

/-- A stack item read without moving the stack pointer. -/
theorem stackRead_flat {s : State} {sz : Size} {sp : Word32} (h : s.canPeek sz sp = true) :
    stackRead sz sp s = .ok (s.peek sz sp) (s.afterPeek sz sp) := by
  cases sz
  · have h' : s.canAccess .ss sp Width.w16.bytes false = true := h
    simp only [stackRead, M_bind, lread_flat h', M_pure]
    congr 1
    simp only [State.peek, State.operand, valueOf, Width.bits, Size.bytes, Width.bytes]
    apply BitVec.eq_of_toNat_eq
    have hlt : ∀ l : List Byte, natOfBytes l < 256 ^ l.length := by
      intro l
      induction l with
      | nil => simp [natOfBytes]
      | cons b l ih =>
        have := b.isLt
        simp only [natOfBytes, List.length_cons, Nat.pow_succ]
        omega
    have := hlt (s.operandBytes .ss sp 2)
    simp only [State.operandBytes, List.length_map, byteAddrs_length] at this
    simp only [BitVec.toNat_setWidth, BitVec.toNat_ofNat, State.operandBytes]
    omega
  · have h' : s.canAccess .ss sp Width.w32.bytes false = true := h
    simp only [stackRead, lread_flat h']
    rfl

/-- `Pop`. -/
theorem pop_flat {s : State} {sz : Size} (h : s.canPeek sz s.sp = true) :
    pop sz s = .ok (s.peek sz s.sp) ((s.afterPeek sz s.sp).setSp ((s.afterPeek sz s.sp).spAbove s.sp sz.bytes)) := by
  simp only [pop, M_bind, M_get, stackRead_flat h, M_modify, M_pure]
  rfl

end Sys2Proof.Machine
end

