-- ==== Sys2Proof/Laws/Checks.lean ====
section
/-!
SUPPORT. What the checks of a rule do, and the reads of descriptors with paging off: one equation per operation. They are what
the refusals of selectors, gates, frames and tasks are made of.
-/
namespace Sys2Proof.Machine

/-- The exception of a check that fails, with its error code. -/
abbrev checkStop (v : Byte) (c : Word32) : Stop := .exc { vector := v, code := some c, newTask := false }

theorem require0_run (c : Bool) (v : Byte) (s : State) :
    require0 c v s = if c then .ok () s else .error (checkStop v 0) s := by cases c <;> rfl

theorem requireSel_run (c : Bool) (v : Byte) (sel : Word16) (s : State) :
    requireSel c v sel s = if c then .ok () s else .error (checkStop v ((sel &&& 0xFFFC).zeroExtend 32)) s := by
  cases c <;> rfl

/-- `sel AND FFFCH` as a number. -/
theorem selectorCode_eq (sel : Word16) : (sel &&& 0xFFFC).zeroExtend 32 = BitVec.ofNat 32 (sel.toNat / 4 * 4) := by
  have h : sel &&& 0xFFFC = sel.extractLsb' 2 14 ++ 0#2 := by
    apply BitVec.eq_of_getLsbD_eq
    intro i hi
    have hm : (0xFFFC#16).getLsbD i = decide (2 ≤ i) :=
      (by decide : ∀ i : Fin 16, (0xFFFC#16).getLsbD i.val = decide (2 ≤ i.val)) ⟨i, hi⟩
    rw [BitVec.getLsbD_and, show (65532 : BitVec 16).getLsbD i = _ from hm, BitVec.getLsbD_append,
      BitVec.getLsbD_extractLsb']
    by_cases h2 : i < 2
    · simp [h2]
    · simp [h2, show i - 2 < 14 by omega, show 2 + (i - 2) = i by omega, show 2 ≤ i by omega]
  have hn : (sel.extractLsb' 2 14 ++ 0#2).toNat = sel.toNat / 4 * 4 := by
    rw [BitVec.toNat_append]
    simp [Nat.shiftLeft_eq, Nat.shiftRight_eq_div_pow]
    omega
  apply BitVec.eq_of_toNat_eq
  rw [h, BitVec.toNat_setWidth, BitVec.toNat_ofNat, hn]

theorem flat_pg {s : State} (h : s.flat = true) : s.cr0.pg = false := by
  simp only [State.flat, Bool.and_eq_true, Bool.not_eq_true'] at h
  exact h.1

theorem flat_masters {s : State} (h : s.flat = true) : s.masters = [] := by
  simp only [State.flat, Bool.and_eq_true, List.isEmpty_iff] at h
  exact h.2

/-- A read of width `w` on the processor's own behalf. -/
theorem sysRead_flat {s : State} (h : s.flat = true) (w : Width) (la : Word32) :
    sysRead w la s = .ok (valueOf w ((byteAddrs la w.bytes).map s.physByte)) s := by
  simp only [sysRead, M_bind, linRead_flat (flat_pg h) (flat_masters h), M_pure]

/-- A double word read so is one of physical memory. -/
theorem sysRead_dword_flat {s : State} (h : s.flat = true) (la : Word32) : sysRead .w32 la s = .ok (s.physDword la) s := by
  have ha : byteAddrs la 4 = dwordAddrs la := by simp [byteAddrs, dwordAddrs, List.range_succ]
  rw [sysRead_flat h]
  show EStateM.Result.ok (valueOf .w32 ((byteAddrs la 4).map s.physByte)) s = _
  rw [ha]
  rfl

/-- A descriptor. -/
theorem readDesc_flat {s : State} (h : s.flat = true) (la : Word32) :
    readDesc la s = .ok (s.physDword (la + 4) ++ s.physDword la) s := by
  simp only [readDesc, M_bind, sysRead_dword_flat h, M_pure]

/-- `FetchDescriptor`: outside its table a selector is exception `v`. -/
theorem fetchDesc_flat {s : State} (h : s.flat = true) (v : Byte) (sel : Word16) :
    fetchDesc v sel s = match s.descAddr sel with
      | some la => .ok (s.physDword (la + 4) ++ s.physDword la, la) s
      | none => .error (checkStop v ((sel &&& 0xFFFC).zeroExtend 32)) s := by
  unfold fetchDesc
  rw [M_get_bind]
  cases s.descAddr sel with
  | none => rfl
  | some la => simp only [M_bind, readDesc_flat h, M_pure]

/-- A check of the stack segment that fails is exception 12 (0), for whichever of its reasons. -/
theorem segCheck_stack {s : State} {off : Word32} {n : Nat} {w : Bool} (h : s.segAllows .ss off n w = false) :
    segCheck .ss off n w s = .error (checkStop 12 0) s := by
  unfold segCheck
  rw [M_get_bind]
  simp only [State.segAllows] at h
  simp only [M_bind, require0_run]
  cases h1 : (s.realMode || (s.seg .ss).usable) <;> cases h2 : (s.realMode || hasRights (s.seg .ss) w) <;>
    cases h3 : s.inReach (s.seg .ss) off n <;> simp_all [segVector]

/-- The frame of a return does not lie on the stack. -/
theorem requireHeld_unheld {s : State} {sp : Word32} {n : Nat} (h : s.segAllows .ss sp n false = false) :
    requireHeld sp n s = .error (checkStop 12 0) s := segCheck_stack h

/-- `Push` where the stack does not take the item. -/
theorem push_unheld {s : State} {sz : Size} (v : Word32)
    (h : s.segAllows .ss (s.spBelow s.sp sz.bytes) sz.bytes true = false) : push sz v s = .error (checkStop 12 0) s := by
  have hb : ∀ bs : List Byte, bs.length = sz.bytes → pushBytes bs s = .error (checkStop 12 0) s := by
    intro bs hl
    unfold pushBytes
    rw [M_get_bind]
    unfold lwriteBytes accessAddrs
    rw [hl]
    refine M_bind_error ?_
    rw [M_get_bind]
    exact M_bind_error (M_bind_error (segCheck_stack h))
  cases sz
  · exact hb _ (by simp)
  · exact hb _ (by simp)

end Sys2Proof.Machine
end

