-- ==== Sys2Proof/Laws/Encoding.lean ====
section
/-!
SUPPORT. The parts of an encoding read back: the fields of a ModRM or SIB byte, immediates, displacements, the r/m
operand; and how long they are.
-/
namespace Sys2Proof

theorem fieldAt_fieldsByte_low : ∀ (t : Fin 4) (m l : Fin 8), fieldAt (fieldsByte t m l) 0 = l := by decide

theorem fieldAt_fieldsByte_mid : ∀ (t : Fin 4) (m l : Fin 8), fieldAt (fieldsByte t m l) 3 = m := by decide

theorem topField_fieldsByte : ∀ (t : Fin 4) (m l : Fin 8), topField (fieldsByte t m l) = t := by decide

theorem wordOf_bytes (v : Word16) : wordOf (v.extractLsb' 0 8) (v.extractLsb' 8 8) = v := by
  apply BitVec.eq_of_getLsbD_eq
  intro i hi
  simp only [wordOf, BitVec.getLsbD_append, BitVec.getLsbD_extractLsb']
  by_cases h : i < 8
  · simp [h]
  · simp only [h, if_false]
    simp [show i - 8 < 8 by omega, show 8 + (i - 8) = i by omega]

theorem dwordOf_bytes (v : Word32) :
    dwordOf (v.extractLsb' 0 8) (v.extractLsb' 8 8) (v.extractLsb' 16 8) (v.extractLsb' 24 8) = v := by
  apply BitVec.eq_of_getLsbD_eq
  intro i hi
  simp only [dwordOf, BitVec.getLsbD_append, BitVec.getLsbD_extractLsb']
  by_cases h : i < 8
  · simp [h]
  · by_cases h2 : i < 16
    · simp [h, show i - 8 < 8 by omega, show 8 + (i - 8) = i by omega]
    · by_cases h3 : i < 24
      · simp [h, show ¬ i - 8 < 8 by omega, show i - 8 - 8 < 8 by omega, show 16 + (i - 8 - 8) = i by omega]
      · simp [h, show ¬ i - 8 < 8 by omega, show ¬ i - 8 - 8 < 8 by omega, show i - 8 - 8 - 8 < 8 by omega,
          show 24 + (i - 8 - 8 - 8) = i by omega]

@[simp] theorem withByte_cons (b : Byte) (bs : List Byte) (k : Byte → List Byte → Parsed) :
    withByte (b :: bs) k = k b bs := rfl

@[simp] theorem withWord_bytes (v : Word16) (rest : List Byte) (k : Word16 → List Byte → Parsed) :
    withWord (wordBytes v ++ rest) k = k v rest := by
  simp only [wordBytes, List.cons_append, List.nil_append, withWord, wordOf_bytes]

@[simp] theorem withDword_bytes (v : Word32) (rest : List Byte) (k : Word32 → List Byte → Parsed) :
    withDword (dwordBytes v ++ rest) k = k v rest := by
  simp only [dwordBytes, List.cons_append, List.nil_append, withDword, dwordOf_bytes]

/-- An immediate of the right width is read back. -/
theorem withImmV_encode {sz : Size} {i : ImmV} (h : i.wellFormed sz = true) (rest : List Byte)
    (k : ImmV → List Byte → Parsed) : withImmV sz (i.encode ++ rest) k = k i rest := by
  cases sz <;> cases i
  case s16.w v => simp [withImmV, ImmV.encode]
  case s32.d v => simp [withImmV, ImmV.encode]
  all_goals simp [ImmV.wellFormed] at h

/-- A far pointer is read back. -/
theorem withFarPtr_encode {sz : Size} {p : FarPtr} (h : p.wellFormed sz = true) (rest : List Byte)
    (k : FarPtr → List Byte → Parsed) : withFarPtr sz (p.encode ++ rest) k = k p rest := by
  have h' : p.off.wellFormed sz = true := h
  simp only [withFarPtr, FarPtr.encode, List.append_assoc, withImmV_encode h', withWord_bytes]

/-- A 32-bit displacement is read back. -/
theorem withDisp32_encode (d : Disp32) (rest : List Byte) (k : Disp32 → List Byte → Parsed) :
    withDisp32 d.mod.val (d.encode ++ rest) k = k d rest := by
  cases d <;> simp [withDisp32, Disp32.mod, Disp32.encode]

/-- A memory operand of the right address size is read back, with ModRM.reg. -/
theorem withModRM_mem {asz : Size} {m : MemOp} (h : m.wellFormed asz = true) (reg : Fin 8) (rest : List Byte)
    (k : Fin 8 → RM → List Byte → Parsed) : withModRM asz (m.encode reg ++ rest) k = k reg (.mem m) rest := by
  have ne3 : ∀ (d : Disp32), d.mod ≠ 3 := by intro d; cases d <;> simp [Disp32.mod]
  have ne3' : ∀ (d : Disp16), d.mod ≠ 3 := by intro d; cases d <;> simp [Disp16.mod]
  cases asz <;> cases m
  case s16.direct16 d =>
    simp [MemOp.encode, withModRM, topField_fieldsByte, fieldAt_fieldsByte_low, fieldAt_fieldsByte_mid, withMem16]
  case s16.based16 b d =>
    simp only [MemOp.encode, withModRM, List.cons_append, withByte_cons, topField_fieldsByte, fieldAt_fieldsByte_low,
      fieldAt_fieldsByte_mid, if_neg (ne3' d)]
    cases d with
    | none =>
      cases b <;> first
        | exact absurd h (by decide)
        | simp [withMem16, Disp16.mod, Disp16.encode, Base16.number, base16Of]
    | d8 d =>
      cases b <;> simp [withMem16, Disp16.mod, Disp16.encode, Base16.number, base16Of]
    | d16 d =>
      cases b <;> simp [withMem16, Disp16.mod, Disp16.encode, Base16.number, base16Of]
  case s32.direct32 d =>
    simp [MemOp.encode, withModRM, topField_fieldsByte, fieldAt_fieldsByte_low, fieldAt_fieldsByte_mid, withMem32]
  case s32.based32 b d =>
    simp only [MemOp.wellFormed, Bool.and_eq_true, bne_iff_ne, ne_eq] at h
    obtain ⟨h4, hd⟩ := h
    have h5 : ¬(d.mod.val = 0 ∧ b = 5) := by
      rintro ⟨hm, hb⟩
      cases d with
      | none => simp [Disp32.wellFormed, hb] at hd
      | d8 d => simp [Disp32.mod] at hm
      | d32 d => simp [Disp32.mod] at hm
    simp only [MemOp.encode, withModRM, List.cons_append, withByte_cons, topField_fieldsByte, fieldAt_fieldsByte_low,
      fieldAt_fieldsByte_mid, if_neg (ne3 d), withMem32, if_neg h4, if_neg h5, withDisp32_encode]
  case s32.sib sc ix b d =>
    have h5 : ¬(d.mod.val = 0 ∧ b = 5) := by
      rintro ⟨hm, hb⟩
      cases d with
      | none => simp [MemOp.wellFormed, Disp32.wellFormed, hb] at h
      | d8 d => simp [Disp32.mod] at hm
      | d32 d => simp [Disp32.mod] at hm
    simp only [MemOp.encode, withModRM, List.cons_append, withByte_cons, topField_fieldsByte, fieldAt_fieldsByte_low,
      fieldAt_fieldsByte_mid, if_neg (ne3 d), withMem32, if_true, if_neg h5, withDisp32_encode]
  case s32.sibDirect sc ix d =>
    simp [MemOp.encode, withModRM, topField_fieldsByte, fieldAt_fieldsByte_low, fieldAt_fieldsByte_mid, withMem32]
  all_goals exact absurd h (by simp [MemOp.wellFormed])

/-- A register operand is read back. -/
theorem withModRM_reg (asz : Size) (reg r : Fin 8) (rest : List Byte) (k : Fin 8 → RM → List Byte → Parsed) :
    withModRM asz (fieldsByte 3 reg r :: rest) k = k reg (.reg r) rest := by
  simp [withModRM, topField_fieldsByte, fieldAt_fieldsByte_low, fieldAt_fieldsByte_mid]

/-- The r/m operand is read back, with ModRM.reg. -/
theorem withModRM_encode {asz : Size} {rm : RM} (h : rm.wellFormed asz = true) (reg : Fin 8) (rest : List Byte)
    (k : Fin 8 → RM → List Byte → Parsed) : withModRM asz (rm.encode reg ++ rest) k = k reg rm rest := by
  cases rm with
  | reg r =>
    simp [RM.encode, withModRM, topField_fieldsByte, fieldAt_fieldsByte_low, fieldAt_fieldsByte_mid]
  | mem m => exact withModRM_mem h reg rest k

/-- The registers of a move to or from a special register are read back, where the number names one. -/
theorem withRegs_encode {named : Fin 8 → Bool} {a : Fin 8} (h : named a = true) (t : Fin 4) (b : Fin 8)
    (rest : List Byte) (k : Fin 8 → Fin 8 → List Byte → Parsed) :
    withRegs named (fieldsByte t a b :: rest) k = k a b rest := by
  simp only [withRegs, withByte_cons, fieldAt_fieldsByte_low, fieldAt_fieldsByte_mid, h, if_true]

/-! ## Lengths -/

@[simp] theorem wordBytes_length (v : Word16) : (wordBytes v).length = 2 := rfl

@[simp] theorem dwordBytes_length (v : Word32) : (dwordBytes v).length = 4 := rfl

/-- An immediate has 2 or 4 bytes. -/
theorem ImmV.encode_length (i : ImmV) : i.encode.length ≤ 4 := by cases i <;> simp [ImmV.encode]

theorem FarPtr.encode_length (p : FarPtr) : p.encode.length ≤ 6 := by
  have := ImmV.encode_length p.off
  simp only [FarPtr.encode, List.length_append, wordBytes_length]
  omega

/-- A memory operand takes at most 6 bytes: ModRM, SIB and four of displacement. -/
theorem MemOp.encode_length (m : MemOp) (reg : Fin 8) : (m.encode reg).length ≤ 6 := by
  cases m with
  | direct16 d => simp [MemOp.encode]
  | based16 b d => cases d <;> simp [MemOp.encode, Disp16.encode]
  | direct32 d => simp [MemOp.encode]
  | based32 b d => cases d <;> simp [MemOp.encode, Disp32.encode]
  | sib s x b d => cases d <;> simp [MemOp.encode, Disp32.encode]
  | sibDirect s x d => simp [MemOp.encode]

theorem RM.encode_length (rm : RM) (reg : Fin 8) : (rm.encode reg).length ≤ 6 := by
  cases rm with
  | reg r => simp [RM.encode]
  | mem m => exact MemOp.encode_length m reg

end Sys2Proof
end

