-- ==== Sys2Proof/Laws/PerInstr.lean ====
section
/-!
SUPPORT. The family `ShortEncoding`: the encoding of every instruction has 1 to 11 bytes, so that it fits into the 15
bytes of R278 with the four kinds of prefixes before it. First one lemma per layout of an encoding.
-/
namespace Sys2Proof.Laws.ShortEncoding

/-- The encoding has 1 to 11 bytes. -/
def Statement (i : Instr) : Prop := 1 ≤ (encode i).length ∧ (encode i).length ≤ 11

/-- A list of 1 to 11 bytes. -/
abbrev Short (bs : List Byte) : Prop := 1 ≤ bs.length ∧ bs.length ≤ 11

theorem short_one (b : Byte) : Short [b] := by simp [Short]

theorem short_two (b c : Byte) : Short [b, c] := by simp [Short]

theorem short_three (b c d : Byte) : Short [b, c, d] := by simp [Short]

theorem short_four (b c d e : Byte) : Short [b, c, d, e] := by simp [Short]

theorem short_rmOnly (b : Byte) (rm : RM) (r : Fin 8) : Short (b :: rm.encode r) := by
  have := RM.encode_length rm r
  simp only [Short, List.length_cons]; omega

theorem short_memOnly (b : Byte) (m : MemOp) (r : Fin 8) : Short (b :: m.encode r) := by
  have := MemOp.encode_length m r
  simp only [Short, List.length_cons]; omega

theorem short_rmLong (b c : Byte) (rm : RM) (r : Fin 8) : Short (b :: c :: rm.encode r) := by
  have := RM.encode_length rm r
  simp only [Short, List.length_cons]; omega

theorem short_memLong (b c : Byte) (m : MemOp) (r : Fin 8) : Short (b :: c :: m.encode r) := by
  have := MemOp.encode_length m r
  simp only [Short, List.length_cons]; omega

theorem short_rmByte (b x : Byte) (rm : RM) (r : Fin 8) : Short ((b :: rm.encode r) ++ [x]) := by
  have := RM.encode_length rm r
  simp only [Short, List.length_append, List.length_cons, List.length_nil]; omega

theorem short_rmLongByte (b c x : Byte) (rm : RM) (r : Fin 8) : Short ((b :: c :: rm.encode r) ++ [x]) := by
  have := RM.encode_length rm r
  simp only [Short, List.length_append, List.length_cons, List.length_nil]; omega

theorem short_rmImm (b : Byte) (rm : RM) (r : Fin 8) (i : ImmV) : Short ((b :: rm.encode r) ++ i.encode) := by
  have := RM.encode_length rm r
  have := ImmV.encode_length i
  simp only [Short, List.length_append, List.length_cons]; omega

theorem short_immOnly (b : Byte) (i : ImmV) : Short ([b] ++ i.encode) := by
  have := ImmV.encode_length i
  simp only [Short, List.length_append, List.length_cons, List.length_nil]; omega

theorem short_immLong (b c : Byte) (i : ImmV) : Short ([b, c] ++ i.encode) := by
  have := ImmV.encode_length i
  simp only [Short, List.length_append, List.length_cons, List.length_nil]; omega

theorem short_farOnly (b : Byte) (p : FarPtr) : Short ([b] ++ p.encode) := by
  have := FarPtr.encode_length p
  simp only [Short, List.length_append, List.length_cons, List.length_nil]; omega

theorem add : ∀ f : AluForm, Statement (.add f)
  | .ebGb _ _ => short_rmOnly _ _ _
  | .evGv _ _ => short_rmOnly _ _ _
  | .gbEb _ _ => short_rmOnly _ _ _
  | .gvEv _ _ => short_rmOnly _ _ _
  | .alIb _ => short_two _ _
  | .eaxIv _ => short_immOnly _ _
  | .ebIb _ _ => short_rmByte _ _ _ _
  | .evIv _ _ => short_rmImm _ _ _ _
  | .evIbs _ _ => short_rmByte _ _ _ _

theorem or : ∀ f : AluForm, Statement (.or f)
  | .ebGb _ _ => short_rmOnly _ _ _
  | .evGv _ _ => short_rmOnly _ _ _
  | .gbEb _ _ => short_rmOnly _ _ _
  | .gvEv _ _ => short_rmOnly _ _ _
  | .alIb _ => short_two _ _
  | .eaxIv _ => short_immOnly _ _
  | .ebIb _ _ => short_rmByte _ _ _ _
  | .evIv _ _ => short_rmImm _ _ _ _
  | .evIbs _ _ => short_rmByte _ _ _ _

theorem adc : ∀ f : AluForm, Statement (.adc f)
  | .ebGb _ _ => short_rmOnly _ _ _
  | .evGv _ _ => short_rmOnly _ _ _
  | .gbEb _ _ => short_rmOnly _ _ _
  | .gvEv _ _ => short_rmOnly _ _ _
  | .alIb _ => short_two _ _
  | .eaxIv _ => short_immOnly _ _
  | .ebIb _ _ => short_rmByte _ _ _ _
  | .evIv _ _ => short_rmImm _ _ _ _
  | .evIbs _ _ => short_rmByte _ _ _ _

theorem sbb : ∀ f : AluForm, Statement (.sbb f)
  | .ebGb _ _ => short_rmOnly _ _ _
  | .evGv _ _ => short_rmOnly _ _ _
  | .gbEb _ _ => short_rmOnly _ _ _
  | .gvEv _ _ => short_rmOnly _ _ _
  | .alIb _ => short_two _ _
  | .eaxIv _ => short_immOnly _ _
  | .ebIb _ _ => short_rmByte _ _ _ _
  | .evIv _ _ => short_rmImm _ _ _ _
  | .evIbs _ _ => short_rmByte _ _ _ _

theorem and : ∀ f : AluForm, Statement (.and f)
  | .ebGb _ _ => short_rmOnly _ _ _
  | .evGv _ _ => short_rmOnly _ _ _
  | .gbEb _ _ => short_rmOnly _ _ _
  | .gvEv _ _ => short_rmOnly _ _ _
  | .alIb _ => short_two _ _
  | .eaxIv _ => short_immOnly _ _
  | .ebIb _ _ => short_rmByte _ _ _ _
  | .evIv _ _ => short_rmImm _ _ _ _
  | .evIbs _ _ => short_rmByte _ _ _ _

theorem sub : ∀ f : AluForm, Statement (.sub f)
  | .ebGb _ _ => short_rmOnly _ _ _
  | .evGv _ _ => short_rmOnly _ _ _
  | .gbEb _ _ => short_rmOnly _ _ _
  | .gvEv _ _ => short_rmOnly _ _ _
  | .alIb _ => short_two _ _
  | .eaxIv _ => short_immOnly _ _
  | .ebIb _ _ => short_rmByte _ _ _ _
  | .evIv _ _ => short_rmImm _ _ _ _
  | .evIbs _ _ => short_rmByte _ _ _ _

theorem xor : ∀ f : AluForm, Statement (.xor f)
  | .ebGb _ _ => short_rmOnly _ _ _
  | .evGv _ _ => short_rmOnly _ _ _
  | .gbEb _ _ => short_rmOnly _ _ _
  | .gvEv _ _ => short_rmOnly _ _ _
  | .alIb _ => short_two _ _
  | .eaxIv _ => short_immOnly _ _
  | .ebIb _ _ => short_rmByte _ _ _ _
  | .evIv _ _ => short_rmImm _ _ _ _
  | .evIbs _ _ => short_rmByte _ _ _ _

theorem cmp : ∀ f : AluForm, Statement (.cmp f)
  | .ebGb _ _ => short_rmOnly _ _ _
  | .evGv _ _ => short_rmOnly _ _ _
  | .gbEb _ _ => short_rmOnly _ _ _
  | .gvEv _ _ => short_rmOnly _ _ _
  | .alIb _ => short_two _ _
  | .eaxIv _ => short_immOnly _ _
  | .ebIb _ _ => short_rmByte _ _ _ _
  | .evIv _ _ => short_rmImm _ _ _ _
  | .evIbs _ _ => short_rmByte _ _ _ _

theorem pushEs : Statement .pushEs := short_one _

theorem popEs : Statement .popEs := short_one _

theorem pushCs : Statement .pushCs := short_one _

theorem pushSs : Statement .pushSs := short_one _

theorem popSs : Statement .popSs := short_one _

theorem pushDs : Statement .pushDs := short_one _

theorem popDs : Statement .popDs := short_one _

theorem daa : Statement .daa := short_one _

theorem das : Statement .das := short_one _

theorem aaa : Statement .aaa := short_one _

theorem aas : Statement .aas := short_one _

theorem inc : ∀ f : IncForm, Statement (.inc f)
  | .r _ => short_one _
  | .eb _ => short_rmOnly _ _ _
  | .ev _ => short_rmOnly _ _ _

theorem dec : ∀ f : IncForm, Statement (.dec f)
  | .r _ => short_one _
  | .eb _ => short_rmOnly _ _ _
  | .ev _ => short_rmOnly _ _ _

theorem push : ∀ f : PushForm, Statement (.push f)
  | .r _ => short_one _
  | .iv _ => short_immOnly _ _
  | .ibs _ => short_two _ _
  | .ev _ => short_rmOnly _ _ _

theorem pop : ∀ f : PopForm, Statement (.pop f)
  | .r _ => short_one _
  | .ev _ => short_rmOnly _ _ _

theorem pusha : Statement .pusha := short_one _

theorem popa : Statement .popa := short_one _

theorem bound (r : Fin 8) (m : MemOp) : Statement (.bound r m) := short_memOnly _ _ _

theorem arpl (rm : RM) (r : Fin 8) : Statement (.arpl rm r) := short_rmOnly _ _ _

theorem imul : ∀ f : ImulForm, Statement (.imul f)
  | .gvEvIv _ _ _ => short_rmImm _ _ _ _
  | .gvEvIbs _ _ _ => short_rmByte _ _ _ _
  | .eb _ => short_rmOnly _ _ _
  | .ev _ => short_rmOnly _ _ _
  | .gvEv _ _ => short_rmLong _ _ _ _

theorem insb : Statement .insb := short_one _

theorem inswD : Statement .inswD := short_one _

theorem outsb : Statement .outsb := short_one _

theorem outswD : Statement .outswD := short_one _

theorem jo : ∀ f : JccForm, Statement (.jo f)
  | .jb _ => short_two _ _
  | .jv _ => short_immLong _ _ _

theorem jno : ∀ f : JccForm, Statement (.jno f)
  | .jb _ => short_two _ _
  | .jv _ => short_immLong _ _ _

theorem jb : ∀ f : JccForm, Statement (.jb f)
  | .jb _ => short_two _ _
  | .jv _ => short_immLong _ _ _

theorem jae : ∀ f : JccForm, Statement (.jae f)
  | .jb _ => short_two _ _
  | .jv _ => short_immLong _ _ _

theorem je : ∀ f : JccForm, Statement (.je f)
  | .jb _ => short_two _ _
  | .jv _ => short_immLong _ _ _

theorem jne : ∀ f : JccForm, Statement (.jne f)
  | .jb _ => short_two _ _
  | .jv _ => short_immLong _ _ _

theorem jbe : ∀ f : JccForm, Statement (.jbe f)
  | .jb _ => short_two _ _
  | .jv _ => short_immLong _ _ _

theorem ja : ∀ f : JccForm, Statement (.ja f)
  | .jb _ => short_two _ _
  | .jv _ => short_immLong _ _ _

theorem js : ∀ f : JccForm, Statement (.js f)
  | .jb _ => short_two _ _
  | .jv _ => short_immLong _ _ _

theorem jns : ∀ f : JccForm, Statement (.jns f)
  | .jb _ => short_two _ _
  | .jv _ => short_immLong _ _ _

theorem jp : ∀ f : JccForm, Statement (.jp f)
  | .jb _ => short_two _ _
  | .jv _ => short_immLong _ _ _

theorem jnp : ∀ f : JccForm, Statement (.jnp f)
  | .jb _ => short_two _ _
  | .jv _ => short_immLong _ _ _

theorem jl : ∀ f : JccForm, Statement (.jl f)
  | .jb _ => short_two _ _
  | .jv _ => short_immLong _ _ _

theorem jge : ∀ f : JccForm, Statement (.jge f)
  | .jb _ => short_two _ _
  | .jv _ => short_immLong _ _ _

theorem jle : ∀ f : JccForm, Statement (.jle f)
  | .jb _ => short_two _ _
  | .jv _ => short_immLong _ _ _

theorem jg : ∀ f : JccForm, Statement (.jg f)
  | .jb _ => short_two _ _
  | .jv _ => short_immLong _ _ _

theorem test : ∀ f : TestForm, Statement (.test f)
  | .ebGb _ _ => short_rmOnly _ _ _
  | .evGv _ _ => short_rmOnly _ _ _
  | .alIb _ => short_two _ _
  | .eaxIv _ => short_immOnly _ _
  | .ebIb _ _ => short_rmByte _ _ _ _
  | .evIv _ _ => short_rmImm _ _ _ _

theorem xchg : ∀ f : XchgForm, Statement (.xchg f)
  | .ebGb _ _ => short_rmOnly _ _ _
  | .evGv _ _ => short_rmOnly _ _ _
  | .eaxR _ => short_one _

theorem mov : ∀ f : MovForm, Statement (.mov f)
  | .ebGb _ _ => short_rmOnly _ _ _
  | .evGv _ _ => short_rmOnly _ _ _
  | .gbEb _ _ => short_rmOnly _ _ _
  | .gvEv _ _ => short_rmOnly _ _ _
  | .ewSw _ _ => short_rmOnly _ _ _
  | .swEw _ _ => short_rmOnly _ _ _
  | .alOb _ => short_immOnly _ _
  | .eaxOv _ => short_immOnly _ _
  | .obAl _ => short_immOnly _ _
  | .ovEax _ => short_immOnly _ _
  | .r8Ib _ _ => short_two _ _
  | .rIv _ _ => short_immOnly _ _
  | .ebIb _ _ => short_rmByte _ _ _ _
  | .evIv _ _ => short_rmImm _ _ _ _
  | .r32Cr _ _ => short_three _ _ _
  | .r32Dr _ _ => short_three _ _ _
  | .crR32 _ _ => short_three _ _ _
  | .drR32 _ _ => short_three _ _ _
  | .r32Tr _ _ => short_three _ _ _
  | .trR32 _ _ => short_three _ _ _

theorem lea (r : Fin 8) (m : MemOp) : Statement (.lea r m) := short_memOnly _ _ _

theorem nop : Statement .nop := short_one _

theorem cbwCwde : Statement .cbwCwde := short_one _

theorem cwdCdq : Statement .cwdCdq := short_one _

theorem call : ∀ f : CallForm, Statement (.call f)
  | .farAp _ => short_farOnly _ _
  | .jv _ => short_immOnly _ _
  | .ev _ => short_rmOnly _ _ _
  | .farMp _ => short_memOnly _ _ _

theorem wait : Statement .wait := short_one _

theorem pushf : Statement .pushf := short_one _

theorem popf : Statement .popf := short_one _

theorem sahf : Statement .sahf := short_one _

theorem lahf : Statement .lahf := short_one _

theorem movsb : Statement .movsb := short_one _

theorem movswD : Statement .movswD := short_one _

theorem cmpsb : Statement .cmpsb := short_one _

theorem cmpswD : Statement .cmpswD := short_one _

theorem stosb : Statement .stosb := short_one _

theorem stoswD : Statement .stoswD := short_one _

theorem lodsb : Statement .lodsb := short_one _

theorem lodswD : Statement .lodswD := short_one _

theorem scasb : Statement .scasb := short_one _

theorem scaswD : Statement .scaswD := short_one _

theorem rol : ∀ f : ShiftForm, Statement (.rol f)
  | .ebIb _ _ => short_rmByte _ _ _ _
  | .evIb _ _ => short_rmByte _ _ _ _
  | .eb1 _ => short_rmOnly _ _ _
  | .ev1 _ => short_rmOnly _ _ _
  | .ebCl _ => short_rmOnly _ _ _
  | .evCl _ => short_rmOnly _ _ _

theorem ror : ∀ f : ShiftForm, Statement (.ror f)
  | .ebIb _ _ => short_rmByte _ _ _ _
  | .evIb _ _ => short_rmByte _ _ _ _
  | .eb1 _ => short_rmOnly _ _ _
  | .ev1 _ => short_rmOnly _ _ _
  | .ebCl _ => short_rmOnly _ _ _
  | .evCl _ => short_rmOnly _ _ _

theorem rcl : ∀ f : ShiftForm, Statement (.rcl f)
  | .ebIb _ _ => short_rmByte _ _ _ _
  | .evIb _ _ => short_rmByte _ _ _ _
  | .eb1 _ => short_rmOnly _ _ _
  | .ev1 _ => short_rmOnly _ _ _
  | .ebCl _ => short_rmOnly _ _ _
  | .evCl _ => short_rmOnly _ _ _

theorem rcr : ∀ f : ShiftForm, Statement (.rcr f)
  | .ebIb _ _ => short_rmByte _ _ _ _
  | .evIb _ _ => short_rmByte _ _ _ _
  | .eb1 _ => short_rmOnly _ _ _
  | .ev1 _ => short_rmOnly _ _ _
  | .ebCl _ => short_rmOnly _ _ _
  | .evCl _ => short_rmOnly _ _ _

theorem shl : ∀ f : ShiftForm, Statement (.shl f)
  | .ebIb _ _ => short_rmByte _ _ _ _
  | .evIb _ _ => short_rmByte _ _ _ _
  | .eb1 _ => short_rmOnly _ _ _
  | .ev1 _ => short_rmOnly _ _ _
  | .ebCl _ => short_rmOnly _ _ _
  | .evCl _ => short_rmOnly _ _ _

theorem shr : ∀ f : ShiftForm, Statement (.shr f)
  | .ebIb _ _ => short_rmByte _ _ _ _
  | .evIb _ _ => short_rmByte _ _ _ _
  | .eb1 _ => short_rmOnly _ _ _
  | .ev1 _ => short_rmOnly _ _ _
  | .ebCl _ => short_rmOnly _ _ _
  | .evCl _ => short_rmOnly _ _ _

theorem sar : ∀ f : ShiftForm, Statement (.sar f)
  | .ebIb _ _ => short_rmByte _ _ _ _
  | .evIb _ _ => short_rmByte _ _ _ _
  | .eb1 _ => short_rmOnly _ _ _
  | .ev1 _ => short_rmOnly _ _ _
  | .ebCl _ => short_rmOnly _ _ _
  | .evCl _ => short_rmOnly _ _ _

theorem ret : ∀ f : RetForm, Statement (.ret f)
  | .nearIw _ => short_three _ _ _
  | .near => short_one _
  | .farIw _ => short_three _ _ _
  | .far => short_one _

theorem les (r : Fin 8) (m : MemOp) : Statement (.les r m) := short_memOnly _ _ _

theorem lds (r : Fin 8) (m : MemOp) : Statement (.lds r m) := short_memOnly _ _ _

theorem enter (imm : Word16) (imm2 : Byte) : Statement (.enter imm imm2) := short_four _ _ _ _

theorem leave : Statement .leave := short_one _

theorem int3 : Statement .int3 := short_one _

theorem int (imm : Byte) : Statement (.int imm) := short_two _ _

theorem into : Statement .into := short_one _

theorem iret : Statement .iret := short_one _

theorem aam (imm : Byte) : Statement (.aam imm) := short_two _ _

theorem aad (imm : Byte) : Statement (.aad imm) := short_two _ _

theorem xlat : Statement .xlat := short_one _

theorem fadd : ∀ f : FArithForm, Statement (.fadd f)
  | .m32 _ => short_memOnly _ _ _
  | .stSti _ => short_two _ _
  | .m64 _ => short_memOnly _ _ _
  | .stiSt _ => short_two _ _

theorem fmul : ∀ f : FArithForm, Statement (.fmul f)
  | .m32 _ => short_memOnly _ _ _
  | .stSti _ => short_two _ _
  | .m64 _ => short_memOnly _ _ _
  | .stiSt _ => short_two _ _

theorem fcom : ∀ f : FComForm, Statement (.fcom f)
  | .m32 _ => short_memOnly _ _ _
  | .stSti _ => short_two _ _
  | .m64 _ => short_memOnly _ _ _

theorem fcomp : ∀ f : FComForm, Statement (.fcomp f)
  | .m32 _ => short_memOnly _ _ _
  | .stSti _ => short_two _ _
  | .m64 _ => short_memOnly _ _ _

theorem fsub : ∀ f : FArithForm, Statement (.fsub f)
  | .m32 _ => short_memOnly _ _ _
  | .stSti _ => short_two _ _
  | .m64 _ => short_memOnly _ _ _
  | .stiSt _ => short_two _ _

theorem fsubr : ∀ f : FArithForm, Statement (.fsubr f)
  | .m32 _ => short_memOnly _ _ _
  | .stSti _ => short_two _ _
  | .m64 _ => short_memOnly _ _ _
  | .stiSt _ => short_two _ _

theorem fdiv : ∀ f : FArithForm, Statement (.fdiv f)
  | .m32 _ => short_memOnly _ _ _
  | .stSti _ => short_two _ _
  | .m64 _ => short_memOnly _ _ _
  | .stiSt _ => short_two _ _

theorem fdivr : ∀ f : FArithForm, Statement (.fdivr f)
  | .m32 _ => short_memOnly _ _ _
  | .stSti _ => short_two _ _
  | .m64 _ => short_memOnly _ _ _
  | .stiSt _ => short_two _ _

theorem fld : ∀ f : FLoadForm, Statement (.fld f)
  | .m32 _ => short_memOnly _ _ _
  | .sti _ => short_two _ _
  | .m80 _ => short_memOnly _ _ _
  | .m64 _ => short_memOnly _ _ _

theorem escReserved : ∀ f : ReservedForm, Statement (.escReserved f)
  | .d9M1 _ => short_memOnly _ _ _
  | .dbM1 _ => short_memOnly _ _ _
  | .dbM4 _ => short_memOnly _ _ _
  | .dbM6 _ => short_memOnly _ _ _
  | .ddM1 _ => short_memOnly _ _ _
  | .ddM5 _ => short_memOnly _ _ _
  | .dfM1 _ => short_memOnly _ _ _

theorem fst : ∀ f : FStoreForm, Statement (.fst f)
  | .m32 _ => short_memOnly _ _ _
  | .m64 _ => short_memOnly _ _ _
  | .sti _ => short_two _ _

theorem fstp : ∀ f : FLoadForm, Statement (.fstp f)
  | .m32 _ => short_memOnly _ _ _
  | .m80 _ => short_memOnly _ _ _
  | .m64 _ => short_memOnly _ _ _
  | .sti _ => short_two _ _

theorem fldenv (m : MemOp) : Statement (.fldenv m) := short_memOnly _ _ _

theorem fldcw (m : MemOp) : Statement (.fldcw m) := short_memOnly _ _ _

theorem fnstenv (m : MemOp) : Statement (.fnstenv m) := short_memOnly _ _ _

theorem fnstcw (m : MemOp) : Statement (.fnstcw m) := short_memOnly _ _ _

theorem fxch (i : Fin 8) : Statement (.fxch i) := short_two _ _

theorem fnop (i : Fin 8) : Statement (.fnop i) := short_two _ _

theorem escD9D8 (i : Fin 8) : Statement (.escD9D8 i) := short_two _ _

theorem fchsGroup (i : Fin 8) : Statement (.fchsGroup i) := short_two _ _

theorem fld1Group (i : Fin 8) : Statement (.fld1Group i) := short_two _ _

theorem f2xm1Group (i : Fin 8) : Statement (.f2xm1Group i) := short_two _ _

theorem fpremGroup (i : Fin 8) : Statement (.fpremGroup i) := short_two _ _

theorem fiadd : ∀ f : FIntForm, Statement (.fiadd f)
  | .m32 _ => short_memOnly _ _ _
  | .m16 _ => short_memOnly _ _ _

theorem fimul : ∀ f : FIntForm, Statement (.fimul f)
  | .m32 _ => short_memOnly _ _ _
  | .m16 _ => short_memOnly _ _ _

theorem ficom : ∀ f : FIntForm, Statement (.ficom f)
  | .m32 _ => short_memOnly _ _ _
  | .m16 _ => short_memOnly _ _ _

theorem ficomp : ∀ f : FIntForm, Statement (.ficomp f)
  | .m32 _ => short_memOnly _ _ _
  | .m16 _ => short_memOnly _ _ _

theorem fisub : ∀ f : FIntForm, Statement (.fisub f)
  | .m32 _ => short_memOnly _ _ _
  | .m16 _ => short_memOnly _ _ _

theorem fisubr : ∀ f : FIntForm, Statement (.fisubr f)
  | .m32 _ => short_memOnly _ _ _
  | .m16 _ => short_memOnly _ _ _

theorem fidiv : ∀ f : FIntForm, Statement (.fidiv f)
  | .m32 _ => short_memOnly _ _ _
  | .m16 _ => short_memOnly _ _ _

theorem fidivr : ∀ f : FIntForm, Statement (.fidivr f)
  | .m32 _ => short_memOnly _ _ _
  | .m16 _ => short_memOnly _ _ _

theorem escDaC0 (i : Fin 8) : Statement (.escDaC0 i) := short_two _ _

theorem escDaC8 (i : Fin 8) : Statement (.escDaC8 i) := short_two _ _

theorem escDaD0 (i : Fin 8) : Statement (.escDaD0 i) := short_two _ _

theorem escDaD8 (i : Fin 8) : Statement (.escDaD8 i) := short_two _ _

theorem escDaE0 (i : Fin 8) : Statement (.escDaE0 i) := short_two _ _

theorem fucompp (i : Fin 8) : Statement (.fucompp i) := short_two _ _

theorem escDaF0 (i : Fin 8) : Statement (.escDaF0 i) := short_two _ _

theorem escDaF8 (i : Fin 8) : Statement (.escDaF8 i) := short_two _ _

theorem fild : ∀ f : FIntLoadForm, Statement (.fild f)
  | .m32 _ => short_memOnly _ _ _
  | .m16 _ => short_memOnly _ _ _
  | .m64 _ => short_memOnly _ _ _

theorem fist : ∀ f : FIntForm, Statement (.fist f)
  | .m32 _ => short_memOnly _ _ _
  | .m16 _ => short_memOnly _ _ _

theorem fistp : ∀ f : FIntLoadForm, Statement (.fistp f)
  | .m32 _ => short_memOnly _ _ _
  | .m16 _ => short_memOnly _ _ _
  | .m64 _ => short_memOnly _ _ _

theorem escDbC0 (i : Fin 8) : Statement (.escDbC0 i) := short_two _ _

theorem escDbC8 (i : Fin 8) : Statement (.escDbC8 i) := short_two _ _

theorem escDbD0 (i : Fin 8) : Statement (.escDbD0 i) := short_two _ _

theorem escDbD8 (i : Fin 8) : Statement (.escDbD8 i) := short_two _ _

theorem feniGroup (i : Fin 8) : Statement (.feniGroup i) := short_two _ _

theorem escDbE8 (i : Fin 8) : Statement (.escDbE8 i) := short_two _ _

theorem escDbF0 (i : Fin 8) : Statement (.escDbF0 i) := short_two _ _

theorem escDbF8 (i : Fin 8) : Statement (.escDbF8 i) := short_two _ _

theorem escDcD0 (i : Fin 8) : Statement (.escDcD0 i) := short_two _ _

theorem escDcD8 (i : Fin 8) : Statement (.escDcD8 i) := short_two _ _

theorem frstor (m : MemOp) : Statement (.frstor m) := short_memOnly _ _ _

theorem fnsave (m : MemOp) : Statement (.fnsave m) := short_memOnly _ _ _

theorem fnstsw (m : MemOp) : Statement (.fnstsw m) := short_memOnly _ _ _

theorem ffree (i : Fin 8) : Statement (.ffree i) := short_two _ _

theorem escDdC8 (i : Fin 8) : Statement (.escDdC8 i) := short_two _ _

theorem fucom (i : Fin 8) : Statement (.fucom i) := short_two _ _

theorem fucomp (i : Fin 8) : Statement (.fucomp i) := short_two _ _

theorem escDdF0 (i : Fin 8) : Statement (.escDdF0 i) := short_two _ _

theorem escDdF8 (i : Fin 8) : Statement (.escDdF8 i) := short_two _ _

theorem faddp (i : Fin 8) : Statement (.faddp i) := short_two _ _

theorem fmulp (i : Fin 8) : Statement (.fmulp i) := short_two _ _

theorem escDeD0 (i : Fin 8) : Statement (.escDeD0 i) := short_two _ _

theorem fcompp (i : Fin 8) : Statement (.fcompp i) := short_two _ _

theorem fsubrp (i : Fin 8) : Statement (.fsubrp i) := short_two _ _

theorem fsubp (i : Fin 8) : Statement (.fsubp i) := short_two _ _

theorem fdivrp (i : Fin 8) : Statement (.fdivrp i) := short_two _ _

theorem fdivp (i : Fin 8) : Statement (.fdivp i) := short_two _ _

theorem fbld (m : MemOp) : Statement (.fbld m) := short_memOnly _ _ _

theorem fbstp (m : MemOp) : Statement (.fbstp m) := short_memOnly _ _ _

theorem escDfC0 (i : Fin 8) : Statement (.escDfC0 i) := short_two _ _

theorem escDfC8 (i : Fin 8) : Statement (.escDfC8 i) := short_two _ _

theorem escDfD0 (i : Fin 8) : Statement (.escDfD0 i) := short_two _ _

theorem escDfD8 (i : Fin 8) : Statement (.escDfD8 i) := short_two _ _

theorem fnstswAx (i : Fin 8) : Statement (.fnstswAx i) := short_two _ _

theorem escDfE8 (i : Fin 8) : Statement (.escDfE8 i) := short_two _ _

theorem escDfF0 (i : Fin 8) : Statement (.escDfF0 i) := short_two _ _

theorem escDfF8 (i : Fin 8) : Statement (.escDfF8 i) := short_two _ _

theorem loopne (imm : Byte) : Statement (.loopne imm) := short_two _ _

theorem loope (imm : Byte) : Statement (.loope imm) := short_two _ _

theorem loop (imm : Byte) : Statement (.loop imm) := short_two _ _

theorem jcxz (imm : Byte) : Statement (.jcxz imm) := short_two _ _

theorem inPort : ∀ f : InForm, Statement (.inPort f)
  | .alIb _ => short_two _ _
  | .eaxIb _ => short_two _ _
  | .alDx => short_one _
  | .eaxDx => short_one _

theorem outPort : ∀ f : OutForm, Statement (.outPort f)
  | .ibAl _ => short_two _ _
  | .ibEax _ => short_two _ _
  | .dxAl => short_one _
  | .dxEax => short_one _

theorem jmp : ∀ f : JmpForm, Statement (.jmp f)
  | .jv _ => short_immOnly _ _
  | .farAp _ => short_farOnly _ _
  | .jb _ => short_two _ _
  | .ev _ => short_rmOnly _ _ _
  | .farMp _ => short_memOnly _ _ _

theorem hlt : Statement .hlt := short_one _

theorem cmc : Statement .cmc := short_one _

theorem not : ∀ f : UnaryForm, Statement (.not f)
  | .eb _ => short_rmOnly _ _ _
  | .ev _ => short_rmOnly _ _ _

theorem neg : ∀ f : UnaryForm, Statement (.neg f)
  | .eb _ => short_rmOnly _ _ _
  | .ev _ => short_rmOnly _ _ _

theorem mul : ∀ f : UnaryForm, Statement (.mul f)
  | .eb _ => short_rmOnly _ _ _
  | .ev _ => short_rmOnly _ _ _

theorem div : ∀ f : UnaryForm, Statement (.div f)
  | .eb _ => short_rmOnly _ _ _
  | .ev _ => short_rmOnly _ _ _

theorem idiv : ∀ f : UnaryForm, Statement (.idiv f)
  | .eb _ => short_rmOnly _ _ _
  | .ev _ => short_rmOnly _ _ _

theorem clc : Statement .clc := short_one _

theorem stc : Statement .stc := short_one _

theorem cli : Statement .cli := short_one _

theorem sti : Statement .sti := short_one _

theorem cld : Statement .cld := short_one _

theorem std : Statement .std := short_one _

theorem sldt (rm : RM) : Statement (.sldt rm) := short_rmLong _ _ _ _

theorem str (rm : RM) : Statement (.str rm) := short_rmLong _ _ _ _

theorem lldt (rm : RM) : Statement (.lldt rm) := short_rmLong _ _ _ _

theorem ltr (rm : RM) : Statement (.ltr rm) := short_rmLong _ _ _ _

theorem verr (rm : RM) : Statement (.verr rm) := short_rmLong _ _ _ _

theorem verw (rm : RM) : Statement (.verw rm) := short_rmLong _ _ _ _

theorem sgdt (m : MemOp) : Statement (.sgdt m) := short_memLong _ _ _ _

theorem sidt (m : MemOp) : Statement (.sidt m) := short_memLong _ _ _ _

theorem lgdt (m : MemOp) : Statement (.lgdt m) := short_memLong _ _ _ _

theorem lidt (m : MemOp) : Statement (.lidt m) := short_memLong _ _ _ _

theorem smsw (rm : RM) : Statement (.smsw rm) := short_rmLong _ _ _ _

theorem lmsw (rm : RM) : Statement (.lmsw rm) := short_rmLong _ _ _ _

theorem lar (r : Fin 8) (rm : RM) : Statement (.lar r rm) := short_rmLong _ _ _ _

theorem lsl (r : Fin 8) (rm : RM) : Statement (.lsl r rm) := short_rmLong _ _ _ _

theorem clts : Statement .clts := short_two _ _

theorem seto (rm : RM) : Statement (.seto rm) := short_rmLong _ _ _ _

theorem setno (rm : RM) : Statement (.setno rm) := short_rmLong _ _ _ _

theorem setb (rm : RM) : Statement (.setb rm) := short_rmLong _ _ _ _

theorem setae (rm : RM) : Statement (.setae rm) := short_rmLong _ _ _ _

theorem sete (rm : RM) : Statement (.sete rm) := short_rmLong _ _ _ _

theorem setne (rm : RM) : Statement (.setne rm) := short_rmLong _ _ _ _

theorem setbe (rm : RM) : Statement (.setbe rm) := short_rmLong _ _ _ _

theorem seta (rm : RM) : Statement (.seta rm) := short_rmLong _ _ _ _

theorem sets (rm : RM) : Statement (.sets rm) := short_rmLong _ _ _ _

theorem setns (rm : RM) : Statement (.setns rm) := short_rmLong _ _ _ _

theorem setp (rm : RM) : Statement (.setp rm) := short_rmLong _ _ _ _

theorem setnp (rm : RM) : Statement (.setnp rm) := short_rmLong _ _ _ _

theorem setl (rm : RM) : Statement (.setl rm) := short_rmLong _ _ _ _

theorem setge (rm : RM) : Statement (.setge rm) := short_rmLong _ _ _ _

theorem setle (rm : RM) : Statement (.setle rm) := short_rmLong _ _ _ _

theorem setg (rm : RM) : Statement (.setg rm) := short_rmLong _ _ _ _

theorem pushFs : Statement .pushFs := short_two _ _

theorem popFs : Statement .popFs := short_two _ _

theorem pushGs : Statement .pushGs := short_two _ _

theorem popGs : Statement .popGs := short_two _ _

theorem bt : ∀ f : BitForm, Statement (.bt f)
  | .evGv _ _ => short_rmLong _ _ _ _
  | .evIb _ _ => short_rmLongByte _ _ _ _ _

theorem shld : ∀ f : ShdForm, Statement (.shld f)
  | .evGvIb _ _ _ => short_rmLongByte _ _ _ _ _
  | .evGvCl _ _ => short_rmLong _ _ _ _

theorem xbts (r : Fin 8) (rm : RM) : Statement (.xbts r rm) := short_rmLong _ _ _ _

theorem ibts (rm : RM) (r : Fin 8) : Statement (.ibts rm r) := short_rmLong _ _ _ _

theorem bts : ∀ f : BitForm, Statement (.bts f)
  | .evGv _ _ => short_rmLong _ _ _ _
  | .evIb _ _ => short_rmLongByte _ _ _ _ _

theorem shrd : ∀ f : ShdForm, Statement (.shrd f)
  | .evGvIb _ _ _ => short_rmLongByte _ _ _ _ _
  | .evGvCl _ _ => short_rmLong _ _ _ _

theorem lss (r : Fin 8) (m : MemOp) : Statement (.lss r m) := short_memLong _ _ _ _

theorem btr : ∀ f : BitForm, Statement (.btr f)
  | .evGv _ _ => short_rmLong _ _ _ _
  | .evIb _ _ => short_rmLongByte _ _ _ _ _

theorem lfs (r : Fin 8) (m : MemOp) : Statement (.lfs r m) := short_memLong _ _ _ _

theorem lgs (r : Fin 8) (m : MemOp) : Statement (.lgs r m) := short_memLong _ _ _ _

theorem movzx : ∀ f : MovxForm, Statement (.movzx f)
  | .gvEb _ _ => short_rmLong _ _ _ _
  | .gvEw _ _ => short_rmLong _ _ _ _

theorem btc : ∀ f : BitForm, Statement (.btc f)
  | .evIb _ _ => short_rmLongByte _ _ _ _ _
  | .evGv _ _ => short_rmLong _ _ _ _

theorem bsf (r : Fin 8) (rm : RM) : Statement (.bsf r rm) := short_rmLong _ _ _ _

theorem bsr (r : Fin 8) (rm : RM) : Statement (.bsr r rm) := short_rmLong _ _ _ _

theorem movsx : ∀ f : MovxForm, Statement (.movsx f)
  | .gvEb _ _ => short_rmLong _ _ _ _
  | .gvEw _ _ => short_rmLong _ _ _ _

theorem prefixEs : Statement .prefixEs := short_one _

theorem prefixCs : Statement .prefixCs := short_one _

theorem prefixSs : Statement .prefixSs := short_one _

theorem prefixDs : Statement .prefixDs := short_one _

theorem prefixFs : Statement .prefixFs := short_one _

theorem prefixGs : Statement .prefixGs := short_one _

theorem prefixOpsize : Statement .prefixOpsize := short_one _

theorem prefixAdsize : Statement .prefixAdsize := short_one _

theorem prefixLock : Statement .prefixLock := short_one _

theorem prefixRepne : Statement .prefixRepne := short_one _

theorem prefixRep : Statement .prefixRep := short_one _

end Sys2Proof.Laws.ShortEncoding
end

