-- ==== Sys2Proof/Laws/Steps.lean ====
section
/-!
SUPPORT. How an instruction ends: from its steps to its outcome.
-/
namespace Sys2Proof.Machine

theorem checkPrefixes_run {s : State} {lockable : Bool} (h : s.prefixesOk lockable) :
    checkPrefixes lockable s.begun = .ok () s.begun := by
  obtain ⟨h1, h2⟩ := h
  have hr : s.begun.pfx.rep = none := h1
  have hl : (!s.begun.pfx.lock || lockable) = true := by
    cases hk : s.pfx.lock
    · simp [State.begun, hk]
    · simp [h2 hk]
  simp only [checkPrefixes, M_get, hr, hl, M_bind, require_true_run, Option.isSome_none]
  rfl

/-- An instruction whose prefixes are legal and whose steps end well completes. -/
theorem withLock_next {s t : State} {lockable : Bool} {body : M Unit} (hp : s.prefixesOk lockable)
    (hb : body s.begun = .ok () t) : withLock lockable body s = .next (retire s t .next) := by
  have h : (do checkPrefixes lockable; body; return Retire.next : M Retire) s.begun = .ok .next t := by
    simp only [M_bind, checkPrefixes_run hp, hb, M_pure]
  exact congrArg (conclude s) h

theorem plain_next {s t : State} {body : M Unit} (hp : s.prefixesOk false) (hb : body s.begun = .ok () t) :
    plain body s = .next (retire s t .next) := withLock_next hp hb

theorem transfer_next {s t : State} {r : Retire} {body : M Retire} (hp : s.prefixesOk false)
    (hb : body s.begun = .ok r t) : transfer body s = .next (retire s t r) := by
  have h : (do checkPrefixes false; body : M Retire) s.begun = .ok r t := by
    simp only [M_bind, checkPrefixes_run hp, hb]
  exact congrArg (conclude s) h

theorem runSteps_next {s t : State} {r : Retire} {body : M Retire} (hb : body s.begun = .ok r t) :
    runSteps body s = .next (retire s t r) := congrArg (conclude s) hb

/-- An exception other than 8 that the steps of an instruction raise is delivered as a fault. -/
theorem conclude_exc {s t : State} {v : Byte} {c : Option Word32} (hv : v ≠ 8) :
    conclude s (.error (.exc { vector := v, code := c, newTask := false }) t) =
      deliver (s.rollback t) (s.faultEvent v c) := by
  simp only [conclude, Bool.false_eq_true, if_false]
  exact if_neg hv

theorem withLock_exc {s t : State} {lockable : Bool} {body : M Unit} {v : Byte} {c : Option Word32}
    (hp : s.prefixesOk lockable) (hv : v ≠ 8) (hb : body s.begun = .error (.exc { vector := v, code := c, newTask := false }) t) :
    withLock lockable body s = deliver (s.rollback t) (s.faultEvent v c) := by
  have h : (do checkPrefixes lockable; body; return Retire.next : M Retire) s.begun =
      .error (.exc { vector := v, code := c, newTask := false }) t := by
    simp only [M_bind, checkPrefixes_run hp, hb]
  exact (congrArg (conclude s) h).trans (conclude_exc hv)

theorem plain_exc {s t : State} {body : M Unit} {v : Byte} {c : Option Word32} (hp : s.prefixesOk false)
    (hv : v ≠ 8) (hb : body s.begun = .error (.exc { vector := v, code := c, newTask := false }) t) :
    plain body s = deliver (s.rollback t) (s.faultEvent v c) := withLock_exc hp hv hb

theorem transfer_exc {s t : State} {body : M Retire} {v : Byte} {c : Option Word32} (hp : s.prefixesOk false)
    (hv : v ≠ 8) (hb : body s.begun = .error (.exc { vector := v, code := c, newTask := false }) t) :
    transfer body s = deliver (s.rollback t) (s.faultEvent v c) := by
  have h : (do checkPrefixes false; body : M Retire) s.begun =
      .error (.exc { vector := v, code := c, newTask := false }) t := by
    simp only [M_bind, checkPrefixes_run hp, hb]
  exact (congrArg (conclude s) h).trans (conclude_exc hv)

/-- LOCK where it is not legal is exception 6 (R101). -/
theorem withLock_lock {s : State} {lockable : Bool} {body : M Unit} (h : s.pfx.lock = true) (hl : lockable = false) :
    withLock lockable body s = deliver (s.rollback s.begun) (s.faultEvent 6 none) := by
  have hk : s.begun.pfx.lock = true := h
  have h : (do checkPrefixes lockable; body; return Retire.next : M Retire) s.begun =
      .error (.exc { vector := 6, code := none, newTask := false }) s.begun := by
    simp only [M_bind, checkPrefixes, M_get, hk, hl, Bool.not_true, Bool.or_false, require_false_run]
  exact (congrArg (conclude s) h).trans (conclude_exc (by decide))

end Sys2Proof.Machine
end

