-- ==== Sys2Proof/Tests/Slice0.lean ====
section
/-!
SUPPORT. Tests: ill-formed terms that the checks of WellFormed.lean refuse, words written out from the encoding tables of
30_encoding.md, the worked examples of the rules, and for the hypotheses of every statement a state and operands that
meet them (`witness_<statement>`), clause by clause.
-/
namespace Sys2Proof.Tests

open Sys2Proof.Machine Sys2Proof.Claims

/-! ## Ill-formed terms -/

theorem test_wf_imm_width : (Instr.add (.eaxIv (.w 1))).wellFormed .s32 .s32 = false := by decide

theorem test_wf_imm_width16 : (Instr.add (.eaxIv (.d 1))).wellFormed .s16 .s16 = false := by decide

theorem test_wf_disp16 : (Instr.lea 0 (.based16 .bp .none)).wellFormed .s16 .s16 = false := by decide

theorem test_wf_disp32 : (Instr.lea 0 (.based32 5 .none)).wellFormed .s32 .s32 = false := by decide

theorem test_wf_sib_disp32 : (Instr.lea 0 (.sib 0 1 5 .none)).wellFormed .s32 .s32 = false := by decide

theorem test_wf_esp_base : (Instr.lea 0 (.based32 4 .none)).wellFormed .s32 .s32 = false := by decide

theorem test_wf_address_size : (Instr.lea 0 (.direct32 0)).wellFormed .s32 .s16 = false := by decide

theorem test_wf_rm : (Instr.add (.ebGb (.mem (.direct16 0)) 0)).wellFormed .s32 .s32 = false := by decide

theorem test_wf_far_pointer : (Instr.jmp (.farAp { sel := 8, off := .w 0 })).wellFormed .s32 .s32 = false := by decide

theorem test_wf_mov_cs : (Instr.mov (.swEw .cs (.reg 0))).wellFormed .s32 .s32 = false := by decide

theorem test_wf_xchg_eax : (Instr.xchg (.eaxR 0)).wellFormed .s32 .s32 = false := by decide

theorem test_wf_mov_offset : (Instr.mov (.alOb (.d 0))).wellFormed .s32 .s16 = false := by decide

theorem test_wf_special_registers : (Instr.mov (.r32Cr 0 1)).wellFormed .s32 .s32 = false ∧
    (Instr.mov (.drR32 4 0)).wellFormed .s32 .s32 = false ∧ (Instr.mov (.r32Tr 0 5)).wellFormed .s32 .s32 = false := by
  decide

/-! ## Decoding, one word and more for each family -/

theorem test_decode_mov : decode .s32 .s32 [0x89, 0xD8] = some (.instr (.mov (.evGv (.reg 0) 3)), []) := by decide

theorem test_decode_lea :
    decode .s32 .s32 [0x8D, 0x44, 0x88, 0x10] = some (.instr (.lea 0 (.sib 2 1 0 (.d8 0x10))), []) := by decide

theorem test_decode_add : decode .s16 .s16 [0x83, 0x47, 0x02, 0xFF] =
    some (.instr (.add (.evIbs (.mem (.based16 .bx (.d8 2))) 0xFF)), []) := by decide

theorem test_decode_shift : decode .s32 .s32 [0xC1, 0xE0, 0x04] = some (.instr (.shl (.evIb (.reg 0) 4)), []) := by decide

theorem test_decode_shld : decode .s32 .s32 [0x0F, 0xA4, 0xD8, 0x08] =
    some (.instr (.shld (.evGvIb (.reg 0) 3 8)), []) := by decide

theorem test_decode_div : decode .s16 .s16 [0xF6, 0xF3] = some (.instr (.div (.eb (.reg 3))), []) := by decide

theorem test_decode_bit : decode .s32 .s32 [0x0F, 0xBA, 0xE0, 0x03] = some (.instr (.bt (.evIb (.reg 0) 3)), []) := by
  decide

theorem test_decode_string : decode .s32 .s32 [0xA5] = some (.instr .movswD, []) := by decide

theorem test_decode_push : decode .s32 .s32 [0x6A, 0xFF] = some (.instr (.push (.ibs 0xFF)), []) := by decide

theorem test_decode_jcc : decode .s32 .s32 [0x0F, 0x84, 0x10, 0, 0, 0] = some (.instr (.je (.jv (.d 0x10))), []) := by
  decide

theorem test_decode_far_call : decode .s16 .s16 [0x9A, 0x34, 0x12, 0x78, 0x56] =
    some (.instr (.call (.farAp { sel := 0x5678, off := .w 0x1234 })), []) := by decide

theorem test_decode_system : decode .s16 .s16 [0x0F, 0x01, 0x16, 0x00, 0x05] =
    some (.instr (.lgdt (.direct16 0x0500)), []) := by decide

theorem test_decode_in : decode .s16 .s16 [0xE4, 0x60] = some (.instr (.inPort (.alIb 0x60)), []) := by decide

theorem test_decode_coprocessor : decode .s16 .s16 [0xD8, 0xC1] = some (.instr (.fadd (.stSti 1)), []) := by decide

theorem test_decode_prefix : decode .s16 .s16 [0xF3] = some (.instr .prefixRep, []) := by decide

theorem test_decode_setcc : decode .s16 .s16 [0x0F, 0x94, 0xC0] = some (.instr (.sete (.reg 0)), []) := by decide

theorem test_decode_undocumented : decode .s16 .s16 [0xD6] = some (.undocumented, []) := by decide

theorem test_table_word : decodeTableWord 24 0x30BA0F = some (.btr (.evIb (.mem (.based16 .bxSi .none)) 0)) := by
  decide

/-! ## States -/

/-- The cells of a list of bytes at an address. -/
def cells (a : Nat) (bs : List Nat) : List Host.Cell :=
  (List.range bs.length).filterMap fun k =>
    match bs[k]? with
    | some b => if b = 0 then none else some (a + k, BitVec.ofNat 8 b)
    | none => none

/-- Real mode, after reset, with an instruction at 0FFF0H done. -/
def real : State := { State.reset with nextEip := 0xFFF2, regs := #v[0x1234, 2, 3, 4, 0x100, 0x200, 5, 6] }

/-- A flat segment of 32 bits. -/
def flat : SegReg := { SegReg.dataAtReset with selector := 0x10, limit := 0xFFFFFFFF, db := true }

/-- The descriptor tables of `prot`: at 1000H code and data of level 0, code and data of level 3, an LDT, task state
segments at 3000H, 3100H and, free and busy, at 3200H, and a call gate into level 0 with two parameters; at 2000H gates for
vectors 0, 1, 3 and 13, the third for every level, and task gates for vectors 14 and 15. -/
def tables : List Host.Cell :=
  cells 0x1008 [0xFF, 0xFF, 0, 0, 0, 0x9B, 0xCF, 0] ++ cells 0x1010 [0xFF, 0xFF, 0, 0, 0, 0x93, 0xCF, 0] ++
  cells 0x1018 [0xFF, 0xFF, 0, 0, 0, 0xFB, 0xCF, 0] ++ cells 0x1020 [0xFF, 0xFF, 0, 0, 0, 0xF3, 0xCF, 0] ++
  cells 0x1028 [0xFF, 0, 0, 0x18, 0, 0x82, 0, 0] ++ cells 0x1030 [0x67, 0, 0, 0x30, 0, 0x89, 0, 0] ++
  cells 0x1038 [0x67, 0, 0, 0x31, 0, 0x89, 0, 0] ++ cells 0x1040 [0x67, 0, 0, 0x32, 0, 0x89, 0, 0] ++
  cells 0x1048 [0x67, 0, 0, 0x32, 0, 0x8B, 0, 0] ++ cells 0x1050 [0, 5, 8, 0, 2, 0xEC, 0, 0] ++
  cells 0x2000 [0, 5, 8, 0, 0, 0x8E, 0, 0] ++ cells 0x2008 [0, 6, 8, 0, 0, 0x8F, 0, 0] ++
  cells 0x2018 [0, 7, 8, 0, 0, 0xEE, 0, 0] ++ cells 0x2068 [0, 8, 8, 0, 0, 0x8E, 0, 0] ++
  cells 0x2070 [0, 0, 0x38, 0, 0, 0x85, 0, 0] ++ cells 0x2078 [0, 0, 0x40, 0, 0, 0x85, 0, 0]

/-- The task state segments: the one at 3000H with a back link to 0048H and the stack of level 0, the one at 3100H empty, and
at 3200H a task of level 0 at 0100H. -/
def tasks : List Host.Cell :=
  cells 0x3000 [0x48, 0, 0, 0, 0, 0x40, 0, 0, 0x10, 0] ++ cells 0x3220 [0, 1, 0, 0, 2] ++ cells 0x3238 [0, 0x40] ++
  cells 0x324C [8] ++ cells 0x3250 [0x10]

/-- Protected mode at level 0, flat segments of 32 bits. -/
def prot : State :=
  { real with
    cr0 := { real.cr0 with pe := true }
    cs := { flat with selector := 8, code := true }, ss := flat, ds := flat, es := flat, fs := flat, gs := flat
    gdtr := { base := 0x1000, limit := 0x57 }, idtr := { base := 0x2000, limit := 0x1F }
    tr := { selector := 0x30, base := 0x3000, limit := 0x67, is386 := true }, mem := tables ++ tasks }

/-- Protected mode at level 3. -/
def user : State :=
  { prot with
    cpl := 3, cs := { flat with selector := 0x1B, code := true, dpl := 3 }, ss := { flat with selector := 0x23, dpl := 3 } }

/-- Virtual-8086 mode with IOPL 3. -/
def virtual : State :=
  { prot with
    cpl := 3, flags := { prot.flags with vm := true, iopl := 3 }, cs := SegReg.v86 0, ss := SegReg.v86 0,
    ds := SegReg.v86 0, es := SegReg.v86 0, fs := SegReg.v86 0, gs := SegReg.v86 0 }

/-- Paging: a directory at 8000H with a read-only user table at 9000H, whose entry 1 maps page 1 to frame 5. -/
def paged : State :=
  { prot with
    cr0 := { prot.cr0 with pg := true }, cr3 := 0x8000, mem := cells 0x8000 [0x07, 0x90] ++ cells 0x9004 [0x05, 0x50] }

/-- `s` with bytes of physical memory changed: addresses and values. -/
def patched (s : State) (l : List (Nat × Nat)) : State :=
  l.foldl (fun t p => t.setPhysBytes [BitVec.ofNat 32 p.1] [BitVec.ofNat 8 p.2]) s

/-- `s` with a value in EAX. -/
def selecting (s : State) (v : Word32) : State := { s with regs := s.regs.set 0 v }

/-- `s` with a stack segment that ends at `n`. -/
def stackTo (s : State) (n : Word32) : State := { s with ss := { s.ss with limit := n } }

/-- `s` with a stack segment that cannot be written. -/
def stackReadOnly (s : State) : State := { s with ss := { s.ss with writable := false } }

/-- The tables and the tasks lie in memory in its canonical form. -/
theorem test_tables_canonical : Memory.wf prot.mem = true := by decide

/-- A register after an instruction. -/
def regAfter (i : Instr) (s : State) (r : Fin 8) : Option Word32 :=
  match exec i s with
  | .next t => some (t.reg32 r)
  | _ => none

/-- A fact about the state after an instruction. -/
def holdsAfter (i : Instr) (s : State) (p : State → Bool) : Bool :=
  match exec i s with
  | .next t => p t
  | _ => false

/-! ## Worked examples of the rules -/

/-- R310: AL = 80H, 66 98 in a 32-bit segment gives AX = FF80H. -/
theorem test_cbw : regAfter .cbwCwde
    { prot with pfx := { Pfx.none with o66 := true, count := 1 }, regs := #v[0x80, 0, 0, 0, 0, 0, 0, 0] } 0 =
    some 0xFF80 := by decide

/-- R311: EAX = 80000000H, 99 gives EDX = FFFFFFFFH. -/
theorem test_cdq : regAfter .cwdCdq { prot with regs := #v[0x80000000, 0, 0, 0, 0, 0, 0, 0] } 2 = some 0xFFFFFFFF := by
  decide

/-- R312: 8D 44 88 10 with EAX = 1000H, ECX = 3 gives EAX = 101CH. -/
theorem test_lea : regAfter (.lea 0 (.sib 2 1 0 (.d8 0x10))) { prot with regs := #v[0x1000, 3, 0, 0, 0, 0, 0, 0] } 0 =
    some 0x101C := by decide

/-- R341: 24 0F with AL = 5AH gives AL = 0AH, ZF = 0, SF = 0, PF = 1, CF = OF = 0. -/
theorem test_and : holdsAfter (.and (.alIb 0x0F)) { real with regs := #v[0x5A, 0, 0, 0, 0, 0, 0, 0] } (fun t =>
    t.reg32 0 == 0x0A && !t.flags.zf && !t.flags.sf && t.flags.pf && !t.flags.cf && !t.flags.ovf) = true := by decide

/-- R368: SHLD EAX,EBX,8 of 12345678H and 9ABCDEF0H gives 3456789AH, CF = 0. -/
theorem test_shld : holdsAfter (.shld (.evGvIb (.reg 0) 3 8))
    { prot with regs := #v[0x12345678, 0, 0, 0x9ABCDEF0, 0, 0, 0, 0] } (fun t =>
    t.reg32 0 == 0x3456789A && !t.flags.cf) = true := by decide

/-- R369: SHRD EAX,EBX,8 gives F0123456H, CF = 0. -/
theorem test_shrd : holdsAfter (.shrd (.evGvIb (.reg 0) 3 8))
    { prot with regs := #v[0x12345678, 0, 0, 0x9ABCDEF0, 0, 0, 0, 0] } (fun t =>
    t.reg32 0 == 0xF0123456 && !t.flags.cf) = true := by decide

/-- R387: 40 with EAX = FFFFFFFFH, CF = 0 gives EAX = 0, ZF = 1, AF = 1, OF = 0, PF = 1, CF = 0. -/
theorem test_inc : holdsAfter (.inc (.r 0)) { prot with regs := #v[0xFFFFFFFF, 0, 0, 0, 0, 0, 0, 0] } (fun t =>
    t.reg32 0 == 0 && t.flags.zf && t.flags.af && !t.flags.ovf && t.flags.pf && !t.flags.cf) = true := by decide

/-- R388: 48 with EAX = 80000000H gives EAX = 7FFFFFFFH, OF = 1, SF = 0, ZF = 0, AF = 1, PF = 1. -/
theorem test_dec : holdsAfter (.dec (.r 0)) { prot with regs := #v[0x80000000, 0, 0, 0, 0, 0, 0, 0] } (fun t =>
    t.reg32 0 == 0x7FFFFFFF && t.flags.ovf && !t.flags.sf && !t.flags.zf && t.flags.af && t.flags.pf) = true := by decide

/-- R389: F6 D8 with AL = 80H gives AL = 80H, CF = 1, OF = 1. -/
theorem test_neg : holdsAfter (.neg (.eb (.reg 0))) { prot with regs := #v[0x80, 0, 0, 0, 0, 0, 0, 0] } (fun t =>
    t.reg32 0 == 0x80 && t.flags.cf && t.flags.ovf) = true := by decide

/-- R392: F6 E3 with AL = 10H, BL = 10H gives AX = 0100H, CF = OF = 1. -/
theorem test_mul : holdsAfter (.mul (.eb (.reg 3))) { prot with regs := #v[0x10, 0, 0, 0x10, 0, 0, 0, 0] } (fun t =>
    t.reg32 0 == 0x100 && t.flags.cf && t.flags.ovf) = true := by decide

/-- R393: F6 EB with AL = FFH, BL = 02H gives AX = FFFEH, CF = OF = 0. -/
theorem test_imul : holdsAfter (.imul (.eb (.reg 3))) { prot with regs := #v[0xFF, 0, 0, 2, 0, 0, 0, 0] } (fun t =>
    t.reg32 0 == 0xFFFE && !t.flags.cf && !t.flags.ovf) = true := by decide

/-- R396: F6 F3 with AX = 0064H, BL = 07H gives AL = 0EH, AH = 02H. -/
theorem test_div : regAfter (.div (.eb (.reg 3))) { prot with regs := #v[0x64, 0, 0, 7, 0, 0, 0, 0] } 0 = some 0x020E := by
  decide

/-- R397: F6 FB with AX = FF9CH, BL = 07H gives AL = F2H, AH = FEH. -/
theorem test_idiv : regAfter (.idiv (.eb (.reg 3))) { prot with regs := #v[0xFF9C, 0, 0, 7, 0, 0, 0, 0] } 0 =
    some 0xFEF2 := by decide

/-- R400: AL = 3CH after 15H + 27H, AF = 0: 27 gives AL = 42H, AF = 1, CF = 0. -/
theorem test_daa : holdsAfter .daa { prot with regs := #v[0x3C, 0, 0, 0, 0, 0, 0, 0] } (fun t =>
    t.reg32 0 == 0x42 && t.flags.af && !t.flags.cf) = true := by decide

/-- R403: AX = 01FDH, AF = 1: 3F gives AX = 0007H, CF = 1. -/
theorem test_aas : holdsAfter .aas
    { prot with regs := #v[0x01FD, 0, 0, 0, 0, 0, 0, 0], flags := { prot.flags with af := true } } (fun t =>
    t.reg32 0 == 7 && t.flags.cf) = true := by decide

/-- R405: AX = 0603H, D5 0A gives AX = 003FH. -/
theorem test_aad : regAfter (.aad 0x0A) { prot with regs := #v[0x0603, 0, 0, 0, 0, 0, 0, 0] } 0 = some 0x3F := by decide

/-- R456, R457: EBX = 00000018H gives 3 for BSF and 4 for BSR. -/
theorem test_scan : regAfter (.bsf 0 (.reg 3)) { prot with regs := #v[9, 0, 0, 0x18, 0, 0, 0, 0] } 0 = some 3 ∧
    regAfter (.bsr 0 (.reg 3)) { prot with regs := #v[9, 0, 0, 0x18, 0, 0, 0, 0] } 0 = some 4 := by decide

/-- R495: ECX = 1: E2 FE gives ECX = 0 and falls through; ECX = 2 gives ECX = 1 and branches to itself. -/
theorem test_loop :
    holdsAfter (.loop 0xFE) { prot with regs := #v[0, 1, 0, 0, 0, 0, 0, 0], eip := 0x100, nextEip := 0x102 } (fun t =>
      t.reg32 1 == 0 && t.eip == 0x102) = true ∧
    holdsAfter (.loop 0xFE) { prot with regs := #v[0, 2, 0, 0, 0, 0, 0, 0], eip := 0x100, nextEip := 0x102 } (fun t =>
      t.reg32 1 == 1 && t.eip == 0x100) = true := by decide

/-- R540, R541: LAHF and SAHF on the examples 93H and D5H. -/
theorem test_lahf_sahf :
    regAfter .lahf { prot with
      regs := #v[0, 0, 0, 0, 0, 0, 0, 0], flags := { prot.flags with sf := true, af := true, cf := true } } 0 =
      some 0x9300 ∧
    holdsAfter .sahf { prot with regs := #v[0xD500, 0, 0, 0, 0, 0, 0, 0] } (fun t =>
      t.flags.sf && t.flags.zf && t.flags.af && t.flags.pf && t.flags.cf) = true := by decide

/-- R655: INT 21H in real mode pushes FLAGS, CS and IP and goes to the vector. -/
theorem test_int_real : holdsAfter (.int 0x21) { real with mem := cells 0x84 [0x34, 0x12, 0x78, 0x56] } (fun t =>
    t.eip == 0x1234 && t.cs.selector == 0x5678 && t.cs.base == 0x56780 && t.reg32 4 == 0xFA &&
    t.physByte 0xFA == 0xF2 && t.physByte 0xFB == 0xFF && t.physByte 0xFD == 0xF0 && t.physByte 0xFE == 0x02) = true := by
  decide

/-- R646: INT 3 from level 3 goes through the gate to level 0 on the stack of the task state segment. -/
theorem test_int3_inner : holdsAfter .int3 user (fun t =>
    t.eip == 0x700 && t.cpl == 0 && t.cs.selector == 8 && t.ss.selector == 0x10 && t.reg32 4 == 0x3FEC &&
    t.physByte 0x3FEC == 0xF2 && t.physByte 0x3FF0 == 0x1B && t.physByte 0x3FFC == 0x23) = true := by
  decide +kernel

/-- R560: the processor runs on after MOV to CR0 that sets PE. -/
theorem test_set_pe : holdsAfter (.mov (.crR32 0 0)) { real with regs := #v[1, 0, 0, 0, 0, 0, 0, 0] } (fun t =>
    t.cr0.pe && !t.cr0.pg) = true := by decide

/-- R206: with HOLD active a step acknowledges and does nothing else. -/
theorem test_hold : (match step { real with pins := { real.pins with hold := true }, nmiLatch := true } with
    | .next t => t.hlda && t.nmiLatch && t.eip == real.eip
    | _ => false) = true := by decide

/-- R275: MOV with CR1 is exception 6 although the level is 3. -/
theorem test_cr1 : decode .s32 .s32 [0x0F, 0x20, 0xC8] = some (.invalid, []) ∧
    holdsAfter (.mov (.r32Cr 0 1)) { user with idtr := { user.idtr with limit := 0x7F } } (fun t => t.eip == 0x800) =
      true := by
  decide +kernel

/-- U3, R561: a bit of DR7 that was written 0 reads 0. -/
theorem test_dr7_zero : prot.debugValue 7 &&& 0xFFFFFBFF = 0 := by
  have h : prot.dr7 = 0 := rfl
  simp [State.debugValue, h, BitVec.and_assoc]

/-- R126, R140: code kept from reset cannot be written once PE is set: exception 13 (0). -/
theorem test_cs_write : holdsAfter (.mov (.ebGb (.mem (.direct32 0x700)) 0))
    { prot with cs := { prot.cs with writable := true }, pfx := { Pfx.none with seg := some .cs, count := 1 }
                idtr := { prot.idtr with limit := 0x7F } } (fun t =>
    t.eip == 0x800 && t.physByte 0x700 == 0) = true := by decide +kernel

/-- R313, R262: the selector of a far pointer whose offset is the last four bytes of a segment of 4 Gbytes lies at offset
0. -/
theorem test_far_wraps : holdsAfter (.lds 3 (.direct32 0xFFFFFFFC)) { prot with mem := cells 0 [0x10] ++ prot.mem } (fun t =>
    t.ds.selector == 0x10 && t.reg32 3 == 0) = true := by decide +kernel

/-- R552, R170: SGDT whose last bytes lie beyond the limit stores nothing. -/
theorem test_sgdt_whole : holdsAfter (.sgdt (.direct16 0xFFFC)) { real with mem := cells 0x34 [1, 2, 3, 4] } (fun t =>
    t.eip == 0x201 && t.physByte 0xFFFC == 0) = true := by decide

/-! ## Hypotheses -/

/-- A state without a repeat prefix and without LOCK meets `prefixesOk`. -/
theorem prefixesOk_of {s : State} (hr : s.pfx.rep = none) (hl : s.pfx.lock = false) (b : Bool) : s.prefixesOk b :=
  ⟨hr, fun h => by rw [hl] at h; cases h⟩

theorem real_prefixes (b : Bool) : real.prefixesOk b := prefixesOk_of rfl rfl b

theorem prot_prefixes (b : Bool) : prot.prefixesOk b := prefixesOk_of rfl rfl b

theorem user_prefixes (b : Bool) : user.prefixesOk b := prefixesOk_of rfl rfl b

theorem virtual_prefixes (b : Bool) : virtual.prefixesOk b := prefixesOk_of rfl rfl b

/-- An instruction of the greatest length, with operands at their bounds. -/
def longest : Instr := .add (.evIv (.mem (.sib 3 5 4 (.d32 0xFFFFFFFF))) (.d 0x80000000))

theorem witness_decodeEncodeRoundTrip : longest.wellFormed .s32 .s32 = true := by decide

theorem witness_decodeWaitsForLastByte :
    longest.wellFormed .s32 .s32 = true ∧ 0 < (encode longest).length ∧ 10 < (encode longest).length ∧
      (encode longest).length = 11 := by decide

/-- HLT at the reset vector. -/
def atVector : State := { State.reset with mem := [(0xFFFFFFF0, 0xF4)] }

/-- The reset state with EIP at `at_`, `count` prefix bytes read and the bytes `bs` after them. -/
def placed (at_ count : Nat) (bs : List Nat) : State :=
  { State.reset with
    eip := BitVec.ofNat 32 at_, pfx := { Pfx.none with count := count }, mem := cells (0xFFFF0000 + at_ + count) bs }

theorem placed_starts (a c : Nat) (bs : List Nat) (h : (placed a c bs).fetchMatches true = 0) : startsInstr (placed a c bs) :=
  ⟨rfl, rfl, rfl, rfl, .inl rfl, rfl, rfl, rfl, rfl, rfl, .inl h⟩

/-- HLT at the reset vector, and at an EIP of which a 16-bit segment uses the low 16 bits; an invalid and an undocumented
encoding; a first byte beyond the limit, one after a prefix at FFFFH, and a second byte there; the
sixteenth byte after fifteen prefixes, and after fourteen and the byte 0FH. -/
theorem witness_stepRunsDecodedInstruction :
    (Instr.hlt.wellFormed (placed 0xFFF0 0 [0xF4]).osz (placed 0xFFF0 0 [0xF4]).asz = true ∧
      (placed 0xFFF0 0 [0xF4]).pfx.count + (encode .hlt).length ≤ 15 ∧ startsInstr (placed 0xFFF0 0 [0xF4]) ∧
      standsNext (placed 0xFFF0 0 [0xF4]) (encode .hlt)) ∧
    (let s := { placed 0xFFF0 0 [0xF4] with eip := 0x1FFF0 }
     startsInstr s ∧ standsNext s (encode .hlt)) ∧
    (let s := placed 0xFFF0 0 [0x0F, 0x04]
     startsInstr s ∧ standsNext s [0x0F, 0x04] ∧ (∀ n < 2, decode s.osz s.asz (([0x0F, 0x04] : List Byte).take n) = none) ∧
      decode s.osz s.asz [0x0F, 0x04] = some (.invalid, [])) ∧
    (let s := placed 0xFFF0 14 [0xD6]
     startsInstr s ∧ standsNext s [0xD6] ∧ (∀ n < 1, decode s.osz s.asz (([0xD6] : List Byte).take n) = none) ∧
      s.pfx.count + 1 ≤ 15 ∧ decode s.osz s.asz [0xD6] = some (.undocumented, [])) ∧
    (let s := { placed 0xFFF0 0 [] with cs := { State.reset.cs with limit := 0xFFEF } }
     startsInstr s ∧ standsNext s [] ∧ decode s.osz s.asz [] = none ∧ outsideCode s (fetchOffset s 0)) ∧
    (let s := placed 0xFFFF 1 []
     startsInstr s ∧ standsNext s [] ∧ decode s.osz s.asz [] = none ∧ outsideCode s (fetchOffset s 0)) ∧
    (let s := placed 0xFFFF 0 [0x0F]
     startsInstr s ∧ standsNext s [0x0F] ∧ (∀ n < 1, decode s.osz s.asz (([0x0F] : List Byte).take n) = none) ∧
      decode s.osz s.asz [0x0F] = none ∧ outsideCode s (fetchOffset s 1)) ∧
    (let s := placed 0xFFE0 15 []
     startsInstr s ∧ standsNext s [] ∧ decode s.osz s.asz [] = none ∧ 15 ≤ s.pfx.count + 0) ∧
    (let s := placed 0xFFE0 14 [0x0F]
     startsInstr s ∧ standsNext s [0x0F] ∧ decode s.osz s.asz [0x0F] = none ∧ 15 ≤ s.pfx.count + 1) ∧
    ∀ r : Retire, ∃ t, (pure r : M Retire) real.begun = .ok r t := by
  refine ⟨⟨by decide, by decide, placed_starts _ _ _ rfl, ?_⟩,
    ⟨⟨rfl, rfl, rfl, rfl, .inl rfl, rfl, rfl, rfl, rfl, rfl, .inl rfl⟩, ?_⟩,
    ⟨placed_starts _ _ _ rfl, ?_, by decide, by decide⟩,
    ⟨placed_starts _ _ _ rfl, ?_, by decide, by decide, by decide⟩,
    ⟨⟨rfl, rfl, rfl, rfl, .inl rfl, rfl, rfl, rfl, rfl, rfl, .inl rfl⟩, ?_, by decide, by unfold outsideCode; decide⟩,
    ⟨placed_starts _ _ _ rfl, ?_, by decide, by unfold outsideCode; decide⟩,
    ⟨placed_starts _ _ _ rfl, ?_, by decide, by decide, by unfold outsideCode; decide⟩,
    ⟨placed_starts _ _ _ rfl, ?_, by decide, by decide⟩, ⟨placed_starts _ _ _ rfl, ?_, by decide, by decide⟩,
    fun _ => ⟨_, rfl⟩⟩ <;> unfold standsNext outsideCode <;> decide

/-- R27: in a 16-bit code segment whose limit is above FFFFH the instruction at an EIP above FFFFH is fetched, and compared with a
breakpoint, at the low 16 bits of EIP, and the next one lies below 10000H; in a 32-bit one all bits count. -/
theorem test_low_eip :
    let s (wide : Bool) : State := { prot with
      cs := { prot.cs with db := wide, limit := 0x1FFFF }, eip := 0x1FFF0, dr0 := 0xFFF0, dr1 := 0x1FFF0
      mem := cells 0xFFF0 [0xF4] ++ cells 0x1FFF0 [0x90] }
    (s false).fetchMatches false = 1 ∧ (s true).fetchMatches false = 2 ∧
    (match step (s false) with
     | .next t => t.run == .halted && t.eip == 0xFFF1
     | _ => false) = true ∧
    (match step (s true) with
     | .next t => t.run == .executing && t.eip == 0x1FFF1
     | _ => false) = true := by decide +kernel

/-- A step from `s` gives a next state. -/
def steps (s : State) : Bool :=
  match step s with
  | .next _ => true
  | _ => false

theorem next_of_steps {s : State} (h : steps s = true) : ∃ t, step s = .next t := by
  unfold steps at h
  split at h
  · exact ⟨_, ‹_›⟩
  · cases h

theorem witness_memoryStaysCanonical : Memory.wf atVector.mem = true ∧ ∃ t, step atVector = .next t :=
  ⟨by decide, next_of_steps (by decide)⟩

theorem witness_modeStaysLegal : atVector.modeOk = true ∧ ∃ t, step atVector = .next t :=
  ⟨by decide, next_of_steps (by decide)⟩

theorem witness_pagingStructuresStayBounded : atVector.pagingOk ∧ ∃ t, step atVector = .next t :=
  ⟨⟨by decide, by decide, List.Pairwise.nil⟩, next_of_steps (by decide)⟩

theorem witness_resetValues :
    (∃ c : Config, c.selfTest = true ∧ c.selfTestPass = true) ∧ ∃ c : Config, c.selfTest = true ∧ c.selfTestPass = false :=
  ⟨⟨{ Config.standard with selfTest := true }, by decide⟩,
    ⟨{ Config.standard with selfTest := true, selfTestPass := false }, by decide⟩⟩

/-- `real` with the boundary as the clauses want it. -/
def boundary (run : Run) (trap nmi : Bool) (intr : Option Byte) : State :=
  { real with
    run := run, trap := { DebugTrap.none with step := trap }, nmiLatch := nmi, flags := { real.flags with intf := true }
    pins := { real.pins with intr := intr } }

/-- `real` with condition 0, enabled or not, on the address FFFFFFF0H of its next instruction. -/
def watched (on : Bool) : State := { real with dr0 := 0xFFFFFFF0, dr7 := if on then 2 else 0 }

theorem witness_boundaryEvents :
    ({ real.pins with reset := true } : Pins).reset = true ∧
    (let p : Pins := { real.pins with hold := true }
     p.reset = false ∧ p.hold = true) ∧
    (∀ run ∈ [Run.executing, .halted, .shutdown], ∀ trap ∈ [true, false], ∀ nmi ∈ [true, false], ∀ i ∈ [none, some (0xFF : Byte)],
      let s := boundary run trap nmi i
      s.pins.reset = false ∧ s.pins.hold = false ∧ s.cop.due = none ∧ s.pfx.count = 0 ∧ s.pending = none ∧
        s.trap.quiet = 0) ∧
    (∃ ev, ({ real with pending := some { vector := 10, kind := .exception, ret := 0, code := some 0, rf := true } } :
      State).pending = some ev) ∧
    (let s := boundary .executing true true none
     s.run ≠ .shutdown ∧ s.trapDue = true ∧ s.shadow ≠ .ss) ∧
    (let s := boundary .shutdown false true none
     s.run = .shutdown ∧ s.nmiLatch = true ∧ s.nmiBlocked = false ∧ s.shadow ≠ .ss) ∧
    (let s := boundary .halted false false (some 0xFF)
     s.run ≠ .shutdown ∧ s.trapDue = false ∧ s.nmiLatch = false ∧ s.flags.intf = true ∧ s.shadow = .none ∧
        s.pins.intr = some 0xFF) ∧
    (let s := boundary .halted false false none
     s.run = .halted ∧ s.trapDue = false ∧ s.nmiLatch = false ∧ s.pins.intr = none) ∧
    (let s := boundary .shutdown true false (some 1)
     s.run = .shutdown ∧ s.nmiLatch = false) ∧
    (∀ on : Bool, let s := watched on
      s.run = .executing ∧ s.trapDue = false ∧ s.nmiLatch = false ∧ s.pins.intr = none ∧ s.flags.rf = false ∧
        s.midRep = false ∧
        (∀ n : Fin 4, (if on then 1 else 0 : BitVec 4).getLsbD n = (conditionOn s n && fetchMet s n)) ∧
        ∀ n : Fin 4, (if on then 0 else 1 : BitVec 4).getLsbD n = (!conditionOn s n && fetchMet s n)) :=
  ⟨by decide, by decide, by decide +kernel, ⟨_, rfl⟩, by decide, by decide, by decide, by decide, by decide, by decide⟩

theorem witness_partialRegisterWrites : (1 : Fin 8) ≠ 0 ∧ 4 ≤ (7 : Fin 8).val := by decide

/-- Four bytes at 0100H; condition 1 watches writes of the word there and condition 2, not enabled, reads and writes of the
byte at 0103H. -/
theorem witness_storeFrame : ([1, 2, 3, 4] : List Byte).length ≤ 4096 ∧ Memory.wf prot.mem = true ∧
    (∀ k : Fin 4, (0x104 : Word32) ≠ 0x100 + BitVec.ofNat 32 k) ∧
    (let s : State := { prot with dr1 := 0x100, dr2 := 0x103, dr7 := 0x03500004 }
     conditionLen s 1 ≠ 2 ∧ conditionOn s 1 = true ∧ dataMet s 1 0x100 4 true = true ∧ dataMet s 1 0x100 4 false = false ∧
      dataMet s 1 0x102 4 true = false ∧ conditionLen s 2 ≠ 2 ∧ conditionOn s 2 = false ∧
      dataMet s 2 0x100 4 false = true ∧ dataMet s 2 0xFFFFFFFF 4 true = false) := by decide

/-- R80: the byte 00H, which no entry of the list stands for, reads back where another byte was. -/
theorem test_store_zero :
    prot.physByte 0x1008 = 0xFF ∧ (prot.afterStore .ds 0x1008 [0, 1]).physByte 0x1008 = 0 ∧
      (prot.afterStore .ds 0x1008 [0, 1]).physByte 0x1009 = 1 := by decide

/-- The ends of segments: a byte and a word at FFFFH in real mode, a byte and a word at the start and at the end of an
expand-down segment above 0FFFH, the last byte of a segment of 4 Gbytes, and a write to code. -/
theorem witness_segmentFaults :
    let down : State := { prot with ds := { prot.ds with ec := true, limit := 0xFFF } }
    (real.segAllows .ds 0xFFFF 1 true = true ∧ real.segAllows .ds 0xFFFF 2 true = false ∧
      down.segAllows .ds 0xFFF 1 false = false ∧ down.segAllows .ds 0x1000 2 false = true ∧
      down.segAllows .ds 0xFFFFFFFF 1 false = true ∧ down.segAllows .ds 0xFFFFFFFF 2 false = false ∧
      prot.segAllows .ss 0xFFFFFFFF 1 true = true ∧ prot.segAllows .ss 0xFFFFFFFF 2 true = false ∧
      prot.segAllows .cs 0 1 true = false ∧ prot.segAllows .cs 0 1 false = true) ∧
    real.segAllows .ss 0xFFFF 2 false = false ∧ real.segAllows .ss 0xFFFF 2 true = false ∧
    real.segAllows .ds 0xFFFF 2 false = false ∧ real.segAllows .ds 0xFFFF 2 true = false ∧
    real.ea (.direct32 0xFFFF) = (.ds, 0xFFFF) ∧
    ([1, 2] : List Byte).length = 2 ∧ Width.w16 = real.osz.width ∧ real.prefixesOk false :=
  ⟨by decide, by decide, by decide, by decide, by decide, by decide, rfl, rfl, real_prefixes false⟩

/-- No paging; operands of a whole page, and of one and of two pages; an entry that may be read by the user; an entry whose
first write has not come; no entry; and the four ends of the walk. -/
theorem witness_pageTranslation :
    (prot.cr0.pg = false ∧ paged.masters = [] ∧ paged.segAllows .ds 0x1000 4096 false = true ∧
      paged.segAllows .ds 0x1FFE 2 true = true ∧ paged.segAllows .ds 0x1FFE 3 false = true ∧
      paged.segAllows .ds 0x1FFE 3 true = true ∧ ([1, 2, 3] : List Byte).length ≤ 4096 ∧ operandUser paged = false) ∧
    let e : TlbEntry := { page := 2, frame := 7, user := true, writable := false, dirty := false }
    let hit : State := { paged with tlb := [e] }
    (hit.cr0.pg = true ∧ hit.masters = [] ∧ (hit.tlb.find? fun x => x.page == (0x2ABC : Word32).extractLsb' 12 20) = some e ∧
      entryPermits e false true = true ∧ entryPermits { e with dirty := true } true true = false) ∧
    (∀ f, (hit.tlb.find? fun x => x.page == (0x2ABC : Word32).extractLsb' 12 20) = some f → true = true ∧ f.dirty = false) ∧
    (paged.cr0.pg = true ∧ paged.masters = [] ∧ paged.tlb = [] ∧ (paged.physDword (pdeAddr paged 0x400000)).getLsbD 0 = false ∧
    ((paged.physDword (pdeAddr paged 0xFFF)).getLsbD 0 = true ∧
      (paged.physDword (pteAddr paged 0xFFF)).getLsbD 0 = false) ∧
    ((paged.physDword (pdeAddr paged 0x1000)).getLsbD 0 = true ∧
      (paged.physDword (pteAddr paged 0x1000)).getLsbD 0 = true ∧ pagePermits paged 0x1000 true true = false ∧
      pagePermits paged 0x1000 false true = true)) :=
  ⟨by decide, by decide, fun f h => by cases h; decide, by decide⟩

/-- A memory operand at the last word of a segment of 64 Kbytes. -/
def lastWord : MemOp := .direct16 0xFFFE

/-- A memory operand of four bytes below it. -/
def lowWord : MemOp := .direct16 0x0600

/-- `prot` with two groups of bytes that other masters will store. -/
def shared : State := { prot with masters := [[⟨0x600, 7⟩], [⟨0x600, 9⟩, ⟨0x600, 8⟩]] }

/-- A memory operand that lies in one double word. -/
def sharedByte : MemOp := .direct32 0x600

/-- A locked or an unlocked INC of the byte at 0600H, XCHG with it, and operands of one and of two double words. -/
theorem witness_otherMasters :
    (prot.masters = [] ∧ shared.masters = [⟨0x600, 7⟩] :: shared.masters.tail ∧ Memory.wf shared.mem = true) ∧
    (0 < 1 ∧ ([0x600] : List Word32).length = 1 ∧ ([1] : List Byte).length = 1 ∧ ([2, 3] : List Byte).length = 2 ∧
      ([0x601, 0x602] : List Word32).length = 2 ∧ (shared.busWrite 1 [0x600] [1]).masters ≠ []) ∧
    (shared.cr0.pg = false ∧ shared.segAllows .ds 0x603 1 false = true ∧ shared.segAllows .ds 0x603 4 false = true ∧
      shared.segAllows .ds 0x603 1 true = true ∧ shared.segAllows .ds 0x603 4 true = true ∧ shared.masters ≠ [] ∧
      (linear (shared.seg .ds) 0x603).toNat % 4 = 3 ∧ ([1, 2, 3, 4] : List Byte).length = 4) ∧
    (∀ lock : Bool, let s : State := { shared with pfx := { Pfx.none with lock := lock, count := 1 } }
      ((OneOp.inc (.eb (.mem sharedByte))).parts s).2 = .mem sharedByte ∧ s.pfx.rep = none ∧ s.cr0.pg = false ∧
        s.pfx.lock = lock ∧ (lockedOut s).updatable .w8 (s.locate (.mem sharedByte)) = true ∧
        (linear (s.seg (s.ea sharedByte).1) (s.ea sharedByte).2).toNat % 4 + 1 ≤ 4) ∧
    (let f : XchgForm := .evGv (.mem sharedByte) 0
     shared.pfx.rep = none ∧ xchgToMem f = true ∧
      (lockedOut shared).updatable (xchgParts shared f).1 (shared.locate (xchgParts shared f).2.1) = true) := by decide

/-- R100, R106: between the read and the write of an INC without LOCK another master stores, and its byte is lost; under
LOCK it stores once, before the read, and waits until the instruction is over. -/
theorem test_lock :
    holdsAfter (.inc (.eb (.mem sharedByte))) shared
      (fun t => t.physByte 0x600 == 8 && t.masters.isEmpty) = true ∧
    holdsAfter (.inc (.eb (.mem sharedByte))) { shared with pfx := { Pfx.none with lock := true, count := 1 } }
      (fun t => t.physByte 0x600 == 8 && t.masters.length == 1) = true := by decide +kernel

theorem witness_arithmeticLogicResult :
    (real.prefixesOk (AluOp.add != .cmp && aluToMem (.evGv (.mem lastWord) 0)) ∧
      aluReady .add (.evGv (.mem lastWord) 0) real = true ∧ aluReady .cmp (.gbEb 7 (.reg 4)) real = true) ∧
    real.prefixesOk true ∧ real.prefixesOk false ∧
    real.updatable ((OneOp.inc (.ev (.mem lastWord))).parts real).1
      (real.locate ((OneOp.inc (.ev (.mem lastWord))).parts real).2) = true ∧
    real.readable (testWidth real (.evGv (.mem lastWord) 0)) (testPlace real (.evGv (.mem lastWord) 0)) = true :=
  ⟨⟨real_prefixes _, by decide, by decide⟩, real_prefixes _, real_prefixes _, by decide, by decide⟩

theorem witness_shiftMeaning : (0 < 1 ∧ 1 < 32) ∧ (0 < 31 ∧ 31 < 32) ∧ Width.w16.bits < 17 ∧ 16 ≤ Width.w16.bits ∧
    (1 = 1 ∧ 1 ≤ Width.w8.bits) := by decide

theorem witness_shiftResult :
    real.prefixesOk false ∧
    real.updatable (shiftParts real (.evCl (.mem lastWord))).1 (real.locate (shiftParts real (.evCl (.mem lastWord))).2.1) =
      true ∧
    doubleReady (.evGvCl (.mem lastWord) 0) real = true ∧ doubleReady (.evGvIb (.mem (.direct32 0x10000)) 0 32) real = true :=
  ⟨real_prefixes _, by decide, by decide, by decide⟩

theorem witness_multiplyResult :
    real.prefixesOk false ∧
    real.readable (unaryParts real (.ev (.mem lastWord))).1 (real.locate (unaryParts real (.ev (.mem lastWord))).2) = true ∧
    real.readable real.osz.width (real.locate (ShortImul.byReg 0 (.mem lastWord)).operand) = true :=
  ⟨real_prefixes _, by decide, by decide⟩

/-- -7 divided by 2 is -3 with remainder -1. -/
theorem witness_divideResult :
    let s : State := { real with regs := #v[0xFFF9, 0, 0, 2, 0, 0, 0, 0] }
    let w := (unaryParts s (.eb (.reg 3))).1
    let l := s.locate (unaryParts s (.eb (.reg 3))).2
    let n := dividend s true w
    let d := number true (s.valueAt w l)
    s.prefixesOk false ∧ s.readable w l = true ∧ d ≠ 0 ∧ n = (-3) * d + (-1) ∧ (-1 : Int).natAbs < d.natAbs ∧
      (0 ≤ n → (0 : Int) ≤ -1) ∧ (n ≤ 0 → (-1 : Int) ≤ 0) ∧ quotientFits true w (-3) = true :=
  ⟨prefixesOk_of rfl rfl false, by decide⟩

/-- A divisor of 0, and the quotient 100H of 0200H by 2. -/
theorem witness_divideResult_error :
    let s : State := { real with regs := #v[0x0200, 0, 0, 2, 0, 0, 0, 0] }
    let w := (unaryParts s (.eb (.reg 3))).1
    let l := s.locate (unaryParts s (.eb (.reg 3))).2
    s.prefixesOk false ∧ s.readable w l = true ∧ number false (s.valueAt .w8 (.reg 1)) = 0 ∧
      quotientFits false w ((dividend s false w).tdiv (number false (s.valueAt w l))) = false :=
  ⟨prefixesOk_of rfl rfl false, by decide⟩

theorem witness_decimalAdjustResult :
    real.prefixesOk false ∧ (Adjust.aam 1).ready = true ∧ (Adjust.aam 0).ready = false :=
  ⟨real_prefixes _, by decide, by decide⟩

theorem witness_decimalMeaning : (1 : Byte) ≠ 0 := by decide

theorem witness_bitTestResult :
    real.prefixesOk (BitOp.set != .test && bitToMem (.evIb (.mem lastWord) 0xFF)) ∧
    bitReady .set (.evIb (.mem lastWord) 0xFF) real = true ∧ bitReady .test (.evGv (.mem lowWord) 0) real = true :=
  ⟨real_prefixes _, by decide, by decide⟩

/-- BSF finds bit 4 of 0030H, BSR bit 15 of 8001H; register 1 holds 0. -/
theorem witness_bitScanResult :
    let s : State := { real with regs := #v[0x30, 0, 0x8001, 0, 0, 0, 0, 0] }
    s.prefixesOk false ∧ s.readable .w16 (s.locate (.reg 1)) = true ∧ s.valueAt .w16 (s.locate (.reg 1)) = 0#16 ∧
    (s.valueAt .w16 (s.locate (.reg 0))).getLsbD 4 = true ∧
    (∀ j : Fin 16, j < 4 → (s.valueAt .w16 (s.locate (.reg 0))).getLsbD j = false) ∧
    (s.valueAt .w16 (s.locate (.reg 2))).getLsbD 15 = true ∧
    ∀ j : Fin 16, 15 < j → (s.valueAt .w16 (s.locate (.reg 2))).getLsbD j = false :=
  ⟨prefixesOk_of rfl rfl false, by decide⟩

theorem witness_bitStringResult :
    let s : State := { real with cfg := { real.cfg with hasIbtsXbts := true }, regs := #v[8, 8, 0, 0, 0, 0, 0, 0] }
    real.prefixesOk false ∧ real.cfg.hasIbtsXbts = false ∧ s.prefixesOk false ∧ s.cfg.hasIbtsXbts = true ∧
    0 < (s.reg .w8 ecx).toNat ∧ (s.reg .w8 ecx).toNat ≤ s.osz.width.bits ∧
    (s.reg s.osz.width eax).toNat + (s.reg .w8 ecx).toNat ≤ s.osz.width.bits ∧
    s.canAccess .ds 0xFFFF 1 false = true ∧ s.canAccess .ds 0xFFFF 1 true = true :=
  ⟨real_prefixes _, by decide, prefixesOk_of rfl rfl false, by decide⟩

theorem witness_moveResult :
    real.prefixesOk false ∧ isPlainMove (.evGv (.mem lastWord) 0) = true ∧ moveReady (.evGv (.mem lastWord) 0) real = true ∧
    real.prefixesOk (xchgToMem (.evGv (.mem lastWord) 0)) ∧
    real.updatable (xchgParts real (.evGv (.mem lastWord) 0)).1 (real.locate (xchgParts real (.evGv (.mem lastWord) 0)).2.1) =
      true := ⟨real_prefixes _, by decide, by decide, real_prefixes _, by decide⟩

theorem witness_conversionResult :
    real.prefixesOk false ∧
    real.readable (extendParts (.gvEw 0 (.mem lastWord))).2.2 (real.locate (extendParts (.gvEw 0 (.mem lastWord))).2.1) = true ∧
    real.readable .w8
      (.mem (real.segOr .ds) (wrapTo real.asz (real.addrReg real.asz ebx + (real.reg .w8 eax).zeroExtend 32))) = true :=
  ⟨real_prefixes _, by decide, by decide⟩

/-- A null selector into DS, and the data segment of the descriptor table into DS and SS. -/
theorem witness_segmentLoadResult :
    let s : State := { prot with regs := #v[0x10, 3, 0, 0, 0, 0, 0, 0] }
    s.prefixesOk false ∧ SReg.ds ≠ .cs ∧ s.readable .w16 (s.locate (.reg 0)) = true ∧
    segLoads s .ds (s.valueAt .w16 (s.locate (.reg 0))) = true ∧ segLoads s .ss (s.valueAt .w16 (s.locate (.reg 0))) = true ∧
    segLoads s .ds (s.valueAt .w16 (s.locate (.reg 1))) = true ∧ farReadable real (.direct16 0xFFFC) = true ∧
    segLoads real FarLoad.lss.seg (farPointer real (.direct16 0xFFFC)).2 = true :=
  ⟨prefixesOk_of rfl rfl false, by decide⟩

/-- The refusals of R145 in its order: a null selector for SS; the entry after the last one of the table; for SS a wrong RPL, a
code segment, a wrong DPL and a segment that is not present; for DS a call gate, the last entry of the table, at level 3 a
segment of level 0, and a segment that is not present. LSS with a null selector. -/
theorem witness_segmentLoadResult_error :
    (∀ x ∈ ([(prot, .ss, 3, 13, 0), (prot, .ss, 0x58, 13, 0x58), (prot, .ds, 0x5B, 13, 0x58), (prot, .ss, 0x13, 13, 0x10),
        (prot, .ss, 8, 13, 8), (prot, .ss, 0x20, 13, 0x20), (patched prot [(0x1015, 0x13)], .ss, 0x10, 12, 0x10),
        (prot, .ds, 0x50, 13, 0x50), (user, .ds, 0x10, 13, 0x10), (patched prot [(0x1015, 0x13)], .ds, 0x10, 11, 0x10)] :
        List (State × SReg × Word32 × Byte × Word32)),
      let s := selecting x.1 x.2.2.1
      s.prefixesOk false ∧ s.protectedMode = true ∧ s.flat = true ∧ x.2.1 ≠ .cs ∧ s.readable .w16 (s.locate (.reg 0)) = true ∧
        firstFailing (segChecks s x.2.1 (s.valueAt .w16 (s.locate (.reg 0)))) = some x.2.2.2) ∧
    (let s := patched prot [(0x604, 3)]
     s.prefixesOk false ∧ s.protectedMode = true ∧ s.flat = true ∧ farReadable s (.direct32 0x600) = true ∧
      firstFailing (segChecks s FarLoad.lss.seg (farPointer s (.direct32 0x600)).2) = some (13, 0)) := by
  unfold State.prefixesOk
  decide +kernel

theorem witness_wordStoreResult :
    prot.prefixesOk false ∧ (WordStore.ldtr (.mem (.direct32 0xFFFFFFFE))).ready prot = true ∧
    prot.storable .w16 (prot.locate (WordStore.ldtr (.mem (.direct32 0xFFFFFFFE))).operand) = true :=
  ⟨prot_prefixes _, by decide, by decide⟩

theorem witness_specialRegisterMoves :
    ((1 : Fin 8) = 1 ∧ 4 ≤ (4 : Fin 8).val ∧ (5 : Fin 8) = 5 ∧ (5 : Fin 8).val < 6) ∧
    prot.cpl = 0 ∧ prot.prefixesOk false ∧ ((0x80000001 : Word32).getLsbD 31 = true ∧ (0x80000001 : Word32).getLsbD 0 = true) ∧
    ((0x80000000 : Word32).getLsbD 31 = true ∧ (0x80000000 : Word32).getLsbD 0 = false) ∧
    prot.dr7.getLsbD 13 = false ∧ ({ prot with dr7 := 0x2000 } : State).dr7.getLsbD 13 = true ∧
    badDebugControl 0x000F0001 = false ∧ badDebugControl 0x00020001 = true ∧ (7 : Fin 8) ≠ 4 ∧ (7 : Fin 8) ≠ 5 ∧
    (∀ f ∈ [MovForm.r32Cr 0 1, .crR32 7 0, .r32Dr 0 4, .drR32 5 0, .r32Tr 0 5, .trR32 0 0], unnamed (.mov f) = true) :=
  ⟨by decide, by decide, prot_prefixes _, by decide⟩

theorem witness_stringElementResult :
    (prot.prefixesOk false ∧ ∀ op : StringOp, op ∈ [.movs, .cmps, .scas, .lods, .stos, .ins, .outs] →
      elementReady op (elementWidth prot true) prot = true ∧ elementReady op (elementWidth prot false) prot = true) ∧
    (user.prefixesOk false ∧ StringOp.ins.usesPort = true ∧ user.flat = true ∧
      portsPermitted user (user.reg .w16 edx) (elementWidth user true).bytes = false) :=
  ⟨⟨prot_prefixes _, by decide⟩, user_prefixes _, by decide⟩

theorem witness_repeatedStringResult :
    let s : State := { prot with pfx := { Pfx.none with rep := some .repe, count := 1 } }
    let z : State := { s with regs := #v[0, 0, 0, 0, 0, 0, 0, 0] }
    let u : State := { user with pfx := { Pfx.none with rep := some .repe, count := 1 } }
    (s.pfx.lock = false ∧ s.pfx.rep = some .repe ∧ StringOp.scas.compares = true ∧ z.addrReg z.asz ecx = 0 ∧
      s.addrReg s.asz ecx ≠ 0 ∧ elementReady .movs (elementWidth s true) s = true ∧
      (!StringOp.movs.usesPort || s.ioAllowed || s.cfg.hasIoBitmap) = true) ∧
    (u.pfx.lock = false ∧ u.pfx.rep = some .repe ∧
      (!StringOp.outs.usesPort || u.ioAllowed || u.cfg.hasIoBitmap) = false) := by decide

theorem witness_pushResult :
    real.prefixesOk false ∧ (pushSource real real.osz.width (.ev (.mem lastWord))).readable real = true ∧
    real.canPush real.osz = true ∧ virtual.v86Allowed = true ∧ virtual.canPush virtual.osz = true ∧
    canPushItems real real.osz.bytes 8 = true :=
  ⟨real_prefixes _, by decide, by decide, by decide, by decide, by decide⟩

theorem witness_popResult :
    real.prefixesOk false ∧ real.canPeek real.osz real.sp = true ∧
    (real.begun.popped real.osz).storable real.osz.width ((real.begun.popped real.osz).locate (.mem lastWord)) = true ∧
    segLoads real .ss ((real.peek real.osz real.sp).truncate 16) = true ∧ real.v86Allowed = true ∧
    canPeekItems real real.osz 8 = true :=
  ⟨real_prefixes _, by decide⟩

/-- POP SS of a null selector, and POP DS of the entry after the last one of the table. -/
theorem witness_popResult_error :
    ∀ x ∈ ([(.ss, 3, 13, 0), (.ds, 0x58, 13, 0x58)] : List (PopSeg × Nat × Byte × Word32)),
      let s := patched prot [(0x100, x.2.1)]
      s.prefixesOk false ∧ s.canPeek s.osz s.sp = true ∧ s.protectedMode = true ∧
        firstFailing (segChecks s x.1.reg ((s.peek s.osz s.sp).truncate 16)) = some x.2.2 := by
  unfold State.prefixesOk
  decide +kernel

theorem witness_frameResult :
    real.prefixesOk false ∧ enterReady 31 real = true ∧ enterReady 0 real = true ∧
    (unwound real.begun).canPeek (unwound real.begun).osz (unwound real.begun).sp = true :=
  ⟨real_prefixes _, by decide⟩

theorem witness_conditionResult :
    real.prefixesOk false ∧ Cond.e.holds real.flags = false ∧ Cond.ne.holds real.flags = true ∧
    targetOk real (real.nearTarget (real.nextEip + jccOffset (.jb 0x7F))) = true ∧
    (let s : State := { prot with cs := { prot.cs with limit := 0xFFFF } }
     s.prefixesOk false ∧ targetOk s (s.nearTarget (s.nextEip + jccOffset (.jb 0x7F))) = false) ∧
    real.storable .w8 (real.locate (.mem (.direct16 0xFFFF))) = true :=
  ⟨real_prefixes _, by decide, by decide, by decide, ⟨prefixesOk_of rfl rfl false, by decide⟩, by decide⟩

theorem witness_countedJumps :
    let s : State := { prot with cs := { prot.cs with limit := 0xFFFF } }
    real.prefixesOk false ∧ CountJump.jcxz.taken (CountJump.jcxz.counted real.begun) = false ∧
    CountJump.loop.taken (CountJump.loop.counted real.begun) = true ∧
    targetOk real (real.nearTarget (real.nextEip + (0x80 : Byte).signExtend 32)) = true ∧
    s.prefixesOk false ∧ CountJump.loop.taken (CountJump.loop.counted s.begun) = true ∧
    targetOk s (s.nearTarget (s.nextEip + (0x7F : Byte).signExtend 32)) = false :=
  ⟨real_prefixes _, by decide, by decide, by decide, prefixesOk_of rfl rfl false, by decide, by decide⟩

theorem witness_nearTransferResult :
    real.prefixesOk false ∧ (NearForm.indirect (.mem lastWord)).ready real = true ∧
    targetOk real (real.nearTarget ((NearForm.indirect (.mem lastWord)).target real)) = true ∧
    (NearForm.indirect (.mem lastWord)).call = some (.call (.ev (.mem lastWord))) ∧ real.canPush real.osz = true ∧
    real.canPeek real.osz real.sp = true ∧ targetOk real (real.peek real.osz real.sp) = true ∧
    (let s : State := { prot with cs := { prot.cs with limit := 0xFFFF }, mem := cells 0x100 [0, 0, 1] }
     s.prefixesOk false ∧ (NearForm.relByte 0x7F).ready s = true ∧
      targetOk s (s.nearTarget ((NearForm.relByte 0x7F).target s)) = false ∧ s.canPeek s.osz s.sp = true ∧
      targetOk s (s.peek s.osz s.sp) = false) :=
  ⟨real_prefixes _, by decide, by decide, by decide, by decide, by decide, by decide, prefixesOk_of rfl rfl false, by decide⟩

theorem witness_farTransferReal :
    real.prefixesOk false ∧ real.protectedMode = false ∧ (FarForm.indirect (.direct16 0xFFFC)).ready real = true ∧
    targetOk real ((FarForm.indirect (.direct16 0xFFFC)).pointer real).1 = true ∧
    canPushItems real real.osz.bytes 2 = true ∧ canPeekItems real real.osz 2 = true ∧
    targetOk real (item real real.osz 0) = true :=
  ⟨real_prefixes _, by decide⟩

/-- `prot` with the words of a frame on the stack at 0100H. -/
def framed (words : List Nat) : State :=
  { prot with mem := cells 0x100 (words.flatMap fun w => (List.range 4).map fun k => w / 256 ^ k % 256) ++ prot.mem }

theorem framed_prefixes (words : List Nat) (b : Bool) : (framed words).prefixesOk b := prefixesOk_of rfl rfl b

theorem witness_farTransferProtected :
    (prot.prefixesOk false ∧ prot.protectedMode = true ∧
      ∃ d la, let f : FarForm := .direct { sel := 8, off := .d 0xFFFFFFFF }
        f.ready prot = true ∧ codeAt prot (f.pointer prot).2 = some (d, la) ∧ directAllowed prot (f.pointer prot).2 d = true ∧
        inSegment d (f.pointer prot).1 = true ∧ canPushItems prot prot.osz.bytes 2 = true) ∧
    (let s := framed [0xFFFFFFFF, 8, 2]
     s.prefixesOk false ∧ s.protectedMode = true ∧
      ∃ d la, let off := frameItem s s.osz 0
        let sel : Word16 := (frameItem s s.osz 4).truncate 16
        codeAt s sel = some (d, la) ∧ returnAllowed s sel d = true ∧ inSegment d off = true ∧
        held s (2 * s.osz.bytes) = true ∧ held s (3 * s.osz.bytes) = true ∧ s.flags.nt = false ∧
        ¬(s.osz = .s32 ∧ (frameItem s s.osz 8).getLsbD 17 = true ∧ s.cpl = 0)) ∧
    (let s : State := { prot with ss := { prot.ss with limit := 0x106 } }
     s.prefixesOk false ∧ s.protectedMode = true ∧ s.flat = true ∧ held s (2 * s.osz.bytes) = false ∧
      held s (3 * s.osz.bytes) = false ∧ s.flags.nt = false) :=
  ⟨⟨prot_prefixes _, by decide, 0x00CF9B000000FFFF, 0x1008, by decide⟩,
    ⟨framed_prefixes _ _, by decide, 0x00CF9B000000FFFF, 0x1008, by decide⟩, prefixesOk_of rfl rfl false, by decide⟩

/-- What each check of R501, R502, R508 and R512 refuses. A far pointer that is null, one beyond the table, data, an LDT, a busy
task state segment, code of a wrong level, code that is not present; no room, an offset beyond the limit, a stack that cannot
be written. A return that is null, to an inner level, beyond the table, to data, to code that is not present and to an offset
beyond the limit. -/
theorem witness_farTransferProtected_error :
    (∀ x ∈ ([(prot, false, 3, 0, 13, 0), (prot, false, 0x58, 0, 13, 0x58), (prot, true, 0x10, 0, 13, 0x10),
        (prot, false, 0x28, 0, 13, 0x28), (prot, true, 0x48, 0, 13, 0x48), (prot, false, 0x1B, 0, 13, 0x18),
        (patched prot [(0x100D, 0x1B)], false, 8, 0, 11, 8), (stackTo prot 0xFE, true, 8, 0, 12, 0),
        (patched prot [(0x100E, 0x4F)], false, 8, 0x100000, 13, 0), (stackReadOnly prot, true, 8, 0, 12, 0)] :
        List (State × Bool × Word16 × Word32 × Byte × Word32)),
      let f : FarForm := .direct { sel := x.2.2.1, off := .d x.2.2.2.1 }
      x.1.prefixesOk false ∧ x.1.protectedMode = true ∧ x.1.flat = true ∧ f.ready x.1 = true ∧
        namesSystem x.1 (f.pointer x.1).2 = false ∧
        firstFailing (directChecks x.1 x.2.1 (f.pointer x.1).2 (f.pointer x.1).1) = some x.2.2.2.2) ∧
    (∀ x ∈ ([(framed [0, 0, 2], 13, 0), ({ framed [0, 8, 2] with cpl := 3 }, 13, 8), (framed [0, 0x58, 2], 13, 0x58),
        (framed [0, 0x10, 2], 13, 0x10), (patched (framed [0, 8, 2]) [(0x100D, 0x1B)], 11, 8),
        (patched (framed [0x100000, 8, 2]) [(0x100E, 0x4F)], 13, 0)] : List (State × Byte × Word32)),
      let s := x.1
      let b := s.osz.bytes
      s.prefixesOk false ∧ s.protectedMode = true ∧ s.flat = true ∧
        (selRpl ((frameItem s s.osz b).truncate 16)).toNat ≤ s.cpl.toNat ∧ held s (2 * b) = true ∧ held s (3 * b) = true ∧
        s.flags.nt = false ∧ ¬(s.osz = .s32 ∧ (frameItem s s.osz (2 * b)).getLsbD 17 = true ∧ s.cpl = 0) ∧
        firstFailing (frameChecks s (2 * b + released none)) = some x.2 ∧ firstFailing (frameChecks s (3 * b)) = some x.2) := by
  unfold State.prefixesOk
  decide +kernel

/-- The call gate from level 0, where it stays at the level, and from level 3, where it goes to an inner one. -/
theorem witness_callGateTransfer :
    let f : FarForm := .direct { sel := 0x50, off := .d 0 }
    prot.prefixesOk false ∧ user.prefixesOk false ∧
    ∃ g d la, ∀ s : State, s = prot ∨ s = user →
      s.protectedMode = true ∧ f.ready s = true ∧ callGateAt s (f.pointer s).2 = some g ∧
      codeAt s (gateSelector g) = some (d, la) ∧ lvlLe d.dpl s.cpl = true ∧ inSegment d (gateOffset g (gateSize g)) = true ∧
      (d.dpl = prot.cpl ∧ canPushItems prot (gateSize g).bytes 2 = true) ∧
      (d.conforming = false ∧ d.dpl ≠ user.cpl ∧ innerInTss user d.dpl = true ∧
        ∃ sd sla, stackAt user d.dpl (innerPointer user d.dpl).1 = some (sd, sla) ∧
          canPeekItems user (gateSize g) (g.extractLsb' 32 5).toNat = true ∧
          canPushItems (onInnerStack (afterItems (f.after user.begun) (gateSize g) (g.extractLsb' 32 5).toNat) d.dpl sd sla)
            (gateSize g).bytes (innerCallFrame user g).length = true) := by
  refine ⟨prot_prefixes _, user_prefixes _, 0x0000EC0200080500, 0x00CF9B000000FFFF, 0x1008, ?_⟩
  rintro s (rfl | rfl) <;>
    exact ⟨by decide, by decide, by decide, by decide, by decide, by decide, by decide, by decide, by decide, by decide,
      0x00CF93000000FFFF, 0x1010, by decide⟩

/-- What each check of R503 and R504 refuses. A gate of level 0 used from level 3, a gate that is not present; a null selector in
it, one beyond the table, data, code of an outer level, a jump to an inner level, code that is not present; at the same level
no room and an offset beyond the limit; to an inner level a task state segment that is too short by one byte, a null stack
selector, one beyond the table, one of another level, a stack that is not present, no room on it, an offset beyond the limit,
and parameters that the old stack does not hold. -/
theorem witness_callGateTransfer_error :
    ∀ x ∈ ([(patched user [(0x1055, 0x8C)], true, 13, 0x50), (patched prot [(0x1055, 0x6C)], false, 11, 0x50),
        (patched prot [(0x1052, 0)], true, 13, 0), (patched prot [(0x1052, 0x58)], true, 13, 0x58),
        (patched prot [(0x1052, 0x10)], true, 13, 0x10), (patched prot [(0x1052, 0x18)], true, 13, 0x18),
        (user, false, 13, 8), (patched prot [(0x100D, 0x1B)], true, 11, 8), (stackTo prot 0xFE, true, 12, 0),
        (patched prot [(0x100E, 0x40), (0x1056, 1)], false, 13, 0), ({ user with tr := { user.tr with limit := 8 } }, true, 10, 0x30),
        (patched user [(0x3008, 0)], true, 10, 0), (patched user [(0x3008, 0x58)], true, 10, 0x58),
        (patched user [(0x3008, 0x20)], true, 10, 0x20), (patched user [(0x1015, 0x13)], true, 12, 0x10),
        (patched user [(0x1016, 0x40), (0x3005, 0)], true, 12, 0x10), (patched user [(0x100E, 0x40), (0x1056, 1)], true, 13, 0),
        (stackTo user 0x106, true, 12, 0)] : List (State × Bool × Byte × Word32)),
      let s := x.1
      let f : FarForm := .direct { sel := 0x50, off := .d 0 }
      s.prefixesOk false ∧ s.protectedMode = true ∧ s.flat = true ∧ f.ready s = true ∧
        namesSystem s (f.pointer s).2 = true ∧ [4, 12].contains (namedDesc s (f.pointer s).2).type = true ∧
        firstFailing (gateChecks s x.2.1 (f.pointer s).2) = some x.2.2 := by
  unfold State.prefixesOk
  decide +kernel

/-- RET far 4 and IRET to level 3, and IRET to virtual-8086 mode. -/
theorem witness_outerReturn :
    (let s := framed [0x100, 0x1B, 0x23, 0x80000000, 0x23]
     s.prefixesOk false ∧ s.protectedMode = true ∧
      ∃ d sd la sla, codeAt s ((frameItem s s.osz 4).truncate 16) = some (d, la) ∧
        outerAllowed s ((frameItem s s.osz 4).truncate 16) d = true ∧ inSegment d (frameItem s s.osz 0) = true ∧
        held s (2 * s.osz.bytes + released (some 4) + 2 * s.osz.bytes) = true ∧
        stackAt s 3 ((frameItem s s.osz (2 * s.osz.bytes + released (some 4) + 4)).truncate 16) = some (sd, sla)) ∧
    (let s := framed [0x100, 0x1B, 0x3202, 0x80000000, 0x23]
     s.prefixesOk false ∧ s.protectedMode = true ∧
      ∃ d sd la sla, codeAt s ((frameItem s s.osz 4).truncate 16) = some (d, la) ∧
        outerAllowed s ((frameItem s s.osz 4).truncate 16) d = true ∧ inSegment d (frameItem s s.osz 0) = true ∧
        held s (5 * s.osz.bytes) = true ∧ s.flags.nt = false ∧
        stackAt s 3 ((frameItem s s.osz (3 * s.osz.bytes + 4)).truncate 16) = some (sd, sla) ∧
        ¬(s.osz = .s32 ∧ (frameItem s s.osz 8).getLsbD 17 = true ∧ s.cpl = 0)) ∧
    (let s := framed [0xFFFF, 0xF000, 0x23202, 0x100, 0x2000]
     s.prefixesOk false ∧ s.protectedMode = true ∧ s.osz = .s32 ∧ s.cpl = 0 ∧ s.flags.nt = false ∧
      (frameItem s .s32 8).getLsbD 17 = true ∧ held s 36 = true) :=
  ⟨⟨framed_prefixes _ _, by decide, 0x00CFFB000000FFFF, 0x00CFF3000000FFFF, 0x1018, 0x1020, by decide⟩,
    ⟨framed_prefixes _ _, by decide, 0x00CFFB000000FFFF, 0x00CFF3000000FFFF, 0x1018, 0x1020, by decide⟩,
    framed_prefixes _ _, by decide⟩

/-- What each check of R509 and R512 refuses: a null selector of level 3; the outer stack pointer not held, by one byte; a null
outer stack selector, one beyond the table, one of another level, an outer stack that is not present, and an offset beyond the
limit. IRET to virtual-8086 mode with one byte of its frame beyond the stack. -/
theorem witness_outerReturn_error :
    (∀ x ∈ ([(framed [0, 3, 2, 2, 0x23], 13, 0), (stackTo (framed [0, 0x1B, 2, 2, 0x23]) 0x10E, 12, 0),
        (framed [0, 0x1B, 2, 3, 3], 13, 0), (framed [0, 0x1B, 2, 0x5B, 0x5B], 13, 0x58),
        (framed [0, 0x1B, 2, 0x13, 0x13], 13, 0x10), (patched (framed [0, 0x1B, 2, 0x23, 0x23]) [(0x1025, 0x73)], 12, 0x20),
        (patched (framed [0x100000, 0x1B, 2, 0x23, 0x23]) [(0x101E, 0x4F)], 13, 0)] : List (State × Byte × Word32)),
      let s := x.1
      let b := s.osz.bytes
      s.prefixesOk false ∧ s.protectedMode = true ∧
        s.cpl.toNat < (selRpl ((frameItem s s.osz b).truncate 16)).toNat ∧ held s (2 * b) = true ∧ held s (3 * b) = true ∧
        s.flags.nt = false ∧ ¬(s.osz = .s32 ∧ (frameItem s s.osz (2 * b)).getLsbD 17 = true ∧ s.cpl = 0) ∧
        firstFailing (frameChecks s (2 * b + released none)) = some x.2 ∧ firstFailing (frameChecks s (3 * b)) = some x.2) ∧
    (let s := stackTo (framed [0xFFFF, 0xF000, 0x23202, 0x100, 0x2000]) 0x122
     s.prefixesOk false ∧ s.protectedMode = true ∧ s.osz = .s32 ∧ s.cpl = 0 ∧ s.flags.nt = false ∧
      (frameItem s .s32 8).getLsbD 17 = true ∧ held s 12 = true ∧ held s 36 = false) := by
  unfold State.prefixesOk
  decide +kernel

/-- `prot` with a task gate for vector 14, whose task cannot run, and for vector 15, whose task can. -/
def gated (nt : Bool) : State := { prot with idtr := { prot.idtr with limit := 0x7F }, flags := { prot.flags with nt := nt } }

/-- JMP and CALL to a task state segment, JMP while TR is null, IRET to the back link, vector 15 with and without an error
code, and INT 15. -/
theorem witness_taskSwitchResult :
    let f : FarForm := .direct { sel := 0x40, off := .d 0 }
    let ev (c : Option Word32) : Event := { vector := 15, kind := .exception, ret := 5, code := c, rf := true }
    let z : State := { prot with tr := { prot.tr with selector := 3 } }
    (prot.prefixesOk false ∧ prot.protectedMode = true ∧ f.ready prot = true ∧
      taskNamed prot (f.pointer prot).2 = some 0x40 ∧
      taskReady (f.after prot.begun) 0x40 .call prot.nextEip false = true ∧
      taskReady (f.after prot.begun) 0x40 .jmp prot.nextEip false = true ∧
      taskReady (f.after z.begun) 0x40 .jmp z.nextEip false = true) ∧
    ((gated true).prefixesOk false ∧ (gated true).protectedMode = true ∧ (gated true).flags.nt = true ∧
      taskReady (gated true).begun (Claims.fieldAt (gated true) .w16 (gated true).tr.base) .iret (gated true).nextEip false =
        true) ∧
    (taskEntryReady (gated false) (ev none) = true ∧ taskEntryReady (gated false) (ev (some 0)) = true) ∧
    ((gated false).prefixesOk false ∧ softVector (gated false) (.int 15) = some 15 ∧
      taskEntryReady (gated false) (softEvent (gated false) 15) = true) :=
  ⟨⟨prot_prefixes _, by decide +kernel⟩, ⟨prefixesOk_of rfl rfl false, by decide +kernel⟩, by decide +kernel,
    prefixesOk_of rfl rfl false, by decide +kernel⟩

/-- The first part of a pair found. -/
theorem found_exists {α β : Type} {x : Option (α × β)} {a : α} (h : x.map (·.1) = some a) : ∃ b, x = some (a, b) := by
  match x, h with
  | some (_, b), rfl => exact ⟨b, rfl⟩

/-- What each check of R505 and of step 1 of R520 refuses. From level 3 a task of level 0; a task gate that is not present, one
that names the local table, an LDT, a busy task; a task that is not present, and one whose segment is short by one byte. IRET
to the local table, to a task that is free, not present, and short by one byte. -/
theorem witness_taskSwitchResult_error :
    (∀ x ∈ ([(user, 0x40, 13, 0x40), (patched prot [(0x1055, 5)], 0x50, 11, 0x50),
        (patched prot [(0x1055, 0x85), (0x1052, 0x44)], 0x50, 13, 0x44),
        (patched prot [(0x1055, 0x85), (0x1052, 0x28)], 0x50, 13, 0x28),
        (patched prot [(0x1055, 0x85), (0x1052, 0x48)], 0x50, 13, 0x48), (patched prot [(0x1045, 9)], 0x40, 11, 0x40),
        (patched prot [(0x1040, 0x66)], 0x40, 10, 0x40)] : List (State × Word16 × Byte × Word32)),
      let s := x.1
      let f : FarForm := .direct { sel := x.2.1, off := .d 0 }
      s.prefixesOk false ∧ s.protectedMode = true ∧ s.flat = true ∧ f.ready s = true ∧
        namesSystem s (f.pointer s).2 = true ∧ [1, 5, 9].contains (namedDesc s (f.pointer s).2).type = true ∧
        ∀ call : Bool, firstFailing (taskEntryChecks s call (f.pointer s).2) = some x.2.2) ∧
    (∀ x ∈ ([(patched (gated true) [(0x3000, 0x4C)], 10, 0x4C), (patched (gated true) [(0x3000, 0x40)], 10, 0x40),
        (patched (gated true) [(0x104D, 0x0B)], 11, 0x48), (patched (gated true) [(0x1048, 0x66)], 10, 0x48)] :
        List (State × Byte × Word32)),
      let s := x.1
      s.prefixesOk false ∧ s.protectedMode = true ∧ s.flat = true ∧ s.flags.nt = true ∧
        firstFailing (taskChecks s (Claims.fieldAt s .w16 s.tr.base) .iret) = some x.2) ∧
    (let s := patched (gated false) [(0x1045, 0x8B)]
     s.prefixesOk false ∧ softVector s (.int 15) = some 15 ∧ taskGateUsable s (softEvent s 15) = true ∧
      firstFailing (taskChecks s (gateSelector (gateAt s 15)) .int) = some (13, 0x40)) := by
  unfold State.prefixesOk
  decide +kernel

/-- What each check of steps 6 to 8 of R520 refuses in the new task: a bad LDT; CS that is data, and null; SS null, and of another
level, and not present; DS in an absent LDT; ES that is an LDT; GS beyond the table; FS not present; EIP beyond the limit in
virtual-8086 mode. Then IRET, an event, and an event whose error code has no room. -/
theorem witness_taskSwitchResult_pending :
    (∀ x ∈ ([([(0x3260, 0x10)], 10, 0x10), ([(0x324C, 0x10)], 10, 0x10), ([(0x324C, 0)], 10, 0), ([(0x3250, 0)], 10, 0),
        ([(0x3250, 0x23)], 10, 0x20), ([(0x1015, 0x13)], 12, 0x10), ([(0x3254, 0x1C)], 10, 0x1C), ([(0x3248, 0x28)], 10, 0x28),
        ([(0x325C, 0x58)], 10, 0x58), ([(0x3258, 0x10), (0x1015, 0x13), (0x3250, 0x20), (0x1025, 0x93)], 11, 0x10),
        ([(0x3226, 2), (0x3222, 1)], 13, 0)] : List (List (Nat × Nat) × Byte × Word32)),
      let s := patched prot x.1
      let f : FarForm := .direct { sel := 0x40, off := .d 0 }
      s.prefixesOk false ∧ s.protectedMode = true ∧ s.flat = true ∧ f.ready s = true ∧
        taskNamed s (f.pointer s).2 = some 0x40 ∧ taskCommits s 0x40 .jmp = true ∧ taskCommits s 0x40 .call = true ∧
        (∃ t, taskFault (f.after s.begun) 0x40 .jmp s.nextEip false = some (x.2, t)) ∧
        ∃ t, taskFault (f.after s.begun) 0x40 .call s.nextEip false = some (x.2, t)) ∧
    (let s := patched (gated true) [(0x3250, 0x23)]
     (s.prefixesOk false ∧ s.protectedMode = true ∧ s.flat = true ∧ s.flags.nt = true ∧ taskCommits s 0x48 .iret = true ∧
        Claims.fieldAt s .w16 s.tr.base = 0x48#16) ∧
      ∃ t, taskFault s.begun 0x48 .iret s.nextEip false = some ((10, 0x20), t)) ∧
    (let s := patched (gated false) [(0x3250, 0x23)]
     let ev : Event := { vector := 15, kind := .exception, ret := 5, code := none, rf := true }
     taskGateUsable s ev = true ∧ taskCommits s 0x40 .int = true ∧
      ∃ t, taskFault s 0x40 .int ev.ret ev.rf = some ((10, 0x20), t)) ∧
    (let s := patched (gated false) [(0x1010, 0), (0x1011, 0), (0x1016, 0x40)]
     let w := taskSwitched s 0x40 .int 5 true
     taskGateUsable s { vector := 15, kind := .exception, ret := 5, code := some 0, rf := true } = true ∧
      taskReady s 0x40 .int 5 true = true ∧ w.canPush (if w.tr.is386 then .s32 else .s16) = false) := by
  unfold State.prefixesOk
  refine ⟨?_, ⟨by decide +kernel, found_exists (by decide +kernel)⟩,
    ⟨by decide +kernel, by decide +kernel, found_exists (by decide +kernel)⟩, by decide +kernel⟩
  intro x hx
  fin_cases hx <;>
    exact ⟨by decide +kernel, by decide +kernel, by decide +kernel, by decide +kernel, by decide +kernel, by decide +kernel,
      by decide +kernel, found_exists (by decide +kernel), found_exists (by decide +kernel)⟩

/-- R124: a switch while TR is null clears no busy bit, where entry 0 of the table is never used. -/
theorem test_switch_from_null : holdsAfter (.jmp (.farAp { sel := 0x40, off := .d 0 }))
    { prot with tr := { prot.tr with selector := 3 }, mem := cells 0x1005 [2] ++ prot.mem } (fun t =>
    t.tr.selector == 0x40 && t.physByte 0x1005 == 2 && t.pending == none) = true := by decide +kernel

theorem witness_realModeEntry : realEntryReady real 0xFF = true := by decide

/-- Exception 1, a trap gate, and exception 0, an interrupt gate; INT 1 and INT 3. -/
theorem witness_gateEntrySameLevel :
    ∃ d la, (∀ v : Byte, v = 0 ∨ v = 1 →
      sameLevelReady prot { vector := v, kind := .exception, ret := 0, code := none, rf := false } d la) ∧
      prot.prefixesOk false ∧ softVector prot (.int 1) = some 1 ∧ softVector prot .int3 = some 3 ∧
      ∀ v : Byte, v = 1 ∨ v = 3 → sameLevelReady prot (softEvent prot v) d la := by
  refine ⟨0x00CF9B000000FFFF, 0x1008, ?_, prot_prefixes _, by decide, by decide, ?_⟩ <;>
    (rintro v (rfl | rfl) <;> unfold sameLevelReady <;> decide)

/-- INT 3 from level 3 and from virtual-8086 mode, and exception 13 with its error code. -/
theorem witness_gateEntryInnerLevel :
    ∃ d la sd sla, ∀ s : State, s = user ∨ s = virtual →
      s.prefixesOk false ∧ softVector s .int3 = some 3 ∧ softVector s (.int 3) = some 3 ∧
      innerReady s (softEvent s 3) d sd la sla ∧
      innerReady { s with idtr := { s.idtr with limit := 0x7F } }
        { vector := 13, kind := .exception, ret := 0, code := some 0, rf := true } d sd la sla := by
  refine ⟨0x00CF9B000000FFFF, 0x1008, 0x00CF93000000FFFF, 0x1010, ?_⟩
  rintro s (rfl | rfl) <;> unfold innerReady <;>
    exact ⟨prefixesOk_of rfl rfl _, by decide, by decide, by decide, by decide⟩

/-- What each check of step 1 of R646 refuses: the last byte of the entry beyond the table, an entry that is no gate, a gate of
level 0 for INT 0 at level 3, a gate that is not present. -/
theorem witness_gateEntrySameLevel_error :
    ∀ x ∈ ([({ prot with idtr := { prot.idtr with limit := 0x1E } }, 3, 13, 0x1A), (prot, 2, 13, 0x12), (user, 0, 13, 2),
        (patched prot [(0x2005, 0x0E)], 0, 11, 2)] : List (State × Byte × Byte × Word32)),
      x.1.cr0.pe = true ∧ x.1.flat = true ∧ firstFailing (idtChecks x.1 (softEvent x.1 x.2.1)) = some x.2.2 := by decide

/-- What each check of steps 3 to 5 of R646 and of R647 refuses of INT 3: a null handler selector, one beyond the table, data, a
handler of an outer level, one that is not present; from virtual-8086 mode a handler of level 3; at the same level no room, an
entry point beyond the limit, a stack that cannot be written; to an inner level a task state segment that is too short, a null
stack selector, one of another level, a stack that is not present, no room on it, an entry point beyond the limit. Then an
80286 gate in virtual-8086 mode, with a handler that is refused and with one that is not. -/
theorem witness_gateEntryInnerLevel_error :
    (∀ x ∈ ([(patched prot [(0x201A, 0)], 13, 0), (patched prot [(0x201A, 0x58)], 13, 0x58),
        (patched prot [(0x201A, 0x10)], 13, 0x10), (patched prot [(0x201A, 0x18)], 13, 0x18),
        (patched prot [(0x100D, 0x1B)], 11, 8), (patched virtual [(0x201A, 0x18)], 13, 0x18), (stackTo prot 0xFE, 12, 0),
        (patched prot [(0x100E, 0x40), (0x201E, 1)], 13, 0), (stackReadOnly prot, 12, 0),
        ({ user with tr := { user.tr with limit := 8 } }, 10, 0x30), (patched user [(0x3008, 0)], 10, 0),
        (patched virtual [(0x3008, 0x20)], 10, 0x20), (patched user [(0x1015, 0x13)], 12, 0x10),
        (patched user [(0x1016, 0x40), (0x3005, 0)], 12, 0x10), (patched virtual [(0x100E, 0x40), (0x201E, 1)], 13, 0)] :
        List (State × Byte × Word32)),
      let s := x.1
      s.prefixesOk false ∧ softVector s .int3 = some 3 ∧ gateUsable s (softEvent s 3) = true ∧
        (s.v86 && gateSize (gateAt s 3) == .s16) = false ∧ firstFailing (gateEntryChecks s (softEvent s 3)) = some x.2) ∧
    (let s := patched virtual [(0x201D, 0xE7)]
     let t := patched s [(0x201A, 0x18)]
     gateUsable s (softEvent s 3) = true ∧ (s.v86 && gateSize (gateAt s 3) == .s16) = true ∧
      firstFailing (handlerChecks s (softEvent s 3)) = none ∧
      gateUsable t (softEvent t 3) = true ∧ (t.v86 && gateSize (gateAt t 3) == .s16) = true ∧
      firstFailing (handlerChecks t (softEvent t 3)) = some (13, 0x18)) := by
  unfold State.prefixesOk
  decide +kernel

/-- The exception that ends a delivery, with a test of it and of the state reached. -/
def enterFails (ev : Event) (s : State) (p : Exc → State → Bool) : Bool :=
  match enter ev s with
  | .error (.exc e) t => p e t
  | _ => false

theorem enterFails_exists {ev : Event} {s : State} {p : Exc → State → Bool} (h : enterFails ev s p = true) :
    ∃ e t, enter ev s = .error (.exc e) t ∧ p e t = true := by
  unfold enterFails at h
  split at h
  · exact ⟨_, _, ‹_›, h⟩
  · cases h

/-- A delivery ends in the handler. -/
def enters (ev : Event) (s : State) : Bool :=
  match enter ev s with
  | .ok _ _ => true
  | _ => false

theorem enters_exists {ev : Event} {s : State} (h : enters ev s = true) : ∃ v, enter ev s = .ok () v := by
  unfold enters at h
  split at h
  · exact ⟨_, ‹_›⟩
  · cases h

/-- Real mode with an interrupt table of `n` bytes. -/
def smallTable (n : Nat) : State := { real with idtr := { base := 0, limit := BitVec.ofNat 16 n } }

/-- The abort that follows an event with the return address `ret`. -/
def abortOf (s : State) (ret : Word32) : Event :=
  { vector := 8, kind := .exception, ret := ret, code := some 0, rf := s.freeBit doubleSlot }

/-- Vector 14 goes to a task that cannot run; vector 2 has no gate, and exception 13 takes its place; vector 21H lies beyond
the table of real mode, with exception 8 inside it, and beyond it too. -/
theorem witness_doubleFault :
    let ev (v : Byte) : Event := { vector := v, kind := .software, ret := 5, code := none, rf := false }
    let ex (v : Byte) : Event := { vector := v, kind := .exception, ret := 5, code := none, rf := false }
    (∃ e t, enter (ex 14) (gated false) = .error (.exc e) t ∧ e.newTask = true) ∧
    (∃ e t, enter (ev 2) (gated false) = .error (.exc e) t ∧
      (e.newTask = false ∧ makesDouble (ev 2) e.vector = false ∧
        ∃ v, enter { vector := e.vector, kind := .exception, ret := (gated false).eip, code := e.code, rf := true }
          (undone (gated false) t) = .ok () v)) ∧
    (∃ e t, enter (ev 0x21) (smallTable 0x23) = .error (.exc e) t ∧
      (e.newTask = false ∧ makesDouble (ev 0x21) e.vector = true ∧
        ∃ v, enter (abortOf (smallTable 0x23) 5) (undone (smallTable 0x23) t) = .ok () v)) ∧
    (∃ e t, enter (ev 0x21) (smallTable 0x22) = .error (.exc e) t ∧
      (e.newTask = false ∧ makesDouble (ev 0x21) e.vector = true ∧
        ∃ x v, enter (abortOf (smallTable 0x22) 5) (undone (smallTable 0x22) t) = .error (.exc x) v ∧
          x.newTask = false)) ∧
    ((smallTable 0x23).realMode = true ∧ (smallTable 0x23).flat = true ∧
      (smallTable 0x23).idtr.limit.toNat < 4 * (9 : Byte).toNat + 3 ∧ realEntryReady (smallTable 0x23) 8 = true ∧
      (smallTable 0x23).prefixesOk false ∧ (smallTable 0x22).idtr.limit.toNat < 35) := by
  intro ev ex
  refine ⟨?_, ?_, ?_, ?_, by decide, by decide, by decide, by decide, prefixesOk_of rfl rfl false, by decide⟩
  · obtain ⟨e, t, h, hp⟩ := enterFails_exists (ev := ex 14) (s := gated false) (p := fun e _ => e.newTask) (by decide +kernel)
    exact ⟨e, t, h, hp⟩
  · obtain ⟨e, t, h, hp⟩ := enterFails_exists (ev := ev 2) (s := gated false)
      (p := fun e t => !e.newTask && !makesDouble (ev 2) e.vector &&
        enters { vector := e.vector, kind := .exception, ret := (gated false).eip, code := e.code, rf := true }
          (undone (gated false) t)) (by decide +kernel)
    simp only [Bool.and_eq_true, Bool.not_eq_true'] at hp
    exact ⟨e, t, h, hp.1.1, hp.1.2, enters_exists hp.2⟩
  · obtain ⟨e, t, h, hp⟩ := enterFails_exists (ev := ev 0x21) (s := smallTable 0x23)
      (p := fun e t => !e.newTask && makesDouble (ev 0x21) e.vector &&
        enters (abortOf (smallTable 0x23) 5) (undone (smallTable 0x23) t)) (by decide +kernel)
    simp only [Bool.and_eq_true, Bool.not_eq_true'] at hp
    exact ⟨e, t, h, hp.1.1, hp.1.2, enters_exists hp.2⟩
  · obtain ⟨e, t, h, hp⟩ := enterFails_exists (ev := ev 0x21) (s := smallTable 0x22)
      (p := fun e t => !e.newTask && makesDouble (ev 0x21) e.vector &&
        enterFails (abortOf (smallTable 0x22) 5) (undone (smallTable 0x22) t) fun x _ => !x.newTask) (by decide +kernel)
    simp only [Bool.and_eq_true, Bool.not_eq_true'] at hp
    obtain ⟨x, v, hv, hx⟩ := enterFails_exists hp.2
    exact ⟨e, t, h, hp.1.1, hp.1.2, x, v, hv, by simpa using hx⟩

/-- An exception of the steps, exception 8 with a handler and without one, an exception of a new task, a fault and a refusal. -/
theorem witness_stepRunsDecodedInstruction_error :
    ((raise 6 : M Retire) real.begun = .error (.exc { vector := 6, code := none, newTask := false }) real.begun) ∧
    (∀ n, (raiseCode 8 0 : M Retire) (smallTable n).begun =
      .error (.exc { vector := 8, code := some 0, newTask := false }) (smallTable n).begun) ∧
    (∃ v, enter (abortOf (smallTable 0x23) 5) (undone (smallTable 0x23) (smallTable 0x23).begun) = .ok () v) ∧
    (∃ x v, enter (abortOf (smallTable 0x22) 5) (undone (smallTable 0x22) (smallTable 0x22).begun) = .error (.exc x) v ∧
      x.newTask = false) ∧
    ((inNewTask (raiseCode 10 0) : M Retire) real.begun =
      .error (.exc { vector := 10, code := some 0, newTask := true }) real.begun) ∧
    ((stopFault .etMismatch : M Retire) real.begun = .error (.fault .etMismatch) real.begun) ∧
    ((refuse .repeatPrefix : M Retire) real.begun = .error (.refuse .repeatPrefix) real.begun) ∧
    (prefixRecords .hlt).isNone = true := by
  refine ⟨rfl, fun _ => rfl, enters_exists (by decide +kernel), ?_, rfl, rfl, rfl, rfl⟩
  obtain ⟨x, v, hv, hx⟩ := enterFails_exists (ev := abortOf (smallTable 0x22) 5)
    (s := undone (smallTable 0x22) (smallTable 0x22).begun) (p := fun x _ => !x.newTask) (by decide +kernel)
  exact ⟨x, v, hv, by simpa using hx⟩

theorem witness_interruptInstructions :
    let o : State := { real with flags := { real.flags with ovf := true } }
    real.prefixesOk false ∧ realEntryReady real 0xFF = true ∧ realEntryReady real 3 = true ∧
    o.prefixesOk false ∧ realEntryReady o 4 = true ∧ o.flags.ovf = true ∧ real.flags.ovf = false ∧
    real.protectedMode = false ∧ real.v86Allowed = true ∧ canPeekItems real real.osz 3 = true ∧
    targetOk real (item real real.osz 0) = true ∧
    virtual.prefixesOk false ∧ virtual.protectedMode = false ∧ virtual.v86Allowed = true ∧
    (user.cr0.pe = true ∧ user.flat = true ∧ softVector user (.int 1) = some 1 ∧ softRefused user 1 = some 13 ∧
      softRefused prot 2 = some 13 ∧ softRefused prot 0x20 = some 13 ∧
      softRefused { prot with idtr := { prot.idtr with base := 0x1FF8 }, mem := cells 0x2005 [0x0E] } 1 = some 11) ∧
    (let p := real.ea (.direct16 0xFFFC)
     let hi := p.2 + BitVec.ofNat 32 real.osz.width.bytes
     real.canAccess p.1 p.2 real.osz.width.bytes false = true ∧
      real.canAccess p.1 hi real.osz.width.bytes false = true) :=
  ⟨real_prefixes _, by decide, by decide, prefixesOk_of rfl rfl false, by decide, by decide, by decide, by decide,
    by decide, by decide, by decide, virtual_prefixes _, by decide, by decide, by decide, by decide⟩

theorem witness_flagInstructions : user.prefixesOk false ∧ FlagOp.clc.ready user = true ∧ FlagOp.sti.ready prot = true :=
  ⟨user_prefixes _, by decide, by decide⟩

theorem witness_tableRegisterResult :
    real.prefixesOk false ∧ (TableOp.sgdt (.direct16 0xFFFA)).ready real = true ∧
    (TableOp.lidt (.direct16 0xFFFA)).ready real = true := ⟨real_prefixes _, by decide, by decide⟩

/-- The operands 0028H, an LDT, 0030H, a free task state segment, and a null selector. -/
theorem witness_systemLoads :
    let s : State := { prot with regs := #v[0x28, 0x30, 3, 0, 0, 0, 0, 0] }
    s.prefixesOk false ∧ s.cpl = 0 ∧ s.protectedMode = true ∧ s.readable .w16 (s.locate (.reg 0)) = true ∧
    lldtReady s (s.valueAt .w16 (s.locate (.reg 0))) = true ∧ lldtReady s (s.valueAt .w16 (s.locate (.reg 2))) = true ∧
    ltrReady s (s.valueAt .w16 (s.locate (.reg 1))) = true :=
  ⟨prefixesOk_of rfl rfl false, by decide⟩

/-- What LLDT refuses: an entry beyond the table, a task state segment, the local table, an LDT that is not present; and LTR: a
null selector, an entry beyond the table, an LDT, a busy task, one that is not present. -/
theorem witness_systemLoads_error :
    (∀ x ∈ ([(prot, 0x58, 13, 0x58), (prot, 0x30, 13, 0x30), (prot, 0x2C, 13, 0x2C), (patched prot [(0x102D, 2)], 0x28, 11, 0x28)] :
        List (State × Word32 × Byte × Word32)),
      let s := selecting x.1 x.2.1
      let v : Word16 := s.valueAt .w16 (s.locate (.reg 0))
      s.prefixesOk false ∧ s.cpl = 0 ∧ s.protectedMode = true ∧ s.flat = true ∧ selNull v = false ∧
        firstFailing (systemChecks s [2] v) = some x.2.2) ∧
    (∀ x ∈ ([(prot, 3, 13, 0), (prot, 0x58, 13, 0x58), (prot, 0x28, 13, 0x28), (prot, 0x48, 13, 0x48),
        (patched prot [(0x1035, 9)], 0x30, 11, 0x30)] : List (State × Word32 × Byte × Word32)),
      let s := selecting x.1 x.2.1
      let v : Word16 := s.valueAt .w16 (s.locate (.reg 0))
      s.prefixesOk false ∧ s.cpl = 0 ∧ s.protectedMode = true ∧ s.flat = true ∧
        firstFailing ((!selNull v, 13, 0) :: systemChecks s [1, 9] v) = some x.2.2) := by
  unfold State.prefixesOk
  decide +kernel

theorem witness_protectionQueries :
    prot.prefixesOk false ∧ prot.protectedMode = true ∧ prot.flat = true ∧
    prot.readable ((Query.lar 0 (.mem (.direct32 0xFFFFFFFC))).operand prot).1
      (prot.locate ((Query.lar 0 (.mem (.direct32 0xFFFFFFFC))).operand prot).2) = true ∧
    arplReady prot (.mem (.direct32 0xFFFFFFFE)) 1 = true :=
  ⟨prot_prefixes _, by decide⟩

/-- R566: with a 32-bit operand LAR reads four bytes, so that a memory operand two bytes below the end of the segment is
exception 13; with a 16-bit one it is a null selector. -/
theorem test_lar_operand (wide : Bool) :
    let s : State := { prot with cs := { prot.cs with db := wide } }
    (match queryLoad [] (accessRights s.osz) 0 (.mem (.direct32 0xFFFFFFFE)) s with
     | .error (.exc e) _ => wide && e.vector == 13
     | .ok _ t => !wide && !t.flags.zf
     | _ => false) = true := by
  cases wide <;> decide

/-- At level 0 every port; at level 3 port 7 by a clear bit of the permission bitmap, and not port 3, whose bit is set; a word at
port FFFFH where the task state segment holds the bit of the number 10000H, and not where it ends one byte before (log entry
44); in virtual-8086 mode with IOPL 0 the same two ports by the bitmap (log entry 47). -/
theorem witness_portTransfer :
    let s : State := { user with
      cfg := { user.cfg with hasIoBitmap := true }, tr := { user.tr with limit := 0x6A }
      mem := cells 0x3066 [0x68, 0, 0x08] }
    (real.cfg.bus16 = [] ∧ ([1, 2, 3, 4] : List Byte) ≠ []) ∧
    prot.prefixesOk false ∧ portsPermitted prot 0xFFFC 4 = true ∧ s.prefixesOk false ∧ portsPermitted s 7 1 = true ∧
    s.flat = true ∧ portsPermitted s 3 1 = false ∧ user.prefixesOk false ∧ portsPermitted user 7 1 = false ∧
    (let u : State := { s with tr := { s.tr with limit := 0x2069 } }
     let v : State := { s with tr := { s.tr with limit := 0x2068 } }
     portsPermitted u 0xFFFF 2 = true ∧ portsPermitted v 0xFFFF 2 = false ∧ portsPermitted v 0xFFFF 1 = true) ∧
    (let x : State := { virtual with
       flags := { virtual.flags with iopl := 0 }, cfg := { s.cfg with v86IoIoplSensitive := true }, tr := s.tr, mem := s.mem }
     x.prefixesOk false ∧ x.flat = true ∧ portsPermitted x 7 1 = true ∧ portsPermitted x 3 1 = false) :=
  ⟨by decide, prot_prefixes _, by decide, prefixesOk_of rfl rfl false, by decide, by decide, by decide,
    user_prefixes _, by decide, by decide, prefixesOk_of rfl rfl false, by decide⟩

theorem witness_prefixBytes : ∃ f, prefixRecords .prefixLock = some f := ⟨_, rfl⟩

/-- `prot` with an 80387 fitted and ready. -/
def numeric (busy error em ts : Bool) : State :=
  { prot with
    cfg := { prot.cfg with coproc := .i80387 }, pins := { prot.pins with busy := busy, error := error }
    cr0 := { prot.cr0 with et := true, em := em, ts := ts, mp := true } }

theorem numeric_prefixes (a b c d e : Bool) : (numeric a b c d).prefixesOk e := prefixesOk_of rfl rfl e

/-- `numeric` with a store that is due. -/
def numericDue (pereq : Bool) : State :=
  let s := numeric false false false false
  { s with pins := { s.pins with pereq := pereq }
           cop := { s.cop with due := some { la := 0x600, addrs := [0x600, 0x601] } } }

theorem witness_coprocessorResult :
    (let s := numeric false false false false
     s.prefixesOk false ∧ s.cop.due = none ∧
      escUse (.frstor (.direct32 0xFFFFFF94)) = some (.reads (.direct32 0xFFFFFF94) 94 108) ∧
      s.cr0.em = false ∧ s.cr0.ts = false ∧ etFits s = true ∧ busySeen s = false ∧ errorSeen s = false ∧
      (EscUse.reads (.direct32 0xFFFFFF94) 94 108).ready s = true ∧ escNoWait (.fnstcw lastWord) = true ∧
      ¬(s.cr0.mp = true ∧ s.cr0.ts = true)) ∧
    (let s := numericDue true
     s.cop.due = some { la := 0x600, addrs := [0x600, 0x601] } ∧ s.prefixesOk false ∧ busySeen s = false ∧
      ¬(s.cr0.mp = true ∧ s.cr0.ts = true) ∧ escUse (.fnop 0) = some .none ∧ s.cr0.em = false ∧ s.cr0.ts = false ∧
      etFits s = true ∧ s.pins.reset = false ∧ s.pins.hold = false ∧ s.cfg.coproc ≠ .none ∧ s.pins.pereq = true ∧ s.run = .executing) :=
  ⟨⟨numeric_prefixes .., rfl, rfl, by decide⟩, rfl, prefixesOk_of rfl rfl false, by decide, by decide, rfl, by decide⟩

/-- R87, R610: with CR0.ET = 0 a double word goes to the coprocessor in two words, the low one first. -/
theorem test_word_items : (let s := numeric false false false false
    holdsAfter (.fld (.m32 (.direct32 0x600)))
      { s with cfg := { s.cfg with coproc := .i80287 }, cr0 := { s.cr0 with et := false }, mem := cells 0x600 [1, 2, 3, 4] }
      fun t => t.bus.take 2 == [.copPut [3, 4], .copPut [1, 2]]) = true := by decide +kernel

/-- R692: no store is made while the processor is halted. -/
theorem test_halted_pereq : (match step { numericDue true with run := .halted } with
    | .next t => t.run == .halted && t.cop.due.isSome
    | _ => false) = true := by decide

/-- An 80387 with CR0.ET = 0, a store due and PEREQ active. -/
def mismatched : State := { numericDue true with cr0 := { (numericDue true).cr0 with et := false } }

theorem witness_coprocessorStops :
    (mismatched.prefixesOk false ∧ etFits mismatched = false ∧ mismatched.cop.due ≠ none ∧ mismatched.cr0.em = false ∧
      mismatched.cr0.ts = false ∧ ¬(mismatched.cr0.mp = true ∧ mismatched.cr0.ts = true) ∧ busySeen mismatched = false ∧
      mismatched.pins.reset = false ∧ mismatched.pins.hold = false ∧ mismatched.pins.pereq = true ∧
      mismatched.run = .executing) ∧
    (∀ a b c d : Bool, (numeric a b c d).prefixesOk false) ∧ escUse (.fnop 0) = some .none ∧
    (numeric true true true false).cr0.em = true ∧ (numeric true true false true).cr0.ts = true ∧
    ((numeric true true false false).cr0.em = false ∧ (numeric true true false false).cr0.ts = false ∧
      etFits (numeric true true false false) = true ∧ escNoWait (.fnop 0) = false ∧
      busySeen (numeric true true false false) = true) ∧
    (busySeen (numeric false true false false) = false ∧ errorSeen (numeric false true false false) = true ∧
      (numeric false true false false).cop.due = none) ∧
    ((numeric true true false true).cr0.mp = true ∧ (numeric true true false true).cr0.ts = true) ∧
    ¬((numeric true true false false).cr0.mp = true ∧ (numeric true true false false).cr0.ts = true) :=
  ⟨⟨prefixesOk_of rfl rfl false, by decide⟩, fun _ _ _ _ => numeric_prefixes .., rfl, by decide⟩

/-- R612: with CR0.ET wrong the store that is due is not made. -/
theorem test_et_wrong : (match step mismatched with
    | .fault f => f == .etMismatch
    | _ => false) = true := by decide

theorem witness_legalityFaults :
    (({ Pfx.none with lock := true } : Pfx).lock = true ∧ lockable .nop = false ∧ (prefixRecords .nop).isNone = true) ∧
    (real.prefixesOk false ∧ protectedOnly (.str (.reg 0)) = true ∧ real.protectedMode = false) ∧
    (user.prefixesOk false ∧ privileged .hlt = true ∧ protectedOnly .hlt = false ∧ privileged (.ltr (.reg 0)) = true ∧
      user.protectedMode = true ∧ user.cpl ≠ 0 ∧ user.ifAllowed = false ∧ unnamed (.mov (.r32Tr 0 3)) = true ∧
      unnamed .hlt = false) ∧
    (let s : State := { virtual with flags := { virtual.flags with iopl := 2 } }
     s.prefixesOk false ∧ v86Sensitive .iret = true ∧ s.v86 = true ∧ s.flags.iopl ≠ 3) :=
  ⟨by decide, ⟨real_prefixes _, by decide⟩, ⟨user_prefixes _, by decide⟩, prefixesOk_of rfl rfl false, by decide⟩

end Sys2Proof.Tests
end

section
/-!
PROOF. What other masters do between the bus cycles of the processor, and when: the turns of the accesses, of a
read-modify-write and of a locked sequence. It settles O15.
-/
namespace Sys2Proof.Machine

open Sys2Proof.Claims

/-! ## A turn of the bus -/

theorem stale_setPhysByte (s : State) (a : Word32) (b : Byte) :
    (s.setPhysByte a b).stale = { s.stale with cells := (a.toNat, s.physByte a) :: s.stale.cells } := rfl

/-- What the prefetch may supply for a byte, it may still supply after a store (R110). -/
theorem mem_fetchChoices_setPhysByte {s : State} {c : Word32} {x : Byte} (h : x ∈ s.fetchChoices c) (a : Word32)
    (b : Byte) : x ∈ (s.setPhysByte a b).fetchChoices c := by
  by_cases hc : c = a
  · subst hc
    simp only [State.fetchChoices, stale_setPhysByte, List.mem_cons, List.filter_cons, beq_self_eq_true, if_true,
      List.map_cons] at h ⊢
    exact .inr h
  · have hr : (s.setPhysByte a b).physByte c = s.physByte c :=
      memRead_memWrite_other _ _ _ _ fun e => hc (BitVec.eq_of_toNat_eq e)
    have hn : a.toNat ≠ c.toNat := fun e => hc (BitVec.eq_of_toNat_eq e).symm
    simpa only [State.fetchChoices, hr, stale_setPhysByte, List.filter_cons, beq_iff_eq, hn, if_false] using h

theorem mem_fetchChoices_setPhysBytes {s : State} {c : Word32} {x : Byte} (h : x ∈ s.fetchChoices c)
    (as : List Word32) (bs : List Byte) : x ∈ (s.setPhysBytes as bs).fetchChoices c := by
  induction as generalizing s bs with
  | nil => exact h
  | cons a as ih =>
    cases bs with
    | nil => exact h
    | cons b bs => exact ih (mem_fetchChoices_setPhysByte h a b) bs

theorem mem_fetchChoices_turned {s : State} {c : Word32} {x : Byte} (h : x ∈ s.fetchChoices c) :
    x ∈ s.turned.fetchChoices c := by
  obtain ⟨_, ht⟩ | ⟨g, gs, _, ht⟩ := s.turned_cases
  · rwa [ht]
  · rw [ht]
    exact mem_fetchChoices_setPhysBytes (s := { s with masters := gs }) h _ _

@[simp] theorem setPhysBytes_maps (s : State) (as : List Word32) (bs : List Byte) :
    (s.setPhysBytes as bs).stale.maps = s.stale.maps := by
  induction as generalizing s bs with
  | nil => rfl
  | cons a as ih =>
    cases bs with
    | nil => rfl
    | cons b bs => exact ih (s.setPhysByte a b) bs

@[simp] theorem turned_maps (s : State) : s.turned.stale.maps = s.stale.maps := by
  obtain ⟨_, ht⟩ | ⟨_, _, _, ht⟩ := s.turned_cases <;> simp [ht]

/-- A byte after a group of stores is the last one that the group stores there. -/
theorem physByte_storeGroup {s : State} (hm : Memory.wf s.mem = true) (g : List MasterWrite) (a : Word32) :
    (s.setPhysBytes (g.map MasterWrite.addr) (g.map MasterWrite.byte)).physByte a = masterByte s g a := by
  induction g generalizing s with
  | nil => rfl
  | cons w g ih =>
    rw [List.map_cons, List.map_cons, State.setPhysBytes, ih (setPhysByte_wf hm _ _)]
    simp only [masterByte, List.reverse_cons, List.find?_append]
    cases g.reverse.find? fun x => x.addr == a with
    | some x => rfl
    | none =>
      simp only [Option.none_or, physByte_setPhysByte hm]
      by_cases h : a = w.addr
      · simp [h]
      · simp [h, Ne.symm h]

theorem physByte_turned {s : State} {g : List MasterWrite} {gs : List (List MasterWrite)} (h : s.masters = g :: gs)
    (hm : Memory.wf s.mem = true) (a : Word32) : s.turned.physByte a = masterByte s g a := by
  simp only [State.turned, h]
  exact physByte_storeGroup (s := { s with masters := gs }) hm g a

/-- What a turn changes, and what it leaves. -/
theorem turned_frame {s : State} {g : List MasterWrite} {gs : List (List MasterWrite)} (h : s.masters = g :: gs) :
    s.turned = { s with mem := s.turned.mem, stale := s.turned.stale, masters := gs } := by
  have hm : s.turned.masters = gs := by simp [h]
  conv_lhs => rw [s.turned_same.eq, hm]

/-! ## Operands of several items -/

/-- Fuel beyond the length of the list makes no difference. -/
theorem piecesOf_fuel {α : Type} {k : Nat} (hk : 0 < k) {m n : Nat} {l : List α} (hm : l.length ≤ m)
    (hn : l.length ≤ n) : piecesOf k m l = piecesOf k n l := by
  induction m generalizing n l with
  | zero =>
    obtain rfl := List.length_eq_zero_iff.mp (Nat.le_zero.mp hm)
    cases n <;> rfl
  | succ m ih =>
    cases n with
    | zero =>
      obtain rfl := List.length_eq_zero_iff.mp (Nat.le_zero.mp hn)
      rfl
    | succ n =>
      have hd : (l.drop k).length ≤ m ∧ (l.drop k).length ≤ n := by simp only [List.length_drop]; omega
      simp only [piecesOf, ih hd.1 hd.2]

/-- The first item of a list of items is a piece, and the others are cut as if they stood alone. -/
theorem piecesOf_item {α : Type} {k : Nat} (hk : 0 < k) {a : List α} (ha : a.length = k) (b : List α) :
    piecesOf k (a ++ b).length (a ++ b) = a :: piecesOf k b.length b := by
  have hf : (a ++ b).length = (a ++ b).length - 1 + 1 := by simp only [List.length_append]; omega
  rw [hf, piecesOf_append hk _ a b ha,
    piecesOf_fuel hk (n := b.length) (by simp only [List.length_append]; omega) (Nat.le_refl _)]

/-- A short operand is one piece. -/
theorem piecesOf_short {α : Type} {k : Nat} {l : List α} (h0 : l ≠ []) (h : l.length ≤ k) :
    piecesOf k l.length l = [l] := by
  obtain ⟨a, t, rfl⟩ := List.exists_cons_of_ne_nil h0
  simp only [List.length_cons, piecesOf, List.isEmpty_cons, List.take_of_length_le h, List.drop_of_length_le h]
  cases t.length <;> rfl

/-- A read and a write of one piece have the same turns. -/
theorem pieceRead_masters (s : State) (as : List Word32) (bs : List Byte) :
    (s.pieceRead as).2.masters = (s.pieceWrite as bs).masters := by
  simp only [State.pieceRead, State.pieceWrite, State.cycleRead, State.cycleWrite]
  split <;> simp

theorem busRead_turns {s : State} (h : s.masters ≠ []) (k : Nat) (as : List Word32) :
    s.busRead k as = s.cyclesRead (piecesOf k as.length as) := by
  simp [State.busRead, h]

theorem busWrite_turns {s : State} (h : s.masters ≠ []) (k : Nat) (as : List Word32) (bs : List Byte) :
    s.busWrite k as bs = s.cyclesWrite (piecesOf k as.length as) bs := by
  simp [State.busWrite, h]

/-- The other masters have groups left after a write only if they had some before it. -/
theorem masters_of_busWrite {s : State} {k : Nat} {as : List Word32} {bs : List Byte}
    (h : (s.busWrite k as bs).masters ≠ []) : s.masters ≠ [] := fun e => h (by
  rw [State.busWrite_alone e, State.setPhysBytes_masters, e])

/-- The write of a short operand, where other masters have the bus before each of its cycles. -/
theorem busWrite_piece {s : State} {k : Nat} {as : List Word32} {bs : List Byte} (hm : s.masters ≠ []) (h0 : as ≠ [])
    (h : as.length ≤ k) (hl : bs.length = as.length) : s.busWrite k as bs = s.pieceWrite as bs := by
  rw [busWrite_turns hm, piecesOf_short h0 h]
  simp only [State.cyclesWrite, List.take_of_length_le (Nat.le_of_eq hl)]

/-- The read of a short operand; without other masters its cycles make no difference (R85, R104). -/
theorem busRead_piece {s : State} {k : Nat} {as : List Word32} (h0 : as ≠ []) (h : as.length ≤ k) :
    s.busRead k as = s.pieceRead as := by
  by_cases hm : s.masters = []
  · rw [State.busRead_alone hm]
    simp only [State.pieceRead, State.cycleRead, State.turned_alone hm, dwordParts, List.splitAt_eq]
    split
    · rfl
    · rw [← List.map_append, List.take_append_drop]
  · rw [busRead_turns hm, piecesOf_short h0 h]
    simp only [State.cyclesRead, List.append_nil]

theorem busRead_items {s : State} {k : Nat} {as : List Word32} (bs : List Word32) (hk : 0 < k) (ha : as.length = k)
    (hm : s.masters ≠ []) (hn : (s.pieceRead as).2.masters ≠ []) :
    s.busRead k (as ++ bs) =
      ((s.busRead k as).1 ++ ((s.busRead k as).2.busRead k bs).1, ((s.busRead k as).2.busRead k bs).2) := by
  have h0 : as ≠ [] := List.ne_nil_of_length_pos (by omega)
  rw [busRead_piece h0 (Nat.le_of_eq ha), busRead_turns hn, busRead_turns hm, piecesOf_item hk ha]
  rfl

theorem busWrite_items {s : State} {k : Nat} {as bs : List Word32} {cs ds : List Byte} (hk : 0 < k)
    (ha : as.length = k) (hc : cs.length = k) (hn : (s.busWrite k as cs).masters ≠ []) :
    s.busWrite k (as ++ bs) (cs ++ ds) = (s.busWrite k as cs).busWrite k bs ds := by
  have h0 : as ≠ [] := List.ne_nil_of_length_pos (by omega)
  have hm := masters_of_busWrite hn
  rw [busWrite_turns hn, busWrite_turns hm, busWrite_piece hm h0 (Nat.le_of_eq ha) (hc.trans ha.symm),
    piecesOf_item hk ha]
  simp only [State.cyclesWrite, ha, ← hc, List.take_left, List.drop_left]

/-! ## Operands of one piece -/

/-- The addresses of an operand in two parts. -/
theorem byteAddrs_add (la : Word32) (m n : Nat) :
    byteAddrs la (m + n) = byteAddrs la m ++ byteAddrs (la + BitVec.ofNat 32 m) n := by
  simp only [byteAddrs, List.range_add, List.map_append, List.map_map]
  congr 1
  apply List.map_congr_left
  intro k _
  simp only [Function.comp_apply, BitVec.ofNat_add, BitVec.add_assoc]

theorem byteAddrs_ne_nil {n : Nat} (h : 0 < n) (la : Word32) : byteAddrs la n ≠ [] :=
  List.ne_nil_of_length_pos (by simpa using h)

/-- The number of bytes from an address to the end of its double word. -/
def roomIn (la : Word32) : Nat := 4 - la.toNat % 4

/-- An operand is cut at the end of its first double word. -/
theorem dwordParts_byteAddrs {n : Nat} (h0 : 0 < n) (la : Word32) :
    dwordParts (byteAddrs la n) = ((byteAddrs la n).take (roomIn la), (byteAddrs la n).drop (roomIn la)) := by
  obtain ⟨m, rfl⟩ : ∃ m, n = m + 1 := ⟨n - 1, by omega⟩
  have hh : (byteAddrs la (m + 1)).headD 0 = la := by simp [byteAddrs, List.range_succ_eq_map]
  rw [dwordParts, hh, List.splitAt_eq]
  rfl

/-- An operand inside one double word has no high part. -/
theorem dwordParts_inside {la : Word32} {n : Nat} (h0 : 0 < n) (h : n ≤ roomIn la) :
    dwordParts (byteAddrs la n) = (byteAddrs la n, []) := by
  rw [dwordParts_byteAddrs h0, List.take_of_length_le (by simpa using h), List.drop_of_length_le (by simpa using h)]

/-- The low and the high part of an operand that crosses a double word. -/
theorem dwordParts_across {la : Word32} {n : Nat} (h : roomIn la < n) :
    dwordParts (byteAddrs la n) =
      (byteAddrs la (roomIn la), byteAddrs (la + BitVec.ofNat 32 (roomIn la)) (n - roomIn la)) := by
  rw [dwordParts_byteAddrs (by omega)]
  obtain ⟨m, rfl⟩ : ∃ m, n = roomIn la + m := ⟨n - roomIn la, by omega⟩
  rw [byteAddrs_add, List.take_left' (by simp), List.drop_left' (by simp), Nat.add_sub_cancel_left]

theorem pieceRead_inside {la : Word32} {n : Nat} (h0 : 0 < n) (h : n ≤ roomIn la) (s : State) :
    s.pieceRead (byteAddrs la n) = ((byteAddrs la n).map s.turned.physByte, s.turned) := by
  simp only [State.pieceRead, dwordParts_inside h0 h]
  rfl

theorem pieceRead_across {la : Word32} {n : Nat} (h : roomIn la < n) (s : State) :
    s.pieceRead (byteAddrs la n) =
      ((byteAddrs la (roomIn la)).map s.turned.turned.physByte ++
        (byteAddrs (la + BitVec.ofNat 32 (roomIn la)) (n - roomIn la)).map s.turned.physByte, s.turned.turned) := by
  have hne : (byteAddrs (la + BitVec.ofNat 32 (roomIn la)) (n - roomIn la)).isEmpty = false := by
    simpa using byteAddrs_ne_nil (by omega) _
  simp only [State.pieceRead, dwordParts_across h, hne]
  rfl

theorem pieceWrite_inside {la : Word32} {n : Nat} (h0 : 0 < n) (h : n ≤ roomIn la) (s : State) (bs : List Byte) :
    s.pieceWrite (byteAddrs la n) bs = s.turned.setPhysBytes (byteAddrs la n) bs := by
  simp only [State.pieceWrite, dwordParts_inside h0 h]
  rfl

theorem pieceWrite_across {la : Word32} {n : Nat} (h : roomIn la < n) (s : State) (bs : List Byte) :
    s.pieceWrite (byteAddrs la n) bs =
      (s.turned.setPhysBytes (byteAddrs (la + BitVec.ofNat 32 (roomIn la)) (n - roomIn la))
        (bs.drop (roomIn la))).turned.setPhysBytes (byteAddrs la (roomIn la)) (bs.take (roomIn la)) := by
  have hne : (byteAddrs (la + BitVec.ofNat 32 (roomIn la)) (n - roomIn la)).isEmpty = false := by
    simpa using byteAddrs_ne_nil (by omega) _
  simp only [State.pieceWrite, dwordParts_across h, hne, byteAddrs_length]
  rfl

/-- The physical addresses of an operand, paging being off, whatever the other masters are about to do. -/
theorem accessAddrs_unpaged {s : State} {r : SReg} {off : Word32} {n : Nat} {w : Bool} (hp : s.cr0.pg = false)
    (h : s.segAllows r off n w = true) : accessAddrs r off n w s = .ok (byteAddrs (linear (s.seg r) off) n) s := by
  simp only [accessAddrs, M_bind, segCheck_run h, M_get, translateRange_flat hp]

/-- `LRead` of at most four bytes: the turns of its cycles. -/
theorem lreadBytes_piece {s : State} {r : SReg} {off : Word32} {n : Nat} (hp : s.cr0.pg = false) (h0 : 0 < n)
    (h4 : n ≤ 4) (h : s.segAllows r off n false = true) :
    lreadBytes r off n s =
      .ok (s.pieceRead (byteAddrs (linear (s.seg r) off) n)).1
        ((s.pieceRead (byteAddrs (linear (s.seg r) off) n)).2.noteAccess (linear (s.seg r) off) n false) := by
  have hb := busRead_piece (s := s) (k := 4) (byteAddrs_ne_nil h0 (linear (s.seg r) off)) (by simpa using h4)
  simp only [lreadBytes, M_bind, M_get, accessAddrs_unpaged hp h, readChecked, M_modifyGet, M_modify, M_pure, hb,
    byteAddrs_length]

/-- `LWrite` of at most four bytes: the turns of its cycles. -/
theorem lwriteBytes_piece {s : State} {r : SReg} {off : Word32} {bs : List Byte} (hp : s.cr0.pg = false)
    (h0 : bs ≠ []) (h4 : bs.length ≤ 4) (h : s.segAllows r off bs.length true = true) (hm : s.masters ≠ []) :
    lwriteBytes r off bs s =
      .ok () ((s.pieceWrite (byteAddrs (linear (s.seg r) off) bs.length) bs).noteAccess (linear (s.seg r) off)
        bs.length true) := by
  have hb := busWrite_piece (k := 4) hm (byteAddrs_ne_nil (List.length_pos_iff.mpr h0) (linear (s.seg r) off))
    (by simpa using h4) (byteAddrs_length _ _).symm
  simp only [lwriteBytes, M_bind, M_get, accessAddrs_unpaged hp h, writeChecked, State.checkedWrite, M_modify, hb]

/-! ## What turns leave unchanged -/

theorem State.SameButMemory.seg {s t : State} (h : s.SameButMemory t) (r : SReg) : t.seg r = s.seg r :=
  h.field (fun u => u.seg r) fun _ _ _ => by cases r <;> rfl

theorem State.SameButMemory.locate {s t : State} (h : s.SameButMemory t) (rm : RM) : t.locate rm = s.locate rm :=
  h.field (fun u => u.locate rm) fun _ _ _ => rfl

theorem State.SameButMemory.reg {s t : State} (h : s.SameButMemory t) (w : Width) (r : Fin 8) :
    t.reg w r = s.reg w r := h.field (fun u => u.reg w r) fun _ _ _ => rfl

theorem State.SameButMemory.osz {s t : State} (h : s.SameButMemory t) : t.osz = s.osz :=
  h.field State.osz fun _ _ _ => rfl

/-- The segment checks depend on CR0 and the segment registers alone. -/
theorem segAllows_congr {s t : State} (hc : t.cr0 = s.cr0) (hs : ∀ r, t.seg r = s.seg r) (r : SReg) (off : Word32)
    (n : Nat) (w : Bool) : t.segAllows r off n w = s.segAllows r off n w := by
  simp only [State.segAllows, State.inReach, State.realMode, hc, hs]

theorem updatable_congr {s t : State} {w : Width} {l : Loc} (hc : t.cr0 = s.cr0) (hm : t.masters = s.masters)
    (hs : ∀ r, t.seg r = s.seg r) : t.updatable w l = s.updatable w l := by
  cases l with
  | reg r => rfl
  | mem r off => simp only [State.updatable, State.canAccess, State.flat, hc, hm, segAllows_congr hc hs]

@[simp] theorem seg_begun (s : State) (r : SReg) : s.begun.seg r = s.seg r := by cases r <;> rfl

@[simp] theorem seg_withFlags (s : State) (f : EFlags) (r : SReg) : (s.withFlags f).seg r = s.seg r := by
  cases r <;> rfl

@[simp] theorem seg_turned (s : State) (r : SReg) : s.turned.seg r = s.seg r := s.turned_same.seg r

theorem lockedOut_same (s : State) : s.SameButMemory (lockedOut s) := s.turned_same.trans rfl

/-- What the statements say of an operand under lock: the checks of its read and of its write pass. -/
theorem lockedOut_updatable {s : State} {w : Width} {r : SReg} {off : Word32}
    (h : (lockedOut s).updatable w (.mem r off) = true) :
    s.cr0.pg = false ∧ s.segAllows r off w.bytes false = true ∧ s.segAllows r off w.bytes true = true := by
  have hc : (lockedOut s).cr0 = s.cr0 := (lockedOut_same s).field State.cr0 fun _ _ _ => rfl
  obtain ⟨hr, hw⟩ := updatable_readable h
  rw [← hc, ← segAllows_congr hc (lockedOut_same s).seg, ← segAllows_congr hc (lockedOut_same s).seg]
  exact ⟨canAccess_pg hr, canAccess_seg hr, canAccess_seg hw⟩

theorem lockedOut_begun_updatable {s : State} {w : Width} {l : Loc} (h : (lockedOut s).updatable w l = true) :
    (lockedOut s.begun).updatable w l = true := by
  have hc (u : State) : (lockedOut u).cr0 = u.cr0 := (lockedOut_same u).field State.cr0 fun _ _ _ => rfl
  have hs (r : SReg) : (lockedOut s.begun).seg r = (lockedOut s).seg r := by
    rw [(lockedOut_same _).seg, (lockedOut_same _).seg, seg_begun]
  exact (updatable_congr (s := lockedOut s) (t := lockedOut s.begun) ((hc _).trans (hc s).symm) rfl hs).trans h

/-! ## The read-modify-write -/

theorem width_bytes_pos (w : Width) : 0 < w.bytes := by cases w <;> decide

theorem width_bytes_le (w : Width) : w.bytes ≤ 4 := by cases w <;> decide

/-- The operand lies in one double word. -/
def InOneDword (s : State) (w : Width) (r : SReg) (off : Word32) : Prop := w.bytes ≤ roomIn (linear (s.seg r) off)

/-- The write check alone has no turn: nothing moves. -/
theorem checkAccess_unpaged {s : State} {r : SReg} {off : Word32} {n : Nat} {w : Bool} (hp : s.cr0.pg = false)
    (h : s.segAllows r off n w = true) : checkAccess r off n w s = .ok () s := by
  simp only [checkAccess, M_bind, accessAddrs_unpaged hp h, M_pure]

/-- A read inside one double word has one turn, before it. -/
theorem lread_turn {s : State} {w : Width} {r : SReg} {off : Word32} (hp : s.cr0.pg = false)
    (h : s.segAllows r off w.bytes false = true) (hin : InOneDword s w r off) :
    lread w r off s = .ok (s.turned.operand w r off) (s.turned.afterLoad r off w.bytes) := by
  simp only [lread, M_bind, lreadBytes_piece hp (width_bytes_pos w) (width_bytes_le w) h,
    pieceRead_inside (width_bytes_pos w) hin, M_pure, State.operand, State.operandBytes, State.afterLoad, seg_turned]

/-- A write inside one double word has one turn, before it. -/
theorem lwrite_turn {s : State} {w : Width} {r : SReg} {off : Word32} (hp : s.cr0.pg = false)
    (h : s.segAllows r off w.bytes true = true) (hin : InOneDword s w r off) (v : BitVec w.bits) :
    lwrite w r off v s = .ok () (s.turned.afterStore r off (bytesOf w v)) := by
  by_cases hm : s.masters = []
  · rw [State.turned_alone hm]
    exact lwrite_flat v (by simp [State.canAccess, State.flat, hp, hm, h])
  · have h0 : bytesOf w v ≠ [] := List.ne_nil_of_length_pos (by simpa using width_bytes_pos w)
    have h4 : (bytesOf w v).length ≤ 4 := by simpa using width_bytes_le w
    simp only [lwrite, lwriteBytes_piece hp h0 h4 (by simpa using h) hm, bytesOf_length,
      pieceWrite_inside (width_bytes_pos w) hin, State.afterStore, seg_turned]

/-- The read and the write of a read-modify-write inside one double word: a turn before each (R89, R104). -/
theorem update_turns {s : State} {w : Width} {r : SReg} {off : Word32} {f : BitVec w.bits → M (BitVec w.bits)}
    {g : BitVec w.bits → BitVec w.bits × EFlags} (hp : s.cr0.pg = false) (hr : s.segAllows r off w.bytes false = true)
    (hw : s.segAllows r off w.bytes true = true) (hin : InOneDword s w r off)
    (hf : ∀ a u, u.flags = s.flags → f a u = .ok (g a).1 (u.withFlags (g a).2)) :
    (do let v ← f (← readLoc w (.mem r off)); writeLoc w (.mem r off) v : M Unit) s =
      .ok () (updatedInTurns s w (.mem r off) g) := by
  have hfl : (s.turned.afterLoad r off w.bytes).flags = s.flags := by simp [State.afterLoad]
  have hs (e : EFlags) (q : SReg) : ((s.turned.afterLoad r off w.bytes).withFlags e).seg q = s.seg q := by simp
  have hc (e : EFlags) : ((s.turned.afterLoad r off w.bytes).withFlags e).cr0 = s.cr0 := by
    simp [State.withFlags, State.afterLoad]
  have hwr (e : EFlags) (v : BitVec w.bits) := lwrite_turn (s := (s.turned.afterLoad r off w.bytes).withFlags e)
    (by rw [hc, hp]) (by rw [segAllows_congr (hc e) (hs e), hw]) (by rwa [InOneDword, hs]) v
  simp only [M_bind, readLoc, writeLoc, lread_turn hp hr hin, hf _ _ hfl, hwr]
  rfl

/-- Without LOCK a read-modify-write has a turn before its read and one before its write. -/
theorem modifyRM_turns {s : State} {w : Width} {m : MemOp} {f : BitVec w.bits → M (BitVec w.bits)}
    {g : BitVec w.bits → BitVec w.bits × EFlags} (hlock : s.pfx.lock = false) (hp : s.cr0.pg = false)
    (hr : s.segAllows (s.ea m).1 (s.ea m).2 w.bytes false = true)
    (hw : s.segAllows (s.ea m).1 (s.ea m).2 w.bytes true = true) (hin : InOneDword s w (s.ea m).1 (s.ea m).2)
    (hf : ∀ a u, u.flags = s.flags → f a u = .ok (g a).1 (u.withFlags (g a).2)) :
    modifyRM w (.mem m) f s = .ok () (updatedInTurns s w (s.locate (.mem m)) g) := by
  have hck : checkLoc w (s.locate (.mem m)) s = .ok () s := checkAccess_unpaged hp hw
  simp only [modifyRM, M_get_bind, M_bind_ok hck]
  rw [hlock]
  exact update_turns hp hr hw hin hf

/-! ## Locked sequences -/

/-- `t`, the end of a locked sequence that began in `s`: the other masters still have the groups behind the one that had its
turn before the sequence (R100). -/
def lockReleased (s t : State) : State := { t with masters := s.masters.tail }

/-- A locked sequence: one turn before it, and the other masters are locked out until it is over (R100). -/
theorem locked_run {α : Type} {x : M α} {s t : State} {a : α} (h : x (lockedOut s) = .ok a t) :
    locked x s = .ok a (lockReleased s t) := by
  have h' : x { s.turned with masters := [] } = .ok a t := h
  simp only [locked, h', State.turned_masters, lockReleased]

theorem lockReleased_setReg (s t : State) (w : Width) (r : Fin 8) (v : BitVec w.bits) :
    lockReleased s (t.setReg w r v) = (lockReleased s t).setReg w r v := by cases w <;> rfl

/-- The checked part of a read-modify-write where no other master is about to use the bus. -/
theorem update_alone {s : State} {w : Width} {l : Loc} {f : BitVec w.bits → M (BitVec w.bits)} {v : BitVec w.bits}
    {g : EFlags} (h : s.updatable w l = true)
    (hf : f (s.valueAt w l) (s.afterRead w l) = .ok v ((s.afterRead w l).withFlags g)) :
    (do let v ← f (← readLoc w l); writeLoc w l v : M Unit) s =
      .ok () (((s.afterRead w l).withFlags g).afterWrite w l v) := by
  obtain ⟨h1, h2⟩ := updatable_readable h
  have h3 : ((s.afterRead w l).withFlags g).storable w l = true := by
    rw [storable_congr (s := s) (by simp [State.withFlags]) (by simp [State.withFlags]) (by simp)]
    exact h2
  simp only [M_bind, readLoc_flat h1, hf, writeLoc_flat v h3]

/-- Under LOCK a read-modify-write has one turn, before it (R100, R101). -/
theorem modifyRM_locked {s : State} {w : Width} {m : MemOp} {f : BitVec w.bits → M (BitVec w.bits)} {v : BitVec w.bits}
    {g : EFlags} (hlock : s.pfx.lock = true) (h : (lockedOut s).updatable w (s.locate (.mem m)) = true)
    (hf : f ((lockedOut s).valueAt w (s.locate (.mem m))) ((lockedOut s).afterRead w (s.locate (.mem m))) =
      .ok v (((lockedOut s).afterRead w (s.locate (.mem m))).withFlags g)) :
    modifyRM w (.mem m) f s = .ok () (lockReleased s
      ((((lockedOut s).afterRead w (s.locate (.mem m))).withFlags g).afterWrite w (s.locate (.mem m)) v)) := by
  obtain ⟨hp, _, hw⟩ := lockedOut_updatable h
  have hck : checkLoc w (s.locate (.mem m)) s = .ok () s := checkAccess_unpaged hp hw
  simp only [modifyRM, M_get_bind, M_bind_ok hck]
  rw [hlock]
  exact locked_run (update_alone h hf)

/-- XCHG with memory has one turn, before it, with or without LOCK (R100, R316). -/
theorem xchgRM_locked {s : State} {w : Width} {m : MemOp} (r : Fin 8)
    (h : (lockedOut s).updatable w (s.locate (.mem m)) = true) :
    xchgRM w (.mem m) r s =
      .ok () (lockReleased s ((((lockedOut s).afterRead w (s.locate (.mem m))).afterWrite w (s.locate (.mem m))
        (s.reg w r)).setReg w r ((lockedOut s).valueAt w (s.locate (.mem m))))) := by
  obtain ⟨hp, _, hw⟩ := lockedOut_updatable h
  obtain ⟨h1, h2⟩ := updatable_readable h
  have hck : checkLoc w (s.locate (.mem m)) s = .ok () s := checkAccess_unpaged hp hw
  have h3 : ((lockedOut s).afterRead w (s.locate (.mem m))).storable w (s.locate (.mem m)) = true := by
    rw [storable_congr (s := lockedOut s) (by simp) (by simp) (by simp)]
    exact h2
  have hx : (do let t ← readLoc w (s.locate (.mem m)); writeLoc w (s.locate (.mem m)) (s.reg w r); return t :
      M (BitVec w.bits)) (lockedOut s) = .ok ((lockedOut s).valueAt w (s.locate (.mem m)))
        (((lockedOut s).afterRead w (s.locate (.mem m))).afterWrite w (s.locate (.mem m)) (s.reg w r)) := by
    simp only [M_bind, readLoc_flat h1, writeLoc_flat _ h3, M_pure]
  have hlk : lockedIf true (s.locate (.mem m)) _ s = _ := locked_run hx
  simp only [xchgRM, M_get_bind, M_bind_ok hck]
  rw [M_bind_ok hlk, putReg_run, lockReleased_setReg]

/-! ## The instructions -/

/-- The steps `f` compute the result and the flags of `op`. -/
def Computes (op : OneOp) {w : Width} (f : BitVec w.bits → M (BitVec w.bits)) : Prop :=
  ∀ a s, f a s = .ok (op.compute a s.flags).value (s.withFlags (op.compute a s.flags).flags)

theorem OneOp.parts_congr {s t : State} (h : t.osz = s.osz) (op : OneOp) : op.parts t = op.parts s := by
  cases op <;> rename_i f <;> cases f <;> simp [OneOp.parts, incOperand, unaryParts, h]

/-- `unaryRM` is a read-modify-write with steps that compute `op`, where its function is that of `op`. -/
theorem unaryRM_run {op : OneOp} {w : Width} {rm : RM} {s t : State}
    (h : ∀ f, Computes op f → modifyRM w rm f s = .ok () t) : unaryRM w rm op.compute s = .ok () t :=
  h _ fun _ _ => rfl

theorem incForm_run (op : (n : Nat) → BitVec n → EFlags → Result n) (f : IncForm) (s : State) :
    incForm op f s = unaryRM (incOperand s f).1 (incOperand s f).2 (op _) s := by
  rw [incForm, M_get_bind]
  cases f <;> rfl

theorem unaryParts_eq (s : State) (f : UnaryForm) : unaryParts s f = (unaryWidth f s.osz, unaryOperand f) := by
  cases f <;> rfl

theorem incToMem_eq (s : State) (f : IncForm) : incToMem f = isMem (incOperand s f).2 := by cases f <;> rfl

/-- INC, DEC, NEG and NOT complete where their read-modify-write does. -/
theorem exec_oneOp {op : OneOp} {s t : State} (hp : s.prefixesOk (isMem (op.parts s).2))
    (h : ∀ f, Computes op f → modifyRM (op.parts s).1 (op.parts s).2 f s.begun = .ok () t) :
    exec op.instr s = .next (retire s t .next) := by
  cases op with
  | inc f =>
    refine withLock_next (by rwa [incToMem_eq s]) ?_
    rw [incForm_run]
    exact unaryRM_run (op := .inc f) h
  | dec f =>
    refine withLock_next (by rwa [incToMem_eq s]) ?_
    rw [incForm_run]
    exact unaryRM_run (op := .dec f) h
  | neg f =>
    rw [OneOp.parts, unaryParts_eq] at hp h
    refine withLock_next hp ?_
    rw [M_get_bind]
    exact unaryRM_run (op := .neg f) h
  | not f =>
    rw [OneOp.parts, unaryParts_eq] at hp h
    refine withLock_next hp ?_
    rw [M_get_bind]
    exact h _ fun _ _ => rfl

/-- Without LOCK: a turn before the read and one before the write. -/
theorem exec_oneOp_turns {op : OneOp} {s : State} {m : MemOp} (hm : (op.parts s).2 = .mem m) (hrep : s.pfx.rep = none)
    (h : (lockedOut s).updatable (op.parts s).1 (s.locate (.mem m)) = true) (hlock : s.pfx.lock = false)
    (hin : InOneDword s (op.parts s).1 (s.ea m).1 (s.ea m).2) :
    exec op.instr s = .next (retire s (updatedInTurns s.begun (op.parts s).1 (s.locate (.mem m)) fun v =>
      ((op.compute v s.flags).value, (op.compute v s.flags).flags)) .next) := by
  obtain ⟨hp, hr, hw⟩ := lockedOut_updatable h
  refine exec_oneOp ⟨hrep, by simp [hlock]⟩ fun f hf => ?_
  rw [hm]
  exact modifyRM_turns (s := s.begun) hlock hp hr hw hin fun a u hu => by
    rw [hf a u, hu]
    rfl

/-- Under LOCK: one turn before both. -/
theorem exec_oneOp_locked {op : OneOp} {s : State} {m : MemOp} (hm : (op.parts s).2 = .mem m) (hrep : s.pfx.rep = none)
    (h : (lockedOut s).updatable (op.parts s).1 (s.locate (.mem m)) = true) (hlock : s.pfx.lock = true) :
    exec op.instr s =
      .next (retire s (lockReleased s (op.after (lockedOut s.begun))) .next) := by
  refine exec_oneOp ⟨hrep, by simp [hm, isMem]⟩ fun f hf => ?_
  have hsame := lockedOut_same s.begun
  have hparts : op.parts (lockedOut s.begun) = op.parts s := OneOp.parts_congr hsame.osz op
  rw [OneOp.after, hparts, hm, hsame.locate]
  exact modifyRM_locked (s := s.begun) hlock (lockedOut_begun_updatable h) (hf _ _)

theorem xchgParts_congr {s t : State} (h : t.osz = s.osz) (f : XchgForm) : xchgParts t f = xchgParts s f := by
  cases f <;> simp [xchgParts, h]

/-- The forms of XCHG are one exchange. -/
theorem xchgForm_run (f : XchgForm) (s : State) :
    xchgForm f s = xchgRM (xchgParts s f).1 (xchgParts s f).2.1 (xchgParts s f).2.2 s := by
  rw [xchgForm, M_get_bind]
  cases f <;> rfl

theorem exists_mem_of_isMem {rm : RM} (h : isMem rm = true) : ∃ m, rm = .mem m := by
  cases rm with
  | reg r => cases h
  | mem m => exact ⟨m, rfl⟩

theorem xchgParts_mem {s : State} {f : XchgForm} (h : xchgToMem f = true) : ∃ m, (xchgParts s f).2.1 = .mem m := by
  cases f with
  | ebGb rm r => exact exists_mem_of_isMem h
  | evGv rm r => exact exists_mem_of_isMem h
  | eaxR r => cases h

/-- XCHG of a register with memory: one turn before the exchange. -/
theorem exec_xchg_locked {f : XchgForm} {s : State} (hrep : s.pfx.rep = none) (hmem : xchgToMem f = true)
    (h : (lockedOut s).updatable (xchgParts s f).1 (s.locate (xchgParts s f).2.1) = true) :
    exec (.xchg f) s = .next (retire s (lockReleased s (xchgAfter f (lockedOut s.begun))) .next) := by
  have hsame := lockedOut_same s.begun
  have hparts : xchgParts (lockedOut s.begun) f = xchgParts s f := xchgParts_congr hsame.osz f
  obtain ⟨m, hm⟩ := xchgParts_mem (s := s) hmem
  have hx : xchgForm f s.begun = .ok () (lockReleased s.begun (xchgAfter f (lockedOut s.begun))) := by
    rw [xchgForm_run, show xchgParts s.begun f = xchgParts s f from xchgParts_congr rfl f, xchgAfter, hparts, hm,
      hsame.locate, hsame.reg]
    rw [hm] at h
    exact xchgRM_locked _ (lockedOut_begun_updatable h)
  exact withLock_next ⟨hrep, fun _ => hmem⟩ hx

end Sys2Proof.Machine

open Sys2Proof Sys2Proof.Machine Sys2Proof.Claims

/-- Settles O15: the turns of each access come from its cut into bus cycles, and an instruction's from those of its
accesses. -/
theorem otherMasters : Obligations.OtherMasters := by
  unfold Obligations.OtherMasters
  refine ⟨fun s => ⟨State.turned_alone, fun g gs hg => ⟨turned_frame hg, physByte_turned hg⟩, turned_maps s,
    fun _ _ => mem_fetchChoices_turned⟩, ?items, ?pieces, ?oneOp, fun s f => exec_xchg_locked⟩
  case items =>
    intro s k as bs cs ds hk ha hc _ hn
    have hm := masters_of_busWrite hn
    have h0 : as ≠ [] := List.ne_nil_of_length_pos (by omega)
    have hr : (s.pieceRead as).2.masters ≠ [] := by
      rwa [pieceRead_masters s as cs, ← busWrite_piece hm h0 (Nat.le_of_eq ha) (hc.trans ha.symm)]
    exact ⟨busRead_items bs hk ha hm hr, busWrite_items hk ha hc hn⟩
  case pieces =>
    intro s r off hp
    refine ⟨fun n h0 h4 h => ⟨fun hin => ?_, fun hac => ?_⟩, fun bs h0 h4 h hm => ⟨fun hin => ?_, fun hac => ?_⟩⟩
    · rw [lreadBytes_piece hp h0 h4 h, pieceRead_inside h0 hin]
    · rw [lreadBytes_piece hp h0 h4 h, pieceRead_across hac]
      rfl
    · rw [lwriteBytes_piece hp h0 h4 h hm, pieceWrite_inside (List.length_pos_iff.mpr h0) hin]
    · rw [lwriteBytes_piece hp h0 h4 h hm, pieceWrite_across hac]
      rfl
  case oneOp =>
    intro op s m hm hrep _ w l u h
    refine ⟨fun hlock hin => exec_oneOp_turns hm hrep h hlock ?_, exec_oneOp_locked hm hrep h⟩
    exact Nat.le_sub_of_add_le' hin
end

section
/-!
PROOF. What every step keeps of memory, CR3 and the look-aside buffer: one lemma for each function of the model that makes
steps, in the order of the model's files, up to `step`. It settles O7 and O8.
-/
namespace Sys2Proof.Machine

/-! ## Invariants of memory and the paging structures -/

/-- An invariant of the parameters, CR3, the look-aside buffer and memory that all the changes the model makes to them
keep. The parameters never change. -/
structure StorageInvariant where
  holds : Config → Word32 → List TlbEntry → List Host.Cell → Prop
  /-- A byte is stored (R80). -/
  store : ∀ {c r t m}, holds c r t m → ∀ (a : Word32) (b : Byte), holds c r t (memWrite m a.toNat b)
  /-- Entries of the look-aside buffer are lost (R112, R113). -/
  forget : ∀ {c r t m}, holds c r t m → ∀ q : TlbEntry → Bool, holds c r (t.filter q) m
  /-- A walk loads an entry (R163). -/
  insert : ∀ {c r t m}, holds c r t m → ∀ e : TlbEntry,
    holds c r ((e :: t.filter fun x => x.page != e.page).take c.tlbEntries) m
  /-- CR3 is loaded (R51, R113). -/
  newBase : ∀ {c r t m}, holds c r t m → ∀ v : Word32, holds c (v &&& 0xFFFFF000) [] m
  /-- A fault takes CR3 back, and neither the buffer nor memory (R644). -/
  restore : ∀ {c r t m q u n}, holds c r t m → holds c q u n → holds c r u n
  /-- RESET (R710). -/
  reset : ∀ {c r t m}, holds c r t m → holds c 0 [] m

/-- The invariant in a state whose parameters are `c`. -/
def StorageInvariant.At (I : StorageInvariant) (c : Config) (s : State) : Prop :=
  s.cfg = c ∧ I.holds c s.cr3 s.tlb s.mem

variable {I : StorageInvariant} {c : Config} {α β : Type}

/-! ## Changes of the state -/

theorem setPhysByte_at {s : State} (h : I.At c s) (a : Word32) (b : Byte) : I.At c (s.setPhysByte a b) :=
  ⟨h.1, I.store h.2 a b⟩

theorem setPhysBytes_at {s : State} (h : I.At c s) (as : List Word32) (bs : List Byte) :
    I.At c (s.setPhysBytes as bs) := by
  induction as generalizing s bs with
  | nil => exact h
  | cons a as ih =>
    cases bs with
    | nil => exact h
    | cons b bs => exact ih (setPhysByte_at h a b) bs

theorem turned_at {s : State} (h : I.At c s) : I.At c s.turned := by
  obtain ⟨_, ht⟩ | ⟨g, gs, _, ht⟩ := s.turned_cases
  · rwa [ht]
  · rw [ht]
    exact setPhysBytes_at (s := { s with masters := gs }) h _ _

theorem cycleWrite_at {s : State} (h : I.At c s) (as : List Word32) (bs : List Byte) : I.At c (s.cycleWrite as bs) :=
  setPhysBytes_at (turned_at h) as bs

theorem pieceWrite_at {s : State} (h : I.At c s) (as : List Word32) (bs : List Byte) :
    I.At c (s.pieceWrite as bs) := by
  simp only [State.pieceWrite]
  split
  · exact cycleWrite_at h _ _
  · exact cycleWrite_at (cycleWrite_at h _ _) _ _

theorem cyclesWrite_at {s : State} (h : I.At c s) (ps : List (List Word32)) (bs : List Byte) :
    I.At c (s.cyclesWrite ps bs) := by
  induction ps generalizing s bs with
  | nil => exact h
  | cons p ps ih => exact ih (pieceWrite_at h _ _) _

theorem busWrite_at {s : State} (h : I.At c s) (k : Nat) (as : List Word32) (bs : List Byte) :
    I.At c (s.busWrite k as bs) := by
  unfold State.busWrite
  split
  · exact setPhysBytes_at h _ _
  · exact cyclesWrite_at h _ _

theorem pieceRead_at {s : State} (h : I.At c s) (as : List Word32) : I.At c (s.pieceRead as).2 := by
  simp only [State.pieceRead]
  split
  · exact turned_at h
  · exact turned_at (turned_at h)

theorem cyclesRead_at {s : State} (h : I.At c s) (ps : List (List Word32)) : I.At c (s.cyclesRead ps).2 := by
  induction ps generalizing s with
  | nil => exact h
  | cons p ps ih => exact ih (pieceRead_at h p)

theorem busRead_at {s : State} (h : I.At c s) (k : Nat) (as : List Word32) : I.At c (s.busRead k as).2 := by
  unfold State.busRead
  split
  · exact h
  · exact cyclesRead_at h _

theorem checkedWrite_at {s : State} (h : I.At c s) (k : Nat) (la : Word32) (as : List Word32) (bs : List Byte) :
    I.At c (s.checkedWrite k la as bs) := busWrite_at h k as bs

theorem markEntry_at {s : State} (h : I.At c s) (a bits : Word32) : I.At c (s.markEntry a bits) :=
  setPhysBytes_at (turned_at h) _ _

theorem tlbForget_at {s : State} (h : I.At c s) (page : BitVec 20) : I.At c (s.tlbForget page) := by
  unfold State.tlbForget
  split
  · exact ⟨h.1, I.forget h.2 _⟩
  · exact h

theorem tlbInsert_at {s : State} (h : I.At c s) (e : TlbEntry) : I.At c (s.tlbInsert e) := by
  obtain ⟨rfl, h⟩ := h
  exact ⟨rfl, I.insert h e⟩

theorem setReg_at {s : State} (h : I.At c s) (w : Width) (i : Fin 8) (v : BitVec w.bits) : I.At c (s.setReg w i v) := by
  cases w <;> exact h

theorem setAddrReg_at {s : State} (h : I.At c s) (sz : Size) (i : Fin 8) (v : Word32) :
    I.At c (s.setAddrReg sz i v) := by
  cases sz <;> exact h

theorem setSp_at {s : State} (h : I.At c s) (v : Word32) : I.At c (s.setSp v) := setAddrReg_at h _ _ _

theorem setSeg_at {s : State} (h : I.At c s) (r : SReg) (g : SegReg) : I.At c (s.setSeg r g) := by
  cases r <;> exact h

/-! ## Steps -/

theorem keeps_read {p : State → Prop} {f : State → M β} (h : ∀ s, Keeps p (f s)) : Keeps p (get >>= f) :=
  keeps_bind (keeps_get p) h

/-- `if b then x` before the rest. -/
theorem keeps_when {p : State → Prop} {b : Prop} [Decidable b] {x : M Unit} {f : Unit → M β} (hx : Keeps p x)
    (hf : ∀ a, Keeps p (f a)) : Keeps p (if b then x >>= f else f ()) :=
  keeps_ite (keeps_bind hx hf) (hf ())

/-- `if b then (do let a ← x; g a)` before the rest. -/
theorem keeps_whenBind {p : State → Prop} {b : Prop} [Decidable b] {x : M α} {g : α → M Unit} {f : Unit → M β}
    (hx : Keeps p x) (hg : ∀ a, Keeps p (g a)) (hf : ∀ a, Keeps p (f a)) :
    Keeps p (if b then x >>= fun a => g a >>= f else f ()) :=
  keeps_ite (keeps_bind hx fun a => keeps_bind (hg a) hf) (hf ())

/-- `let a ← if b then x else y` before the rest. -/
theorem keeps_either {p : State → Prop} {b : Prop} [Decidable b] {x y : M α} {f : α → M β} (hx : Keeps p x)
    (hy : Keeps p y) (hf : ∀ a, Keeps p (f a)) : Keeps p (if b then x >>= f else y >>= f) :=
  keeps_ite (keeps_bind hx hf) (keeps_bind hy hf)

theorem keeps_map {p : State → Prop} {x : M α} {f : α → β} (hx : Keeps p x) : Keeps p (f <$> x) := by
  intro s hs
  have h := hx s hs
  rw [M_map]
  generalize x s = r at h
  cases r <;> exact h

theorem raiseSel_keeps {p : State → Prop} {v : Byte} {sel : Word16} : Keeps p (raiseSel v sel : M α) :=
  keeps_throw _ _

theorem require_keeps {p : State → Prop} {b : Bool} {v : Byte} : Keeps p (require b v) :=
  keeps_ite (keeps_pure _ _) (keeps_throw _ _)

theorem require0_keeps {p : State → Prop} {b : Bool} {v : Byte} : Keeps p (require0 b v) :=
  keeps_ite (keeps_pure _ _) (keeps_throw _ _)

theorem requireSel_keeps {p : State → Prop} {b : Bool} {v : Byte} {sel : Word16} : Keeps p (requireSel b v sel) :=
  keeps_ite (keeps_pure _ _) raiseSel_keeps

theorem locked_keeps {x : M α} (hx : Keeps (I.At c) x) : Keeps (I.At c) (locked x) := by
  intro s hs
  have h := hx { s.turned with masters := [] } (turned_at hs)
  simp only [locked]
  generalize hr : x { s.turned with masters := [] } = r at h
  cases r <;> exact h

theorem turn_keeps : Keeps (I.At c) (modify State.turned) := keeps_modify _ _ fun _ => turned_at

/-! ## Accesses -/

theorem pageFault_keeps {la : Word32} {present write user : Bool} :
    Keeps (I.At c) (pageFault la present write user : M α) :=
  keeps_bind (keeps_modify _ _ fun _ h => h) fun _ => keeps_throw _ _

theorem walkPages_keeps {la : Word32} {write user : Bool} : Keeps (I.At c) (walkPages la write user) :=
  keeps_bind turn_keeps fun _ => keeps_read fun _ => keeps_when pageFault_keeps fun _ =>
  keeps_bind turn_keeps fun _ => keeps_read fun _ => keeps_when pageFault_keeps fun _ =>
  keeps_when pageFault_keeps fun _ =>
  keeps_when (keeps_modify _ _ fun _ h => markEntry_at h _ _) fun _ =>
  keeps_when (keeps_modify _ _ fun _ h => markEntry_at h _ _) fun _ =>
  keeps_bind (keeps_modify _ _ fun _ h => tlbInsert_at h _) fun _ => keeps_pure _ _


theorem translate_keeps {la : Word32} {write user : Bool} : Keeps (I.At c) (translate la write user) := by
  refine keeps_read fun s => ?_
  refine keeps_ite (keeps_pure _ _) ?_
  refine keeps_bind (keeps_modify _ _ fun _ h => tlbForget_at h _) fun _ => keeps_read fun s => ?_
  split
  · exact keeps_ite walkPages_keeps (keeps_ite (keeps_pure _ _) pageFault_keeps)
  · exact walkPages_keeps

theorem translateRange_keeps {la : Word32} {n : Nat} {write user : Bool} :
    Keeps (I.At c) (translateRange la n write user) :=
  keeps_bind translate_keeps fun _ => keeps_ite (keeps_pure _ _) (keeps_bind translate_keeps fun _ => keeps_pure _ _)

theorem linRead_keeps {la : Word32} {n : Nat} {user : Bool} : Keeps (I.At c) (linRead la n user) :=
  keeps_bind translateRange_keeps fun _ => fun _ h => busRead_at h _ _

theorem linWrite_keeps {la : Word32} {bs : List Byte} {user : Bool} : Keeps (I.At c) (linWrite la bs user) :=
  keeps_bind translateRange_keeps fun _ => keeps_modify _ _ fun _ h => busWrite_at h _ _ _

theorem sysRead_keeps {w : Width} {la : Word32} : Keeps (I.At c) (sysRead w la) :=
  keeps_bind linRead_keeps fun _ => keeps_pure _ _

theorem sysWrite_keeps {w : Width} {la : Word32} {v : BitVec w.bits} : Keeps (I.At c) (sysWrite w la v) :=
  linWrite_keeps

theorem segCheck_keeps {p : State → Prop} {r : SReg} {off : Word32} {n : Nat} {write : Bool} :
    Keeps p (segCheck r off n write) :=
  keeps_read fun _ => keeps_bind require0_keeps fun _ => keeps_bind require0_keeps fun _ => require0_keeps

theorem accessAddrs_keeps {r : SReg} {off : Word32} {n : Nat} {write : Bool} :
    Keeps (I.At c) (accessAddrs r off n write) :=
  keeps_bind segCheck_keeps fun _ => keeps_read fun _ => translateRange_keeps

theorem readChecked_keeps {k : Nat} {la : Word32} {as : List Word32} : Keeps (I.At c) (readChecked k la as) :=
  keeps_bind (fun _ h => busRead_at h _ _) fun _ => keeps_bind (keeps_modify _ _ fun _ h => h) fun _ => keeps_pure _ _

theorem writeChecked_keeps {k : Nat} {la : Word32} {as : List Word32} {bs : List Byte} :
    Keeps (I.At c) (writeChecked k la as bs) := keeps_modify _ _ fun _ h => checkedWrite_at h _ _ _ _

theorem lreadBytes_keeps {r : SReg} {off : Word32} {n : Nat} : Keeps (I.At c) (lreadBytes r off n) :=
  keeps_read fun _ => keeps_bind accessAddrs_keeps fun _ => readChecked_keeps

theorem lwriteBytes_keeps {r : SReg} {off : Word32} {bs : List Byte} : Keeps (I.At c) (lwriteBytes r off bs) :=
  keeps_read fun _ => keeps_bind accessAddrs_keeps fun _ => writeChecked_keeps

theorem lread_keeps {w : Width} {r : SReg} {off : Word32} : Keeps (I.At c) (lread w r off) :=
  keeps_bind lreadBytes_keeps fun _ => keeps_pure _ _

theorem lwrite_keeps {w : Width} {r : SReg} {off : Word32} {v : BitVec w.bits} : Keeps (I.At c) (lwrite w r off v) :=
  lwriteBytes_keeps

theorem checkAccess_keeps {r : SReg} {off : Word32} {n : Nat} {write : Bool} :
    Keeps (I.At c) (checkAccess r off n write) := keeps_bind accessAddrs_keeps fun _ => keeps_pure _ _

theorem requireHeld_keeps {p : State → Prop} {sp : Word32} {n : Nat} : Keeps p (requireHeld sp n) := segCheck_keeps

theorem pushBytes_keeps {bs : List Byte} : Keeps (I.At c) (pushBytes bs) :=
  keeps_read fun _ => keeps_bind lwriteBytes_keeps fun _ => keeps_modify _ _ fun _ h => setSp_at h _

theorem push_keeps {sz : Size} {v : Word32} : Keeps (I.At c) (push sz v) := by
  cases sz <;> exact pushBytes_keeps

theorem stackRead_keeps {sz : Size} {sp : Word32} : Keeps (I.At c) (stackRead sz sp) := by
  cases sz
  · exact keeps_bind lread_keeps fun _ => keeps_pure _ _
  · exact lread_keeps

theorem pop_keeps {sz : Size} : Keeps (I.At c) (pop sz) :=
  keeps_read fun _ => keeps_bind stackRead_keeps fun _ =>
  keeps_bind (keeps_modify _ _ fun _ h => setSp_at h _) fun _ => keeps_pure _ _

/-! ## Operands -/

theorem putFlags_keeps {f : EFlags} : Keeps (I.At c) (putFlags f) := keeps_modify _ _ fun _ h => h

theorem getReg_keeps {p : State → Prop} {w : Width} {r : Fin 8} : Keeps p (getReg w r) :=
  keeps_read fun _ => keeps_pure _ _

theorem putReg_keeps {w : Width} {r : Fin 8} {v : BitVec w.bits} : Keeps (I.At c) (putReg w r v) :=
  keeps_modify _ _ fun _ h => setReg_at h _ _ _

theorem readLoc_keeps {w : Width} {l : Loc} : Keeps (I.At c) (readLoc w l) := by
  cases l
  · exact getReg_keeps
  · exact lread_keeps

theorem writeLoc_keeps {w : Width} {l : Loc} {v : BitVec w.bits} : Keeps (I.At c) (writeLoc w l v) := by
  cases l
  · exact putReg_keeps
  · exact lwrite_keeps

theorem checkLoc_keeps {w : Width} {l : Loc} : Keeps (I.At c) (checkLoc w l) := by
  cases l
  · exact keeps_pure _ _
  · exact checkAccess_keeps

theorem readRM_keeps {w : Width} {rm : RM} : Keeps (I.At c) (readRM w rm) := keeps_read fun _ => readLoc_keeps

theorem writeRM_keeps {w : Width} {rm : RM} {v : BitVec w.bits} : Keeps (I.At c) (writeRM w rm v) :=
  keeps_read fun _ => writeLoc_keeps

theorem lockedIf_keeps {lock : Bool} {l : Loc} {x : M α} (hx : Keeps (I.At c) x) :
    Keeps (I.At c) (lockedIf lock l x) := by
  cases l
  · exact hx
  · exact keeps_ite (locked_keeps hx) hx

theorem modifyRM_keeps {w : Width} {rm : RM} {f : BitVec w.bits → M (BitVec w.bits)}
    (hf : ∀ v, Keeps (I.At c) (f v)) : Keeps (I.At c) (modifyRM w rm f) :=
  keeps_read fun _ => keeps_bind checkLoc_keeps fun _ => lockedIf_keeps <|
  keeps_bind readLoc_keeps fun _ => keeps_bind (hf _) fun _ => writeLoc_keeps

/-! ## Selectors and descriptors -/

theorem readDesc_keeps {la : Word32} : Keeps (I.At c) (readDesc la) :=
  keeps_bind sysRead_keeps fun _ => keeps_bind sysRead_keeps fun _ => keeps_pure _ _

theorem fetchDesc_keeps {v : Byte} {sel : Word16} : Keeps (I.At c) (fetchDesc v sel) := by
  refine keeps_read fun s => ?_
  split
  · exact keeps_bind readDesc_keeps fun _ => keeps_pure _ _
  · exact raiseSel_keeps

theorem orDescHigh_keeps {la bits : Word32} : Keeps (I.At c) (orDescHigh la bits) :=
  locked_keeps (keeps_bind sysRead_keeps fun _ => sysWrite_keeps)

theorem clearDescHigh_keeps {la bits : Word32} : Keeps (I.At c) (clearDescHigh la bits) :=
  locked_keeps (keeps_bind sysRead_keeps fun _ => sysWrite_keeps)

theorem setAccessed_keeps {d : Desc} {la : Word32} : Keeps (I.At c) (setAccessed d la) :=
  keeps_ite (keeps_pure _ _) orDescHigh_keeps

theorem putSeg_keeps {r : SReg} {g : SegReg} : Keeps (I.At c) (putSeg r g) :=
  keeps_modify _ _ fun _ h => setSeg_at h _ _

theorem stackDesc_keeps {v : Byte} {cpl : BitVec 2} {sel : Word16} : Keeps (I.At c) (stackDesc v cpl sel) :=
  keeps_bind fetchDesc_keeps fun _ => keeps_bind requireSel_keeps fun _ => keeps_bind requireSel_keeps fun _ =>
  keeps_pure _ _

theorem dataDesc_keeps {v : Byte} {cpl : BitVec 2} {sel : Word16} : Keeps (I.At c) (dataDesc v cpl sel) :=
  keeps_bind fetchDesc_keeps fun _ => keeps_bind requireSel_keeps fun _ => keeps_bind requireSel_keeps fun _ =>
  keeps_bind requireSel_keeps fun _ => keeps_pure _ _

theorem loadSeg_keeps {r : SReg} {sel : Word16} : Keeps (I.At c) (loadSeg r sel) :=
  keeps_read fun _ => keeps_ite putSeg_keeps <| keeps_ite putSeg_keeps <|
  keeps_ite (keeps_bind require0_keeps fun _ => putSeg_keeps) <|
  keeps_either stackDesc_keeps dataDesc_keeps fun _ => keeps_bind setAccessed_keeps fun _ => putSeg_keeps

/-! ## Control, and the task switch -/

theorem branchTo_keeps {t : Word32} : Keeps (I.At c) (branchTo t) := keeps_modify _ _ fun _ h => h

theorem loadCs_keeps {sel : Word16} {d : Desc} {la : Word32} {cpl : BitVec 2} : Keeps (I.At c) (loadCs sel d la cpl) :=
  keeps_bind setAccessed_keeps fun _ => keeps_modify _ _ fun _ h => h

theorem farReal_keeps {sel : Word16} {off : Word32} : Keeps (I.At c) (farReal sel off) :=
  keeps_bind (keeps_modify _ _ fun _ h => h) fun _ => branchTo_keeps

theorem requireRoom_keeps {p : State → Prop} {sz : Size} {k : Nat} : Keeps p (requireRoom sz k) :=
  keeps_read fun _ => require0_keeps

theorem inNewTask_keeps {p : State → Prop} {x : M α} (hx : Keeps p x) : Keeps p (inNewTask x) := by
  intro s hs
  have h := hx s hs
  simp only [inNewTask]
  generalize x s = r at h
  obtain ⟨_, _⟩ | ⟨e, _⟩ := r
  · exact h
  · cases e <;> exact h

theorem writeDwords_keeps {la : Word32} {vs : List Word32} : Keeps (I.At c) (writeDwords la vs) := by
  induction vs generalizing la with
  | nil => exact keeps_pure _ _
  | cons v vs ih => exact keeps_bind sysWrite_keeps fun _ => ih

theorem writeWords_keeps {la step : Word32} {vs : List Word16} : Keeps (I.At c) (writeWords la step vs) := by
  induction vs generalizing la with
  | nil => exact keeps_pure _ _
  | cons v vs ih => exact keeps_bind sysWrite_keeps fun _ => ih

theorem readSeries_keeps {w : Width} {la step : Word32} {n : Nat} : Keeps (I.At c) (readSeries w la step n) := by
  induction n generalizing la with
  | zero => exact keeps_pure _ _
  | succ n ih => exact keeps_bind sysRead_keeps fun _ => keeps_bind ih fun _ => keeps_pure _ _

theorem saveTask_keeps {s : State} {kind : SwitchKind} {ret : Word32} {rf : Bool} :
    Keeps (I.At c) (saveTask s kind ret rf) :=
  keeps_ite
    (keeps_bind writeDwords_keeps fun _ => keeps_bind writeWords_keeps fun _ => keeps_bind sysWrite_keeps fun _ =>
      sysWrite_keeps)
    (keeps_bind writeWords_keeps fun _ => keeps_bind sysWrite_keeps fun _ => sysWrite_keeps)

theorem readTask_keeps {base : Word32} {is386 : Bool} : Keeps (I.At c) (readTask base is386) :=
  keeps_ite
    (keeps_bind sysRead_keeps fun _ => keeps_bind readSeries_keeps fun _ => keeps_bind readSeries_keeps fun _ =>
      keeps_pure _ _)
    (keeps_bind sysRead_keeps fun _ => keeps_bind readSeries_keeps fun _ => keeps_read fun _ => keeps_pure _ _)

theorem loadTaskLdt_keeps {ldt : Word16} : Keeps (I.At c) (loadTaskLdt ldt) :=
  keeps_ite (keeps_pure _ _) <| keeps_read fun _ => keeps_bind requireSel_keeps fun _ => keeps_bind readDesc_keeps
    fun _ => keeps_bind requireSel_keeps fun _ => keeps_modify _ _ fun _ h => h

theorem loadTaskCs_keeps {sel : Word16} : Keeps (I.At c) (loadTaskCs sel) :=
  keeps_bind requireSel_keeps fun _ => keeps_bind fetchDesc_keeps fun _ => keeps_bind requireSel_keeps fun _ =>
  keeps_bind requireSel_keeps fun _ => loadCs_keeps

theorem loadTaskSs_keeps {sel : Word16} : Keeps (I.At c) (loadTaskSs sel) :=
  keeps_bind requireSel_keeps fun _ => keeps_read fun _ => keeps_bind stackDesc_keeps fun _ =>
  keeps_bind setAccessed_keeps fun _ => putSeg_keeps

theorem loadTaskData_keeps {r : SReg} {sel : Word16} : Keeps (I.At c) (loadTaskData r sel) :=
  keeps_ite (keeps_pure _ _) <| keeps_read fun _ => keeps_bind dataDesc_keeps fun _ =>
  keeps_bind setAccessed_keeps fun _ => putSeg_keeps

theorem loadTaskSegs_keeps : Keeps (I.At c) loadTaskSegs :=
  keeps_read fun _ => keeps_ite (keeps_modify _ _ fun _ h => h) <|
  keeps_bind loadTaskCs_keeps fun _ => keeps_bind loadTaskSs_keeps fun _ => keeps_bind loadTaskData_keeps fun _ =>
  keeps_bind loadTaskData_keeps fun _ => keeps_bind loadTaskData_keeps fun _ => loadTaskData_keeps

theorem clearBusy_keeps {sel : Word16} : Keeps (I.At c) (clearBusy sel) :=
  keeps_read fun _ => keeps_ite (keeps_pure _ _) <| keeps_bind requireSel_keeps fun _ => clearDescHigh_keeps

theorem commitSwitch_keeps {tsel : Word16} {nd : Desc} {kind : SwitchKind} {ret : Word32} {rf : Bool} :
    Keeps (I.At c) (commitSwitch tsel nd kind ret rf) :=
  keeps_read fun _ => keeps_bind saveTask_keeps fun _ => keeps_when clearBusy_keeps fun _ =>
  keeps_when orDescHigh_keeps fun _ => keeps_when sysWrite_keeps fun _ =>
  keeps_bind (keeps_modify _ _ fun _ h => h) fun _ =>
  keeps_whenBind sysRead_keeps (fun _ => keeps_modify _ _ fun _ h => ⟨h.1, I.newBase h.2 _⟩) fun _ =>
  keeps_bind readTask_keeps fun _ => keeps_bind (keeps_modify _ _ fun _ h => h) fun _ =>
  keeps_bind loadTaskLdt_keeps fun _ => keeps_bind loadTaskSegs_keeps fun _ => keeps_read fun _ =>
  keeps_bind require0_keeps fun _ =>
  keeps_ite (keeps_bind sysRead_keeps fun _ => keeps_ite (keeps_modify _ _ fun _ h => h) (keeps_pure _ _))
    (keeps_pure _ _)

theorem taskSwitch_keeps {tsel : Word16} {kind : SwitchKind} {ret : Word32} {rf : Bool} :
    Keeps (I.At c) (taskSwitch tsel kind ret rf) :=
  keeps_read fun _ => keeps_bind requireSel_keeps fun _ => keeps_bind readDesc_keeps fun _ =>
  keeps_bind requireSel_keeps fun _ => keeps_bind requireSel_keeps fun _ => keeps_bind requireSel_keeps fun _ =>
  inNewTask_keeps commitSwitch_keeps

/-! ## Taking an interrupt or exception, and the return -/

theorem innerStack_keeps {n : BitVec 2} {b k : Nat} : Keeps (I.At c) (innerStack n b k) :=
  keeps_read fun _ => keeps_bind requireSel_keeps fun _ => keeps_either sysRead_keeps sysRead_keeps fun _ =>
  keeps_either sysRead_keeps (keeps_map sysRead_keeps) fun _ => keeps_bind require0_keeps fun _ =>
  keeps_bind stackDesc_keeps fun _ => keeps_bind requireSel_keeps fun _ => keeps_pure _ _

theorem switchStack_keeps {i : InnerStack} {n : BitVec 2} : Keeps (I.At c) (switchStack i n) :=
  keeps_bind setAccessed_keeps fun _ => keeps_modify _ _ fun _ h => setSp_at (by exact h) _

theorem pushAll_keeps {sz : Size} {vs : List Word32} : Keeps (I.At c) (pushAll sz vs) := by
  induction vs with
  | nil => exact keeps_pure _ _
  | cons v vs ih => exact keeps_bind push_keeps fun _ => ih

theorem enterReal_keeps {ev : Event} : Keeps (I.At c) (enterReal ev) :=
  keeps_read fun _ => keeps_when (keeps_throw _ _) fun _ => keeps_bind sysRead_keeps fun _ =>
  keeps_bind pushAll_keeps fun _ => keeps_bind (keeps_modify _ _ fun _ h => h) fun _ => farReal_keeps

theorem enterTask_keeps {g : Desc} {ev : Event} : Keeps (I.At c) (enterTask g ev) := by
  refine keeps_read fun _ => keeps_bind requireSel_keeps fun _ => keeps_bind taskSwitch_keeps fun _ => ?_
  split
  · exact keeps_read fun _ => inNewTask_keeps push_keeps
  · exact keeps_pure _ _

theorem enterGate_keeps {g : Desc} {ev : Event} : Keeps (I.At c) (enterGate g ev) :=
  keeps_read fun _ => keeps_bind require0_keeps fun _ => keeps_bind fetchDesc_keeps fun _ =>
  keeps_bind requireSel_keeps fun _ => keeps_bind requireSel_keeps fun _ => keeps_bind requireSel_keeps fun _ =>
  keeps_when (keeps_throw _ _) fun _ =>
  keeps_ite
    (keeps_bind innerStack_keeps fun _ => keeps_bind require0_keeps fun _ => keeps_bind switchStack_keeps fun _ =>
      keeps_bind pushAll_keeps fun _ => keeps_when (keeps_modify _ _ fun _ h => h) fun _ =>
      keeps_bind loadCs_keeps fun _ => keeps_bind (keeps_modify _ _ fun _ h => h) fun _ => branchTo_keeps)
    (keeps_bind requireRoom_keeps fun _ => keeps_bind require0_keeps fun _ => keeps_bind pushAll_keeps fun _ =>
      keeps_bind loadCs_keeps fun _ => keeps_bind (keeps_modify _ _ fun _ h => h) fun _ => branchTo_keeps)

theorem enterProtected_keeps {ev : Event} : Keeps (I.At c) (enterProtected ev) :=
  keeps_read fun _ => keeps_when (keeps_throw _ _) fun _ => keeps_bind readDesc_keeps fun _ =>
  keeps_when (keeps_throw _ _) fun _ => keeps_when (keeps_throw _ _) fun _ => keeps_when (keeps_throw _ _) fun _ =>
  keeps_ite enterTask_keeps enterGate_keeps

theorem enter_keeps {ev : Event} : Keeps (I.At c) (enter ev) :=
  have hend : Keeps (I.At c) (modify fun s : State => { s with
      stale := Stale.none, pfx := Pfx.none, shadow := .none, midRep := false, run := .executing }) :=
    keeps_modify _ _ fun _ h => h
  keeps_read fun _ => keeps_ite
    (keeps_bind enterReal_keeps fun _ => keeps_when (keeps_modify _ _ fun _ h => h) fun _ => hend)
    (keeps_bind enterProtected_keeps fun _ => keeps_when (keeps_modify _ _ fun _ h => h) fun _ => hend)

theorem returnDesc_keeps {csel : Word16} : Keeps (I.At c) (returnDesc csel) :=
  keeps_read fun _ => keeps_bind require0_keeps fun _ => keeps_bind requireSel_keeps fun _ =>
  keeps_bind fetchDesc_keeps fun _ => keeps_bind requireSel_keeps fun _ => keeps_bind requireSel_keeps fun _ =>
  keeps_pure _ _

theorem outerSp_at {s : State} (h : I.At c s) (sz : Size) (v : Word32) : I.At c (s.outerSp sz v) := by
  cases sz
  · exact h
  · exact setSp_at h v

theorem returnTo_keeps {csel : Word16} {off : Word32} {sz : Size} {used : Nat} {iw : Word16} :
    Keeps (I.At c) (returnTo csel off sz used iw) :=
  keeps_read fun _ => keeps_bind returnDesc_keeps fun _ => keeps_ite
    (keeps_bind require0_keeps fun _ => keeps_bind loadCs_keeps fun _ =>
      keeps_bind (keeps_modify _ _ fun _ h => setSp_at h _) fun _ => branchTo_keeps)
    (keeps_bind requireHeld_keeps fun _ => keeps_bind stackRead_keeps fun sp => keeps_bind stackRead_keeps fun sel =>
      keeps_bind require0_keeps fun _ => keeps_bind stackDesc_keeps fun d => keeps_bind require0_keeps fun _ =>
      keeps_bind loadCs_keeps fun _ => keeps_bind setAccessed_keeps fun _ =>
      keeps_bind (keeps_modify _ _ fun s h =>
        outerSp_at (s := { s with ss := d.1.toSeg (sel.truncate 16) }) h sz (sp + iw.zeroExtend 32)) fun _ =>
      branchTo_keeps)

theorem iretReal_keeps {sz : Size} : Keeps (I.At c) (iretReal sz) :=
  keeps_read fun _ => keeps_bind require0_keeps fun _ => keeps_bind stackRead_keeps fun _ =>
  keeps_bind stackRead_keeps fun _ => keeps_bind stackRead_keeps fun _ => keeps_bind require0_keeps fun _ =>
  keeps_bind (keeps_modify _ _ fun _ h => setSp_at h _) fun _ => farReal_keeps

theorem iretV86_keeps : Keeps (I.At c) iretV86 :=
  keeps_read fun _ => keeps_bind requireHeld_keeps fun _ =>
  keeps_bind stackRead_keeps fun _ => keeps_bind stackRead_keeps fun _ => keeps_bind stackRead_keeps fun _ =>
  keeps_bind stackRead_keeps fun _ => keeps_bind stackRead_keeps fun _ => keeps_bind stackRead_keeps fun _ =>
  keeps_bind stackRead_keeps fun _ => keeps_bind stackRead_keeps fun _ => keeps_bind stackRead_keeps fun _ =>
  keeps_bind (keeps_modify _ _ fun _ h => h) fun _ => branchTo_keeps

theorem iretProtected_keeps {sz : Size} : Keeps (I.At c) (iretProtected sz) :=
  keeps_read fun _ => keeps_ite (keeps_bind sysRead_keeps fun _ => taskSwitch_keeps) <|
  keeps_bind requireHeld_keeps fun _ => keeps_bind stackRead_keeps fun _ => keeps_bind stackRead_keeps fun _ =>
  keeps_bind stackRead_keeps fun _ => keeps_ite iretV86_keeps <|
  keeps_bind returnTo_keeps fun _ => keeps_modify _ _ fun _ h => h

theorem iretOp_keeps : Keeps (I.At c) iretOp :=
  have hend : Keeps (I.At c) (modify fun s : State => { s with nmiBlocked := false }) := keeps_modify _ _ fun _ h => h
  keeps_read fun _ => keeps_ite (keeps_bind iretProtected_keeps fun _ => hend) (keeps_bind iretReal_keeps fun _ => hend)

/-! ## Arithmetic and bits -/

theorem computed_keeps {n : Nat} {g : State → Result n} :
    Keeps (I.At c) (do let s ← get; putFlags (g s).flags; return (g s).value) :=
  keeps_read fun _ => keeps_bind putFlags_keeps fun _ => keeps_pure _ _

theorem aluRM_keeps {op : AluOp} {w : Width} {rm : RM} {b : BitVec w.bits} : Keeps (I.At c) (aluRM op w rm b) :=
  keeps_ite (keeps_bind readRM_keeps fun _ => keeps_read fun _ => putFlags_keeps) (modifyRM_keeps fun _ => computed_keeps)

theorem aluReg_keeps {op : AluOp} {w : Width} {d : Fin 8} {b : BitVec w.bits} : Keeps (I.At c) (aluReg op w d b) :=
  keeps_read fun _ => keeps_when putReg_keeps fun _ => putFlags_keeps

theorem aluForm_keeps {op : AluOp} {f : AluForm} : Keeps (I.At c) (aluForm op f) := by
  refine keeps_read fun _ => ?_
  cases f
  case gbEb | gvEv => exact keeps_bind readRM_keeps fun _ => aluReg_keeps
  case alIb | eaxIv => exact aluReg_keeps
  all_goals exact aluRM_keeps

theorem unaryRM_keeps {w : Width} {rm : RM} {f : BitVec w.bits → EFlags → Result w.bits} :
    Keeps (I.At c) (unaryRM w rm f) := modifyRM_keeps fun _ => computed_keeps

theorem incForm_keeps {op : (n : Nat) → BitVec n → EFlags → Result n} {f : IncForm} :
    Keeps (I.At c) (incForm op f) := by
  refine keeps_read fun _ => ?_
  cases f <;> exact unaryRM_keeps

theorem mulForm_keeps {signed : Bool} {f : UnaryForm} : Keeps (I.At c) (mulForm signed f) :=
  keeps_read fun _ => keeps_bind readRM_keeps fun _ => keeps_read fun _ => keeps_bind putReg_keeps fun _ =>
  keeps_bind putReg_keeps fun _ => putFlags_keeps

theorem imulReg_keeps {w : Width} {r : Fin 8} {a b : BitVec w.bits} : Keeps (I.At c) (imulReg w r a b) :=
  keeps_read fun _ => keeps_bind putReg_keeps fun _ => putFlags_keeps

theorem imulForm_keeps {f : ImulForm} : Keeps (I.At c) (imulForm f) := by
  refine keeps_read fun _ => ?_
  cases f
  case eb | ev => exact mulForm_keeps
  all_goals exact keeps_bind readRM_keeps fun _ => imulReg_keeps

theorem divForm_keeps {signed : Bool} {f : UnaryForm} : Keeps (I.At c) (divForm signed f) :=
  keeps_read fun _ => keeps_bind readRM_keeps fun _ => keeps_read fun _ => keeps_bind require_keeps fun _ =>
  keeps_bind require_keeps fun _ => keeps_bind putReg_keeps fun _ => keeps_bind putReg_keeps fun _ => putFlags_keeps

theorem adjustAl_keeps {f : (Nat → Bool) → Byte → EFlags → Result 8} : Keeps (I.At c) (adjustAl f) :=
  keeps_read fun _ => keeps_bind putReg_keeps fun _ => putFlags_keeps

theorem adjustAx_keeps {f : (Nat → Bool) → Word16 → EFlags → Result 16} : Keeps (I.At c) (adjustAx f) :=
  keeps_read fun _ => keeps_bind putReg_keeps fun _ => putFlags_keeps

theorem bitAt_keeps {op : BitOp} {w : Width} {l : Loc} {k : Nat} : Keeps (I.At c) (bitAt op w l k) := by
  unfold bitAt
  refine keeps_when checkLoc_keeps fun _ => keeps_read fun _ => lockedIf_keeps ?_
  exact keeps_bind readLoc_keeps fun _ => keeps_read fun _ => keeps_when writeLoc_keeps fun _ => putFlags_keeps

theorem bitForm_keeps {op : BitOp} {f : BitForm} : Keeps (I.At c) (bitForm op f) := by
  refine keeps_read fun _ => ?_
  cases f <;> exact bitAt_keeps

theorem scanForm_keeps {find : (n : Nat) → BitVec n → Nat} {r : Fin 8} {rm : RM} :
    Keeps (I.At c) (scanForm find r rm) :=
  keeps_read fun _ => keeps_bind readRM_keeps fun _ => keeps_read fun _ => keeps_bind putReg_keeps fun _ =>
  putFlags_keeps

theorem bitField_keeps {p : State → Prop} {w : Width} : Keeps p (bitField w) :=
  keeps_read fun _ => keeps_when (keeps_throw _ _) fun _ => keeps_pure _ _

theorem xbtsSteps_keeps {r : Fin 8} {rm : RM} : Keeps (I.At c) (xbtsSteps r rm) := by
  refine keeps_read fun _ => keeps_bind bitField_keeps fun _ => keeps_read fun _ => ?_
  split
  · exact keeps_when (keeps_throw _ _) fun _ => keeps_bind (keeps_pure _ _) fun _ => keeps_bind putReg_keeps fun _ =>
      putFlags_keeps
  · exact keeps_ite
      (keeps_bind (keeps_pure _ _) fun _ => keeps_bind putReg_keeps fun _ => putFlags_keeps)
      (keeps_bind lreadBytes_keeps fun _ => keeps_bind (keeps_pure _ _) fun _ => keeps_bind putReg_keeps fun _ =>
        putFlags_keeps)

theorem ibtsSteps_keeps {r : Fin 8} {rm : RM} : Keeps (I.At c) (ibtsSteps rm r) := by
  refine keeps_read fun _ => keeps_bind bitField_keeps fun _ => keeps_read fun _ => ?_
  dsimp only
  split
  · exact keeps_when (keeps_throw _ _) fun _ => keeps_bind putReg_keeps fun _ => putFlags_keeps
  · exact keeps_ite putFlags_keeps <| keeps_bind checkAccess_keeps fun _ => keeps_bind lreadBytes_keeps fun _ =>
      keeps_bind lwriteBytes_keeps fun _ => putFlags_keeps

theorem testFlags_keeps {w : Width} {a b : BitVec w.bits} : Keeps (I.At c) (testFlags w a b) :=
  keeps_read fun _ => putFlags_keeps

theorem testForm_keeps {f : TestForm} : Keeps (I.At c) (testForm f) := by
  refine keeps_read fun _ => ?_
  cases f
  case alIb | eaxIv => exact testFlags_keeps
  all_goals exact keeps_bind readRM_keeps fun _ => testFlags_keeps

theorem shiftRM_keeps {op : ShiftOp} {w : Width} {rm : RM} {count : Byte} : Keeps (I.At c) (shiftRM op w rm count) :=
  keeps_ite
    (keeps_read fun _ => keeps_bind checkLoc_keeps fun _ => keeps_bind readLoc_keeps fun _ => keeps_pure _ _)
    (modifyRM_keeps fun _ => computed_keeps)

theorem shiftForm_keeps {op : ShiftOp} {f : ShiftForm} : Keeps (I.At c) (shiftForm op f) := by
  refine keeps_read fun _ => ?_
  cases f <;> exact shiftRM_keeps

theorem doubleShiftRM_keeps {left : Bool} {rm : RM} {r : Fin 8} {count : Byte} :
    Keeps (I.At c) (doubleShiftRM left rm r count) :=
  keeps_read fun _ => keeps_ite (keeps_pure _ _) (modifyRM_keeps fun _ => computed_keeps)

theorem shdForm_keeps {left : Bool} {f : ShdForm} : Keeps (I.At c) (shdForm left f) := by
  cases f
  · exact doubleShiftRM_keeps
  · exact keeps_read fun _ => doubleShiftRM_keeps

theorem modifyFlags_keeps {f : EFlags → EFlags} : Keeps (I.At c) (modifyFlags f) := keeps_modify _ _ fun _ h => h

theorem setByte_keeps {cc : Cond} {rm : RM} : Keeps (I.At c) (setByte cc rm) := keeps_read fun _ => writeRM_keeps

/-! ## Ports and strings -/

theorem bitmapBits_keeps {base port n : Nat} : Keeps (I.At c) (bitmapBits base port n) := by
  induction n generalizing port with
  | zero => exact keeps_pure _ _
  | succ n ih =>
    exact keeps_read fun _ => keeps_bind require0_keeps fun _ => keeps_bind sysRead_keeps fun _ =>
      keeps_bind require0_keeps fun _ => ih

theorem bitmapCheck_keeps {port : Word16} {n : Nat} : Keeps (I.At c) (bitmapCheck port n) :=
  keeps_read fun _ => keeps_bind require0_keeps fun _ => keeps_bind sysRead_keeps fun _ => bitmapBits_keeps

theorem ioPrivilege_keeps {p : State → Prop} : Keeps p ioPrivilege := keeps_read fun _ => require0_keeps

theorem ioCheck_keeps {port : Word16} {n : Nat} : Keeps (I.At c) (ioCheck port n) :=
  keeps_read fun _ => keeps_ite (keeps_pure _ _) <| keeps_ite bitmapCheck_keeps (keeps_throw _ _)

theorem ioRead_keeps {w : Width} {port : Word16} : Keeps (I.At c) (ioRead w port) :=
  keeps_read fun _ => keeps_bind (keeps_modify _ _ fun _ h => h) fun _ => keeps_pure _ _

theorem ioWrite_keeps {w : Width} {port : Word16} {v : BitVec w.bits} : Keeps (I.At c) (ioWrite w port v) :=
  keeps_modify _ _ fun _ h => h

theorem inSteps_keeps {w : Width} {port : Word16} : Keeps (I.At c) (inSteps w port) :=
  keeps_bind ioCheck_keeps fun _ => keeps_bind ioRead_keeps fun _ => putReg_keeps

theorem outSteps_keeps {w : Width} {port : Word16} : Keeps (I.At c) (outSteps w port) :=
  keeps_bind ioCheck_keeps fun _ => keeps_read fun _ => ioWrite_keeps

theorem advance_keeps {w : Width} {i : Fin 8} : Keeps (I.At c) (advance w i) :=
  keeps_modify _ _ fun _ h => setAddrReg_at h _ _ _

theorem readSource_keeps {w : Width} : Keeps (I.At c) (readSource w) := keeps_read fun _ => lread_keeps

theorem readDest_keeps {w : Width} : Keeps (I.At c) (readDest w) := keeps_read fun _ => lread_keeps

theorem writeDest_keeps {w : Width} {v : BitVec w.bits} : Keeps (I.At c) (writeDest w v) :=
  keeps_read fun _ => lwrite_keeps

theorem compareFlags_keeps {w : Width} {a b : BitVec w.bits} : Keeps (I.At c) (compareFlags w a b) :=
  keeps_read fun _ => putFlags_keeps

theorem movsElement_keeps {byte : Bool} : Keeps (I.At c) (movsElement byte) :=
  keeps_read fun _ => keeps_bind readSource_keeps fun _ => keeps_bind writeDest_keeps fun _ =>
  keeps_bind advance_keeps fun _ => advance_keeps

theorem cmpsElement_keeps {byte : Bool} : Keeps (I.At c) (cmpsElement byte) :=
  keeps_read fun _ => keeps_bind readSource_keeps fun _ => keeps_bind readDest_keeps fun _ =>
  keeps_bind compareFlags_keeps fun _ => keeps_bind advance_keeps fun _ => advance_keeps

theorem scasElement_keeps {byte : Bool} : Keeps (I.At c) (scasElement byte) :=
  keeps_read fun _ => keeps_bind readDest_keeps fun _ => keeps_read fun _ => keeps_bind compareFlags_keeps fun _ =>
  advance_keeps

theorem lodsElement_keeps {byte : Bool} : Keeps (I.At c) (lodsElement byte) :=
  keeps_read fun _ => keeps_bind readSource_keeps fun _ => keeps_bind putReg_keeps fun _ => advance_keeps

theorem stosElement_keeps {byte : Bool} : Keeps (I.At c) (stosElement byte) :=
  keeps_read fun _ => keeps_read fun _ => keeps_bind writeDest_keeps fun _ => advance_keeps

theorem insElement_keeps {byte : Bool} : Keeps (I.At c) (insElement byte) :=
  keeps_read fun _ => keeps_bind ioCheck_keeps fun _ => keeps_bind accessAddrs_keeps fun _ =>
  keeps_bind ioRead_keeps fun _ => keeps_bind writeChecked_keeps fun _ => advance_keeps

theorem outsElement_keeps {byte : Bool} : Keeps (I.At c) (outsElement byte) :=
  keeps_read fun _ => keeps_bind ioCheck_keeps fun _ => keeps_bind readSource_keeps fun _ =>
  keeps_bind ioWrite_keeps fun _ => advance_keeps

theorem stringSteps_keeps {compares : Bool} {permit element : M Unit} (hp : Keeps (I.At c) permit)
    (he : Keeps (I.At c) element) : Keeps (I.At c) (stringSteps compares permit element) := by
  refine keeps_read fun _ => keeps_bind require_keeps fun _ => keeps_when (keeps_throw _ _) fun _ =>
    keeps_bind hp fun _ => ?_
  split
  · exact keeps_bind he fun _ => keeps_pure _ _
  · exact keeps_ite (keeps_pure _ _) <| keeps_bind he fun _ =>
      keeps_bind (keeps_modify _ _ fun _ h => setAddrReg_at h _ _ _) fun _ => keeps_read fun _ =>
      keeps_ite (keeps_pure _ _) (keeps_pure _ _)

theorem memString_keeps {compares : Bool} {element : M Unit} (h : Keeps (I.At c) element) :
    Keeps (I.At c) (memString compares element) := stringSteps_keeps (keeps_pure _ _) h

theorem portString_keeps {element : M Unit} (h : Keeps (I.At c) element) : Keeps (I.At c) (portString element) :=
  stringSteps_keeps ioPrivilege_keeps h

/-! ## System instructions -/

theorem requireCpl0_keeps {p : State → Prop} : Keeps p requireCpl0 := keeps_read fun _ => require0_keeps

theorem requireProtected_keeps {p : State → Prop} : Keeps p requireProtected := keeps_read fun _ => require_keeps

theorem storeWord_keeps {rm : RM} {v : Word16} : Keeps (I.At c) (storeWord rm v) := by
  refine keeps_read fun _ => ?_
  split
  · exact putReg_keeps
  · exact writeRM_keeps

theorem readTable_keeps {m : MemOp} : Keeps (I.At c) (readTable m) :=
  keeps_bind requireCpl0_keeps fun _ => keeps_read fun _ => keeps_bind checkAccess_keeps fun _ =>
  keeps_bind lread_keeps fun _ => keeps_bind lread_keeps fun _ => keeps_pure _ _

theorem storeTable_keeps {m : MemOp} {t : TableReg} : Keeps (I.At c) (storeTable m t) :=
  keeps_read fun _ => keeps_bind accessAddrs_keeps fun _ => keeps_bind writeChecked_keeps fun _ => writeChecked_keeps

theorem systemDesc_keeps {sel : Word16} {types : List Nat} : Keeps (I.At c) (systemDesc sel types) :=
  keeps_read fun _ => keeps_bind requireSel_keeps fun _ => keeps_bind readDesc_keeps fun _ =>
  keeps_bind requireSel_keeps fun _ => keeps_bind requireSel_keeps fun _ => keeps_pure _ _

theorem freeFlags_keeps : Keeps (I.At c) freeFlags := keeps_read fun _ => putFlags_keeps

theorem requireNumber_keeps {p : State → Prop} {named : Fin 8 → Bool} {n : Fin 8} : Keeps p (requireNumber named n) :=
  keeps_bind require_keeps fun _ => requireCpl0_keeps

theorem movFromCr_keeps {r n : Fin 8} : Keeps (I.At c) (movFromCr r n) := by
  refine keeps_bind requireNumber_keeps fun _ => keeps_read fun _ => ?_
  dsimp only
  split <;> exact keeps_bind putReg_keeps fun _ => freeFlags_keeps

theorem keepMap_at {s : State} (h : I.At c s) (changed : Bool) : I.At c (s.keepMap changed) := by
  cases changed <;> exact h

theorem loadCr0_keeps {v : Word32} : Keeps (I.At c) (loadCr0 v) := by
  refine keeps_bind require0_keeps fun _ => keeps_modify _ _ fun s h => ?_
  obtain ⟨hc, hk⟩ := keepMap_at h ((Cr0.ofWord v).pg != s.cr0.pg)
  rw [State.keepMap_tlb] at hk
  refine ⟨hc, ?_⟩
  dsimp only
  split
  · exact hk
  · exact I.forget hk _

theorem movToCr_keeps {n r : Fin 8} : Keeps (I.At c) (movToCr n r) := by
  refine keeps_bind requireNumber_keeps fun _ => keeps_read fun _ => ?_
  dsimp only
  split
  · exact keeps_bind loadCr0_keeps fun _ => freeFlags_keeps
  · exact keeps_bind (keeps_modify _ _ fun _ h => h) fun _ => freeFlags_keeps
  · exact keeps_bind (keeps_modify _ _ fun _ h => ⟨(keepMap_at h _).1, I.newBase (keepMap_at h _).2 _⟩) fun _ =>
      freeFlags_keeps

theorem debugGuard_keeps {n : Fin 8} : Keeps (I.At c) (debugGuard n) :=
  keeps_bind requireNumber_keeps fun _ => keeps_read fun _ =>
  keeps_ite (keeps_bind (keeps_modify _ _ fun _ h => h) fun _ => keeps_throw _ _) (keeps_pure _ _)

theorem movFromDr_keeps {r n : Fin 8} : Keeps (I.At c) (movFromDr r n) :=
  keeps_bind debugGuard_keeps fun _ => keeps_read fun _ => keeps_bind putReg_keeps fun _ => freeFlags_keeps

theorem movToDr_keeps {n r : Fin 8} : Keeps (I.At c) (movToDr n r) := by
  refine keeps_bind debugGuard_keeps fun _ => keeps_read fun _ => ?_
  dsimp only
  split
  case h_6 =>
    exact keeps_when (keeps_throw _ _) fun _ => keeps_bind (keeps_modify _ _ fun _ h => h) fun _ => freeFlags_keeps
  all_goals exact keeps_bind (keeps_modify _ _ fun _ h => h) fun _ => freeFlags_keeps

theorem movTest_keeps {p : State → Prop} {n : Fin 8} : Keeps p (movTest n) :=
  keeps_bind requireNumber_keeps fun _ => keeps_throw _ _

theorem putZf_keeps {z : Bool} : Keeps (I.At c) (putZf z) := keeps_modify _ _ fun _ h => h

theorem queryDesc_keeps {sel : Word16} {ok : BitVec 2 → Desc → Bool} : Keeps (I.At c) (queryDesc sel ok) := by
  refine keeps_read fun _ => keeps_ite (keeps_pure _ _) ?_
  split
  · exact keeps_pure _ _
  · exact keeps_bind readDesc_keeps fun _ => keeps_pure _ _

theorem queryLoad_keeps {types : List Nat} {result : Desc → Word32} {r : Fin 8} {rm : RM} :
    Keeps (I.At c) (queryLoad types result r rm) := by
  refine keeps_bind requireProtected_keeps fun _ => keeps_read fun _ => keeps_bind readRM_keeps fun _ =>
    keeps_bind queryDesc_keeps fun _ => ?_
  split
  · exact keeps_bind putReg_keeps fun _ => putZf_keeps
  · exact putZf_keeps

/-! ## Moves -/

theorem loadDirect_keeps {w : Width} {off : ImmV} : Keeps (I.At c) (loadDirect w off) :=
  keeps_read fun _ => keeps_bind lread_keeps fun _ => putReg_keeps

theorem storeDirect_keeps {w : Width} {off : ImmV} : Keeps (I.At c) (storeDirect w off) :=
  keeps_read fun _ => lwrite_keeps

theorem movToSeg_keeps {sr : SReg} {rm : RM} : Keeps (I.At c) (movToSeg sr rm) :=
  keeps_bind require_keeps fun _ => keeps_bind readRM_keeps fun _ => keeps_bind loadSeg_keeps fun _ =>
  keeps_ite (keeps_modify _ _ fun _ h => h) (keeps_pure _ _)

theorem movForm_keeps {f : MovForm} : Keeps (I.At c) (movForm f) := by
  refine keeps_read fun _ => ?_
  cases f
  case ebGb | evGv | ebIb | evIv => exact writeRM_keeps
  case gbEb | gvEv => exact keeps_bind readRM_keeps fun _ => putReg_keeps
  case ewSw => exact storeWord_keeps
  case swEw => exact movToSeg_keeps
  case alOb | eaxOv => exact loadDirect_keeps
  case obAl | ovEax => exact storeDirect_keeps
  case r8Ib | rIv => exact putReg_keeps
  case r32Cr => exact movFromCr_keeps
  case r32Dr => exact movFromDr_keeps
  case crR32 => exact movToCr_keeps
  case drR32 => exact movToDr_keeps
  case r32Tr | trR32 => exact movTest_keeps

theorem movxForm_keeps {ext : (n m : Nat) → BitVec n → BitVec m} {f : MovxForm} : Keeps (I.At c) (movxForm ext f) := by
  refine keeps_read fun _ => ?_
  cases f <;> exact keeps_bind readRM_keeps fun _ => putReg_keeps

theorem readFar_keeps {m : MemOp} : Keeps (I.At c) (readFar m) :=
  keeps_read fun _ => keeps_bind lread_keeps fun _ => keeps_bind lread_keeps fun _ => keeps_pure _ _

theorem loadFar_keeps {sr : SReg} {r : Fin 8} {m : MemOp} : Keeps (I.At c) (loadFar sr r m) :=
  keeps_read fun _ => keeps_bind readFar_keeps fun _ => keeps_bind loadSeg_keeps fun _ => putReg_keeps

theorem xchgRM_keeps {w : Width} {rm : RM} {r : Fin 8} : Keeps (I.At c) (xchgRM w rm r) :=
  keeps_read fun _ => keeps_bind checkLoc_keeps fun _ => keeps_bind
    (lockedIf_keeps <| keeps_bind readLoc_keeps fun _ => keeps_bind writeLoc_keeps fun _ => keeps_pure _ _)
    fun _ => putReg_keeps

theorem xchgForm_keeps {f : XchgForm} : Keeps (I.At c) (xchgForm f) := by
  refine keeps_read fun _ => ?_
  cases f <;> exact xchgRM_keeps

/-! ## The stack -/

theorem putSized_keeps {sz : Size} {r : Fin 8} {v : Word32} : Keeps (I.At c) (putSized sz r v) :=
  keeps_modify _ _ fun _ h => setAddrReg_at h _ _ _

theorem readSized_keeps {sz : Size} {rm : RM} : Keeps (I.At c) (readSized sz rm) :=
  keeps_bind readRM_keeps fun _ => keeps_pure _ _

theorem pushForm_keeps {f : PushForm} : Keeps (I.At c) (pushForm f) := by
  refine keeps_read fun _ => ?_
  cases f
  case ev => exact keeps_bind readSized_keeps fun _ => push_keeps
  all_goals exact push_keeps

theorem pushSeg_keeps {r : SReg} : Keeps (I.At c) (pushSeg r) := keeps_read fun _ => pushBytes_keeps

theorem popForm_keeps {f : PopForm} : Keeps (I.At c) (popForm f) := by
  refine keeps_read fun _ => keeps_bind pop_keeps fun _ => ?_
  cases f
  · exact putSized_keeps
  · exact writeRM_keeps

theorem popSeg_keeps {r : SReg} : Keeps (I.At c) (popSeg r) :=
  keeps_read fun _ => keeps_bind stackRead_keeps fun _ => keeps_bind loadSeg_keeps fun _ =>
  keeps_bind (keeps_modify _ _ fun _ h => setSp_at h _) fun _ => keeps_ite (keeps_modify _ _ fun _ h => h) (keeps_pure _ _)

theorem stackItems_keeps {sz : Size} {sp : Word32} {n : Nat} : Keeps (I.At c) (stackItems sz sp n) := by
  induction n generalizing sp with
  | zero => exact keeps_pure _ _
  | succ n ih =>
    exact keeps_bind stackRead_keeps fun _ => keeps_read fun _ => keeps_bind ih fun _ => keeps_pure _ _

theorem popaSteps_keeps : Keeps (I.At c) popaSteps :=
  keeps_read fun _ => keeps_bind stackItems_keeps fun _ => keeps_bind (keeps_modify _ _ fun _ h => setSp_at h _) fun _ =>
  keeps_bind putSized_keeps fun _ => keeps_bind putSized_keeps fun _ => keeps_bind putSized_keeps fun _ =>
  keeps_bind putSized_keeps fun _ => keeps_bind putSized_keeps fun _ => keeps_bind putSized_keeps fun _ =>
  putSized_keeps

theorem copyDisplay_keeps {sz : Size} {n : Nat} : Keeps (I.At c) (copyDisplay sz n) := by
  induction n with
  | zero => exact keeps_pure _ _
  | succ n ih =>
    exact keeps_bind (keeps_modify _ _ fun _ h => setAddrReg_at h _ _ _) fun _ => keeps_read fun _ =>
      keeps_bind stackRead_keeps fun _ => keeps_bind push_keeps fun _ => ih

theorem enterSteps_keeps {iw : Word16} {ib : Byte} : Keeps (I.At c) (enterSteps iw ib) :=
  have hend {sz v iw} : Keeps (I.At c) (do putSized sz ebp v; modify fun s => s.setSp (s.spBelow s.sp iw) : M Unit) :=
    keeps_bind putSized_keeps fun _ => keeps_modify _ _ fun _ h => setSp_at h _
  keeps_read fun _ => keeps_read fun _ => keeps_bind push_keeps fun _ => keeps_read fun _ =>
  keeps_ite hend <| keeps_bind copyDisplay_keeps fun _ => keeps_bind push_keeps fun _ => hend

/-! ## Control transfer -/

theorem requireTarget_keeps {p : State → Prop} {t : Word32} : Keeps p (requireTarget t) :=
  keeps_read fun _ => require0_keeps

theorem nearBranch_keeps {t : Word32} : Keeps (I.At c) (nearBranch t) :=
  keeps_read fun _ => keeps_bind requireTarget_keeps fun _ => keeps_bind branchTo_keeps fun _ => keeps_pure _ _

theorem branchBy_keeps {disp : Word32} : Keeps (I.At c) (branchBy disp) := keeps_read fun _ => nearBranch_keeps

theorem branchIf_keeps {b : Bool} {disp : Word32} : Keeps (I.At c) (branchIf b disp) :=
  keeps_ite branchBy_keeps (keeps_pure _ _)

theorem jccSteps_keeps {cc : Cond} {f : JccForm} : Keeps (I.At c) (jccSteps cc f) := keeps_read fun _ => branchIf_keeps

theorem loopSteps_keeps {test : Bool → Bool} {disp : Byte} : Keeps (I.At c) (loopSteps test disp) :=
  keeps_bind (keeps_modify _ _ fun _ h => setAddrReg_at h _ _ _) fun _ => keeps_read fun _ => branchIf_keeps

theorem pushReturn_keeps {via : Via} {sz : Size} : Keeps (I.At c) (pushReturn via sz) := by
  refine keeps_read fun _ => ?_
  cases via
  · exact keeps_pure _ _
  · exact pushAll_keeps

theorem callRoom_keeps {p : State → Prop} {via : Via} {sz : Size} : Keeps p (callRoom via sz) := by
  cases via
  · exact keeps_pure _ _
  · exact requireRoom_keeps

theorem farRealSteps_keeps {via : Via} {sel : Word16} {off : Word32} : Keeps (I.At c) (farRealSteps via sel off) :=
  keeps_read fun _ => keeps_bind callRoom_keeps fun _ => keeps_bind requireTarget_keeps fun _ =>
  keeps_bind pushReturn_keeps fun _ => keeps_bind farReal_keeps fun _ => keeps_pure _ _

theorem directCode_keeps {p : State → Prop} {sel : Word16} {d : Desc} : Keeps p (directCode sel d) :=
  keeps_read fun _ => keeps_bind requireSel_keeps fun _ => requireSel_keeps

theorem sameLevel_keeps {via : Via} {sz : Size} {sel : Word16} {d : Desc} {la off : Word32} :
    Keeps (I.At c) (sameLevel via sz sel d la off) :=
  keeps_bind callRoom_keeps fun _ => keeps_bind require0_keeps fun _ => keeps_bind pushReturn_keeps fun _ =>
  keeps_read fun _ => keeps_bind loadCs_keeps fun _ => keeps_bind branchTo_keeps fun _ => keeps_pure _ _

theorem innerCall_keeps {g : Desc} {csel : Word16} {d : Desc} {la off : Word32} :
    Keeps (I.At c) (innerCall g csel d la off) :=
  keeps_read fun _ => keeps_bind innerStack_keeps fun _ => keeps_bind require0_keeps fun _ =>
  keeps_bind stackItems_keeps fun _ => keeps_bind switchStack_keeps fun _ => keeps_bind pushAll_keeps fun _ =>
  keeps_bind loadCs_keeps fun _ => keeps_bind branchTo_keeps fun _ => keeps_pure _ _

theorem throughGate_keeps {via : Via} {sel : Word16} {g : Desc} : Keeps (I.At c) (throughGate via sel g) :=
  keeps_read fun _ => keeps_bind requireSel_keeps fun _ => keeps_bind requireSel_keeps fun _ =>
  keeps_bind require0_keeps fun _ => keeps_bind fetchDesc_keeps fun _ => keeps_bind requireSel_keeps fun _ =>
  keeps_bind requireSel_keeps fun _ => keeps_bind requireSel_keeps fun _ => keeps_ite innerCall_keeps sameLevel_keeps

theorem toTask_keeps {via : Via} {sel : Word16} {d : Desc} : Keeps (I.At c) (toTask via sel d) :=
  keeps_read fun _ => keeps_bind requireSel_keeps fun _ => keeps_ite
    (keeps_bind requireSel_keeps fun _ => keeps_bind taskSwitch_keeps fun _ => keeps_pure _ _)
    (keeps_bind taskSwitch_keeps fun _ => keeps_pure _ _)

theorem farProtectedSteps_keeps {via : Via} {sel : Word16} {off : Word32} :
    Keeps (I.At c) (farProtectedSteps via sel off) :=
  keeps_bind require0_keeps fun _ => keeps_bind fetchDesc_keeps fun _ => keeps_read fun _ =>
  keeps_ite (keeps_bind directCode_keeps fun _ => sameLevel_keeps) <| keeps_ite throughGate_keeps <|
  keeps_ite toTask_keeps raiseSel_keeps

theorem farSteps_keeps {via : Via} {sel : Word16} {off : Word32} : Keeps (I.At c) (farSteps via sel off) :=
  keeps_read fun _ => keeps_ite farProtectedSteps_keeps farRealSteps_keeps

theorem callNear_keeps {t : Word32} : Keeps (I.At c) (callNear t) :=
  keeps_read fun _ => keeps_bind requireTarget_keeps fun _ => keeps_bind push_keeps fun _ =>
  keeps_bind branchTo_keeps fun _ => keeps_pure _ _

theorem callForm_keeps {f : CallForm} : Keeps (I.At c) (callForm f) := by
  refine keeps_read fun _ => ?_
  cases f
  case farAp => exact farSteps_keeps
  case jv => exact callNear_keeps
  case ev => exact keeps_bind readSized_keeps fun _ => callNear_keeps
  case farMp => exact keeps_bind readFar_keeps fun _ => farSteps_keeps

theorem jmpForm_keeps {f : JmpForm} : Keeps (I.At c) (jmpForm f) := by
  refine keeps_read fun _ => ?_
  cases f
  case farAp => exact farSteps_keeps
  case jv | jb => exact branchBy_keeps
  case ev => exact keeps_bind readSized_keeps fun _ => nearBranch_keeps
  case farMp => exact keeps_bind readFar_keeps fun _ => farSteps_keeps

theorem retNear_keeps {iw : Word16} : Keeps (I.At c) (retNear iw) :=
  keeps_read fun _ => keeps_bind pop_keeps fun _ => keeps_bind requireTarget_keeps fun _ =>
  keeps_bind (keeps_modify _ _ fun _ h => setSp_at h _) fun _ => keeps_bind branchTo_keeps fun _ => keeps_pure _ _

theorem retFar_keeps {iw : Word16} : Keeps (I.At c) (retFar iw) :=
  keeps_read fun _ => keeps_ite
    (keeps_bind requireHeld_keeps fun _ => keeps_bind stackRead_keeps fun _ => keeps_bind stackRead_keeps fun _ =>
      keeps_bind returnTo_keeps fun _ => keeps_pure _ _)
    (keeps_bind stackRead_keeps fun _ => keeps_bind stackRead_keeps fun _ => keeps_bind requireTarget_keeps fun _ =>
      keeps_bind (keeps_modify _ _ fun _ h => setSp_at h _) fun _ => keeps_bind farReal_keeps fun _ => keeps_pure _ _)

theorem retForm_keeps {f : RetForm} : Keeps (I.At c) (retForm f) := by
  cases f
  case nearIw | near => exact retNear_keeps
  case farIw | far => exact retFar_keeps

theorem softInt_keeps {v : Byte} : Keeps (I.At c) (softInt v) :=
  keeps_read fun _ => keeps_bind enter_keeps fun _ => keeps_pure _ _

/-! ## The coprocessor -/

theorem copIssue_keeps {e : Esc} {sel : Word16} {off : Word32} : Keeps (I.At c) (copIssue e sel off) :=
  keeps_read fun _ => keeps_bind (keeps_modify _ _ fun _ h => h) fun _ =>
  keeps_ite (keeps_modify _ _ fun _ h => h) (keeps_pure _ _)

theorem copMoved_keeps {f : List Byte → BusEvent} {bs : List Byte} :
    Keeps (I.At c) (modify fun t => t.copMoved f bs) := keeps_modify _ _ fun _ h => h

theorem copStored_at {s : State} (h : I.At c s) : I.At c s.copStored := by
  unfold State.copStored
  split
  · exact h
  · exact checkedWrite_at (by exact h) _ _ _ _

theorem makeDueStore_keeps : Keeps (I.At c) makeDueStore :=
  keeps_read fun _ => keeps_when (keeps_throw _ _) fun _ => keeps_bind (keeps_modify _ _ fun _ => copStored_at) fun _ =>
  keeps_pure _ _

theorem copTransfer_keeps {e : Esc} : Keeps (I.At c) (copTransfer e) := by
  refine keeps_read fun _ => ?_
  split
  · exact copIssue_keeps
  · exact keeps_bind accessAddrs_keeps fun _ => keeps_bind copIssue_keeps fun _ =>
      keeps_bind readChecked_keeps fun _ => copMoved_keeps
  · exact keeps_bind accessAddrs_keeps fun _ => keeps_bind copIssue_keeps fun _ =>
      keeps_ite (keeps_modify _ _ fun _ h => h) (keeps_bind copMoved_keeps fun _ => writeChecked_keeps)
  · exact keeps_bind copIssue_keeps fun _ => keeps_bind copMoved_keeps fun _ => putReg_keeps

theorem escSteps_keeps {e : Esc} : Keeps (I.At c) (escSteps e) :=
  keeps_read fun _ => keeps_bind require_keeps fun _ => keeps_when (keeps_throw _ _) fun _ =>
  keeps_ite (keeps_pure _ _) <| keeps_ite makeDueStore_keeps <|
  keeps_bind require_keeps fun _ => keeps_bind copTransfer_keeps fun _ => keeps_pure _ _

theorem reservedSteps_keeps {p : State → Prop} : Keeps p reservedSteps :=
  keeps_read fun _ => keeps_bind require_keeps fun _ => keeps_throw _ _

/-! ## The end of an instruction -/

/-- A next state has `p`. -/
def Ends (p : State → Prop) : Host.Outcome State Fault Refusal → Prop
  | .next t => p t
  | .fault _ => True
  | .refused _ => True

theorem rollback_at {s t : State} (hs : I.At c s) (ht : I.At c t) : I.At c (s.rollback t) :=
  ⟨hs.1, I.restore hs.2 ht.2⟩

theorem shutDown_at {s : State} (h : I.At c s) : I.At c s.shutDown := h

theorem retire_at {t : State} (h : I.At c t) (s : State) (r : Retire) : I.At c (retire s t r) := h

theorem deliverDouble_ends {s : State} (hs : I.At c s) (ret : Word32) : Ends (I.At c) (deliverDouble s ret) := by
  unfold deliverDouble
  split
  next h => exact enter_keeps.ok hs h
  next h =>
    have ht := enter_keeps.error hs h
    split
    · exact ht
    · exact shutDown_at (rollback_at hs ht)
  next => trivial
  next => trivial

theorem deliverFuel_ends {s : State} (hs : I.At c s) (ev : Event) (n : Nat) :
    Ends (I.At c) (deliverFuel s ev n) := by
  induction n generalizing s ev with
  | zero => exact hs
  | succ n ih =>
    unfold deliverFuel
    split
    next h => exact enter_keeps.ok hs h
    next h =>
      have ht := enter_keeps.error hs h
      dsimp only
      split
      · exact ht
      · split
        · exact deliverDouble_ends (rollback_at hs ht) _
        · exact ih (rollback_at hs ht) _
    next => trivial
    next => trivial

theorem deliver_ends {s : State} (hs : I.At c s) (ev : Event) : Ends (I.At c) (deliver s ev) := deliverFuel_ends hs ev 4

theorem conclude_ends {s : State} (hs : I.At c s) {r : EStateM.Result Stop State Retire}
    (hok : ∀ a t, r = .ok a t → I.At c t) (herror : ∀ e t, r = .error e t → I.At c t) :
    Ends (I.At c) (conclude s r) := by
  unfold conclude
  split
  next => exact retire_at (hok _ _ rfl) _ _
  next =>
    have ht := herror _ _ rfl
    split
    · exact ht
    · split
      · exact deliverDouble_ends (rollback_at hs ht) _
      · exact deliver_ends (rollback_at hs ht) _
  next => trivial
  next => trivial

theorem conclude_error_ends {s t : State} (hs : I.At c s) (ht : I.At c t) {e : Stop} :
    Ends (I.At c) (conclude s (.error e t)) := by
  refine conclude_ends hs (fun _ _ h => ?_) fun _ _ h => ?_
  · cases h
  · cases h
    exact ht

theorem runSteps_ends {s : State} (hs : I.At c s) {body : M Retire} (hb : Keeps (I.At c) body) :
    Ends (I.At c) (runSteps body s) :=
  have hbegun : I.At c s.begun := hs
  conclude_ends hs (fun _ _ => hb.ok hbegun) fun _ _ => hb.error hbegun

theorem checkPrefixes_keeps {p : State → Prop} {lockable : Bool} : Keeps p (checkPrefixes lockable) :=
  keeps_read fun _ => keeps_bind require_keeps fun _ => keeps_ite (keeps_throw _ _) (keeps_pure _ _)

theorem withLock_ends {s : State} (hs : I.At c s) {lockable : Bool} {body : M Unit} (hb : Keeps (I.At c) body) :
    Ends (I.At c) (withLock lockable body s) :=
  runSteps_ends hs <| keeps_bind checkPrefixes_keeps fun _ => keeps_bind hb fun _ => keeps_pure _ _

theorem plain_ends {s : State} (hs : I.At c s) {body : M Unit} (hb : Keeps (I.At c) body) :
    Ends (I.At c) (plain body s) := withLock_ends hs hb

theorem transfer_ends {s : State} (hs : I.At c s) {body : M Retire} (hb : Keeps (I.At c) body) :
    Ends (I.At c) (transfer body s) := runSteps_ends hs <| keeps_bind checkPrefixes_keeps fun _ => hb

theorem bitString_ends {s : State} (hs : I.At c s) {body : M Unit} (hb : Keeps (I.At c) body) :
    Ends (I.At c) (bitString body s) :=
  runSteps_ends hs <| keeps_read fun _ => keeps_bind require_keeps fun _ => keeps_bind checkPrefixes_keeps fun _ =>
    keeps_bind hb fun _ => keeps_pure _ _

/-! ## The instructions -/

theorem exec_ends {s : State} (hs : I.At c s) (i : Instr) : Ends (I.At c) (exec i s) := by
  cases i
  case add | adc | sub | sbb | and | or | xor => exact withLock_ends hs aluForm_keeps
  case cmp => exact plain_ends hs aluForm_keeps
  case inc | dec => exact withLock_ends hs incForm_keeps
  case neg => exact withLock_ends hs (keeps_read fun _ => unaryRM_keeps)
  case not => exact withLock_ends hs (keeps_read fun _ => modifyRM_keeps fun _ => keeps_pure _ _)
  case mul => exact plain_ends hs mulForm_keeps
  case imul => exact plain_ends hs imulForm_keeps
  case div | idiv => exact plain_ends hs divForm_keeps
  case daa | das => exact plain_ends hs adjustAl_keeps
  case aaa | aas | aad => exact plain_ends hs adjustAx_keeps
  case aam => exact plain_ends hs (keeps_bind require_keeps fun _ => adjustAx_keeps)
  case test => exact plain_ends hs testForm_keeps
  case rol | ror | rcl | rcr | shl | shr | sar => exact plain_ends hs shiftForm_keeps
  case shld | shrd => exact plain_ends hs shdForm_keeps
  case bt => exact plain_ends hs bitForm_keeps
  case bts | btr | btc => exact withLock_ends hs bitForm_keeps
  case bsf | bsr => exact plain_ends hs scanForm_keeps
  case xbts => exact bitString_ends hs xbtsSteps_keeps
  case ibts => exact bitString_ends hs ibtsSteps_keeps
  case mov => exact plain_ends hs movForm_keeps
  case movzx | movsx => exact plain_ends hs movxForm_keeps
  case xchg => exact withLock_ends hs xchgForm_keeps
  case lds | les | lss | lfs | lgs => exact plain_ends hs loadFar_keeps
  case lea => exact plain_ends hs (keeps_read fun _ => putReg_keeps)
  case cwdCdq => exact plain_ends hs (keeps_read fun _ => putReg_keeps)
  case cbwCwde =>
    refine plain_ends hs (keeps_read fun _ => ?_)
    split <;> exact putReg_keeps
  case xlat => exact plain_ends hs (keeps_read fun _ => keeps_bind lread_keeps fun _ => putReg_keeps)
  case nop => exact plain_ends hs (keeps_pure _ _)
  case push => exact plain_ends hs pushForm_keeps
  case pushEs | pushCs | pushSs | pushDs | pushFs | pushGs => exact plain_ends hs pushSeg_keeps
  case pusha => exact plain_ends hs (keeps_read fun _ => keeps_bind requireRoom_keeps fun _ => pushAll_keeps)
  case pushf => exact plain_ends hs (keeps_read fun _ => keeps_bind require0_keeps fun _ => push_keeps)
  case pop => exact plain_ends hs popForm_keeps
  case popEs | popSs | popDs | popFs | popGs => exact plain_ends hs popSeg_keeps
  case popa => exact plain_ends hs popaSteps_keeps
  case popf =>
    exact plain_ends hs <| keeps_read fun _ => keeps_bind require0_keeps fun _ => keeps_bind pop_keeps fun _ =>
      keeps_modify _ _ fun _ h => h
  case enter => exact plain_ends hs enterSteps_keeps
  case leave =>
    exact plain_ends hs <| keeps_bind (keeps_modify _ _ fun _ h => setSp_at h _) fun _ => keeps_read fun _ =>
      keeps_bind pop_keeps fun _ => putSized_keeps
  case jo | jno | jb | jae | je | jne | jbe | ja | js | jns | jp | jnp | jl | jge | jle | jg =>
    exact transfer_ends hs jccSteps_keeps
  case loop | loope | loopne => exact transfer_ends hs loopSteps_keeps
  case jcxz => exact transfer_ends hs (keeps_read fun _ => branchIf_keeps)
  case call => exact transfer_ends hs callForm_keeps
  case jmp => exact transfer_ends hs jmpForm_keeps
  case ret => exact transfer_ends hs retForm_keeps
  case int3 => exact transfer_ends hs softInt_keeps
  case int => exact transfer_ends hs (keeps_read fun _ => keeps_bind require0_keeps fun _ => softInt_keeps)
  case into => exact transfer_ends hs (keeps_read fun _ => keeps_ite softInt_keeps (keeps_pure _ _))
  case bound =>
    exact plain_ends hs <| keeps_read fun _ => keeps_bind lread_keeps fun _ => keeps_bind lread_keeps fun _ =>
      require_keeps
  case iret => exact transfer_ends hs (keeps_bind iretOp_keeps fun _ => keeps_pure _ _)
  case clc | stc | cmc | cld | std => exact plain_ends hs modifyFlags_keeps
  case cli => exact plain_ends hs (keeps_read fun _ => keeps_bind require0_keeps fun _ => modifyFlags_keeps)
  case sti =>
    exact plain_ends hs <| keeps_read fun _ => keeps_bind require0_keeps fun _ =>
      keeps_bind (keeps_modify _ _ fun _ h => h) fun _ => modifyFlags_keeps
  case lahf => exact plain_ends hs (keeps_read fun _ => putReg_keeps)
  case sahf => exact plain_ends hs (keeps_read fun _ => modifyFlags_keeps)
  case seto | setno | setb | setae | sete | setne | setbe | seta | sets | setns | setp | setnp | setl | setge | setle
      | setg =>
    exact plain_ends hs setByte_keeps
  case movsb | movswD => exact runSteps_ends hs (memString_keeps movsElement_keeps)
  case cmpsb | cmpswD => exact runSteps_ends hs (memString_keeps cmpsElement_keeps)
  case scasb | scaswD => exact runSteps_ends hs (memString_keeps scasElement_keeps)
  case lodsb | lodswD => exact runSteps_ends hs (memString_keeps lodsElement_keeps)
  case stosb | stoswD => exact runSteps_ends hs (memString_keeps stosElement_keeps)
  case insb | inswD => exact runSteps_ends hs (portString_keeps insElement_keeps)
  case outsb | outswD => exact runSteps_ends hs (portString_keeps outsElement_keeps)
  case inPort f =>
    refine plain_ends hs (keeps_read fun _ => ?_)
    cases f <;> exact inSteps_keeps
  case outPort f =>
    refine plain_ends hs (keeps_read fun _ => ?_)
    cases f <;> exact outSteps_keeps
  case hlt => exact plain_ends hs (keeps_bind requireCpl0_keeps fun _ => keeps_modify _ _ fun _ h => h)
  case lgdt | lidt => exact plain_ends hs (keeps_bind readTable_keeps fun _ => keeps_modify _ _ fun _ h => h)
  case sgdt | sidt => exact plain_ends hs (keeps_read fun _ => storeTable_keeps)
  case lldt =>
    exact plain_ends hs <| keeps_bind requireProtected_keeps fun _ => keeps_bind requireCpl0_keeps fun _ =>
      keeps_bind readRM_keeps fun _ => keeps_ite (keeps_modify _ _ fun _ h => h) <|
      keeps_bind systemDesc_keeps fun _ => keeps_modify _ _ fun _ h => h
  case ltr =>
    exact plain_ends hs <| keeps_bind requireProtected_keeps fun _ => keeps_bind requireCpl0_keeps fun _ =>
      keeps_bind readRM_keeps fun _ => keeps_bind require0_keeps fun _ => keeps_bind systemDesc_keeps fun _ =>
      keeps_read fun _ => keeps_bind orDescHigh_keeps fun _ => keeps_modify _ _ fun _ h => h
  case sldt | str =>
    exact plain_ends hs (keeps_bind requireProtected_keeps fun _ => keeps_read fun _ => storeWord_keeps)
  case smsw => exact plain_ends hs (keeps_read fun _ => storeWord_keeps)
  case lmsw =>
    exact plain_ends hs <| keeps_bind requireCpl0_keeps fun _ => keeps_bind readRM_keeps fun _ =>
      keeps_modify _ _ fun _ h => h
  case clts => exact plain_ends hs (keeps_bind requireCpl0_keeps fun _ => keeps_modify _ _ fun _ h => h)
  case lar => exact plain_ends hs (keeps_read fun _ => queryLoad_keeps)
  case lsl => exact plain_ends hs queryLoad_keeps
  case verr | verw =>
    exact plain_ends hs <| keeps_bind requireProtected_keeps fun _ => keeps_bind readRM_keeps fun _ =>
      keeps_bind queryDesc_keeps fun _ => putZf_keeps
  case arpl =>
    exact plain_ends hs <| keeps_bind requireProtected_keeps fun _ => keeps_read fun _ =>
      keeps_bind readRM_keeps fun _ => keeps_ite (keeps_bind writeLoc_keeps fun _ => putZf_keeps) putZf_keeps
  case wait =>
    exact transfer_ends hs <| keeps_read fun _ => keeps_bind require_keeps fun _ => keeps_ite (keeps_pure _ _) <|
      keeps_ite makeDueStore_keeps <| keeps_bind require_keeps fun _ => keeps_pure _ _
  case escReserved f => cases f <;> exact transfer_ends hs reservedSteps_keeps
  case prefixEs | prefixCs | prefixSs | prefixDs | prefixFs | prefixGs | prefixOpsize | prefixAdsize | prefixLock
      | prefixRepne | prefixRep =>
    exact hs
  all_goals exact transfer_ends hs escSteps_keeps

/-! ## The step -/

theorem fetchByte_keeps {off : Nat} : Keeps (I.At c) (fetchByte off) := by
  refine keeps_read fun _ => keeps_bind require0_keeps fun _ => ?_
  dsimp only
  split
  · exact keeps_pure _ _
  · exact keeps_bind translate_keeps fun _ => keeps_bind turn_keeps fun _ => keeps_read fun _ => keeps_pure _ _

theorem fetchFrom_keeps {n : Nat} {bs : List Byte} : Keeps (I.At c) (fetchFrom n bs) := by
  induction n generalizing bs with
  | zero => exact keeps_throw _ _
  | succ n ih =>
    refine keeps_read fun _ => keeps_bind fetchByte_keeps fun _ => keeps_bind require0_keeps fun _ => ?_
    split
    · exact ih
    · exact keeps_bind (keeps_modify _ _ fun _ h => h) fun _ => keeps_pure _ _

theorem fetchExec_ends {s : State} (hs : I.At c s) : Ends (I.At c) (fetchExec s) := by
  have hok {d t} (h : fetchInstr s = .ok d t) : I.At c t := fetchFrom_keeps.ok hs h
  unfold fetchExec
  split
  next h => exact exec_ends (hok h) _
  next h => exact conclude_error_ends (hok h) (hok h)
  next => trivial
  next h => exact conclude_error_ends hs (fetchFrom_keeps.error hs h)

theorem startInstr_ends {s : State} (hs : I.At c s) : Ends (I.At c) (startInstr s) := by
  unfold startInstr
  dsimp only
  split
  · exact deliver_ends (by exact hs) _
  · exact fetchExec_ends (by exact hs)

theorem atBoundary_ends {s : State} (hs : I.At c s) : Ends (I.At c) (atBoundary s) := by
  have hq : I.At c s.settleQuiet := hs
  unfold atBoundary
  split
  · exact deliver_ends (by exact hs) _
  · dsimp only
    split
    · split
      · exact deliver_ends (by exact hq) _
      · exact hq
    · split
      · exact deliver_ends (by exact hq) _
      · split
        · exact deliver_ends (by exact hq) _
        · split
          · exact deliver_ends (by exact hq) _
          · split
            · exact hq
            · exact startInstr_ends hq

theorem runStep_ends {s : State} (hs : I.At c s) : Ends (I.At c) (runStep s) := by
  unfold runStep
  split
  · split
    · trivial
    · exact copStored_at hs
  · split
    · exact atBoundary_ends hs
    · exact fetchExec_ends hs

theorem applyReset_at {s : State} (h : I.At c s) : I.At c s.applyReset := by
  obtain ⟨rfl, h⟩ := h
  exact ⟨rfl, I.reset h⟩

/-- Every step keeps an invariant of memory and the paging structures. -/
theorem step_ends {s : State} (hs : I.At c s) : Ends (I.At c) (step s) := by
  have ht : I.At c ({ s with tick := s.tick + 1 } : State) := hs
  unfold step stepOnce
  dsimp only
  split
  · exact applyReset_at ht
  · split
    · exact turned_at ht
    · exact runStep_ends (turned_at ht)

/-! ## CR3 and the look-aside buffer -/

theorem maskedBase_low (v : Word32) : (v &&& 0xFFFFF000).extractLsb' 0 12 = 0 := by
  apply BitVec.eq_of_getLsbD_eq
  intro i hi
  have hmask : (0xFFFFF000#32).getLsbD i = false :=
    (by decide : ∀ i : Fin 12, (0xFFFFF000#32).getLsbD i.val = false) ⟨i, hi⟩
  rw [BitVec.getLsbD_extractLsb', Nat.zero_add, BitVec.getLsbD_and, show (4294963200 : Word32).getLsbD i = _ from hmask]
  simp

/-- No two entries are for one page (R163). -/
def distinctPages (t : List TlbEntry) : Prop := t.Pairwise fun a b => a.page ≠ b.page

theorem distinctPages_insert {t : List TlbEntry} (h : distinctPages t) (e : TlbEntry) :
    distinctPages (e :: t.filter fun x => x.page != e.page) := by
  refine List.pairwise_cons.mpr ⟨fun x hx => ?_, h.filter _⟩
  have hne : (x.page != e.page) = true := (List.mem_filter.mp hx).2
  exact fun heq => (bne_iff_ne.mp hne) heq.symm

/-- The paging structures of the processor as an invariant of every step: it is `State.pagingOk`. -/
def pagingInvariant : StorageInvariant where
  holds c r t _ := r.extractLsb' 0 12 = 0 ∧ t.length ≤ c.tlbEntries ∧ distinctPages t
  store h _ _ := h
  forget := fun ⟨hr, hl, hd⟩ q => ⟨hr, (List.length_filter_le q _).trans hl, hd.filter q⟩
  insert := fun ⟨hr, _, hd⟩ e =>
    ⟨hr, List.length_take_le _ _, (distinctPages_insert hd e).sublist (List.take_sublist _ _)⟩
  newBase _ v := ⟨maskedBase_low v, Nat.zero_le _, List.Pairwise.nil⟩
  restore := fun ⟨hr, _⟩ ⟨_, hl, hd⟩ => ⟨hr, hl, hd⟩
  reset _ := ⟨by decide, Nat.zero_le _, List.Pairwise.nil⟩

theorem pagingInvariant_at (s : State) : pagingInvariant.At s.cfg s ↔ s.pagingOk := ⟨fun h => h.2, fun h => ⟨rfl, h⟩⟩

end Sys2Proof.Machine

open Sys2Proof Sys2Proof.Machine

/-- Settles O7: the paging structures are an invariant of the accesses, and every step is made of accesses. -/
theorem pagingStructuresStayBounded : Obligations.PagingStructuresStayBounded := by
  unfold Obligations.PagingStructuresStayBounded
  intro s t hs hst
  have ht := step_ends ((pagingInvariant_at s).mpr hs)
  rw [hst] at ht
  obtain ⟨hc, h⟩ := ht
  unfold State.pagingOk
  rw [hc]
  exact h

/-- Settles O8: memory and the look-aside buffer are empty after reset, in real mode at CPL 0. -/
theorem resetMeetsInvariants : Obligations.ResetMeetsInvariants := by
  unfold Obligations.ResetMeetsInvariants
  refine ⟨⟨rfl, rfl, rfl, Nat.zero_le _, List.Pairwise.nil⟩, fun c r => ?_⟩
  cases r <;> exact ⟨rfl, rfl⟩
end

section
/-!
PROOF. The general registers: what a register and its 16-bit and 8-bit views read as after a write. It settles O11.
-/
namespace Sys2Proof.Machine

/-! ## A register after a write -/

theorem reg32_setReg32 (s : State) (i q : Fin 8) (v : Word32) :
    (s.setReg32 i v).reg32 q = if q = i then v else s.reg32 q := by
  by_cases h : q = i
  · subst h
    simp [State.reg32, State.setReg32]
  · have hne : i.val ≠ q.val := fun e => h (Fin.ext e.symm)
    simp [State.reg32, State.setReg32, h, hne]

theorem reg32_setReg32_same (s : State) (i : Fin 8) (v : Word32) : (s.setReg32 i v).reg32 i = v := by
  rw [reg32_setReg32, if_pos rfl]

theorem reg32_setReg32_other (s : State) {i q : Fin 8} (v : Word32) (h : q ≠ i) :
    (s.setReg32 i v).reg32 q = s.reg32 q := by
  rw [reg32_setReg32, if_neg h]

/-! ## Parts of a double word -/

theorem getLsbD_replaceWord (old : Word32) (v : Word16) (k : Nat) : (replaceWord old v).getLsbD k =
    if k < 16 then v.getLsbD k else (old.extractLsb' 16 16).getLsbD (k - 16) := BitVec.getLsbD_append

theorem replaceWord_low (old : Word32) (v : Word16) : (replaceWord old v).extractLsb' 0 16 = v := by
  apply BitVec.eq_of_getLsbD_eq
  intro k hk
  simp [getLsbD_replaceWord, hk]

theorem replaceWord_high (old : Word32) (v : Word16) :
    (replaceWord old v).extractLsb' 16 16 = old.extractLsb' 16 16 := by
  apply BitVec.eq_of_getLsbD_eq
  intro k hk
  simp [getLsbD_replaceWord, hk]

/-- R22: of a register whose byte at `low` is replaced, the eight bits of that byte are the new ones and the others stay. -/
theorem getLsbD_replaceByte (old : Word32) (low : Nat) (v : Byte) {k : Nat} (hk : k < 32) :
    (replaceByte old low v).getLsbD k = if low ≤ k ∧ k < low + 8 then v.getLsbD (k - low) else old.getLsbD k := by
  have hmask (j : Nat) (hj : j < 32) : (0xFF#32).getLsbD j = decide (j < 8) :=
    (by decide : ∀ j : Fin 32, (0xFF#32).getLsbD j.val = decide (j.val < 8)) ⟨j, hj⟩
  simp only [replaceByte, BitVec.getLsbD_or, BitVec.getLsbD_and, BitVec.getLsbD_not, BitVec.getLsbD_shiftLeft,
    BitVec.truncate_eq_setWidth, BitVec.getLsbD_setWidth, hmask (k - low) (by omega), hk, show k - low < 32 by omega]
  by_cases h1 : k < low
  · simp [h1, show ¬ low ≤ k by omega]
  · by_cases h2 : k < low + 8
    · simp [h1, h2, show low ≤ k by omega, show k - low < 8 by omega]
    · have hv : v.getLsbD (k - low) = false := BitVec.getLsbD_of_ge _ _ (by omega)
      simp [h1, h2, hv, show ¬ k - low < 8 by omega]

theorem replaceByte_same (old : Word32) {low : Nat} (h : low ≤ 24) (v : Byte) :
    (replaceByte old low v).extractLsb' low 8 = v := by
  apply BitVec.eq_of_getLsbD_eq
  intro k hk
  rw [BitVec.getLsbD_extractLsb', getLsbD_replaceByte old low v (by omega), if_pos (by omega)]
  simp [hk]

/-- Bits outside the byte that is replaced. -/
theorem replaceByte_other (old : Word32) {low at' n : Nat} (h : at' + n ≤ 32) (hd : at' + n ≤ low ∨ low + 8 ≤ at')
    (v : Byte) : (replaceByte old low v).extractLsb' at' n = old.extractLsb' at' n := by
  apply BitVec.eq_of_getLsbD_eq
  intro k hk
  rw [BitVec.getLsbD_extractLsb', BitVec.getLsbD_extractLsb', getLsbD_replaceByte old low v (by omega),
    if_neg (by omega)]

/-! ## The 8-bit registers -/

theorem byteLow_eq (i : Fin 8) : byteLow i = 0 ∨ byteLow i = 8 := by
  unfold byteLow
  split <;> simp

theorem byteHome_lt (i : Fin 8) : (byteHome i).val < 4 := by decide +revert

/-- Two 8-bit registers with one home lie in different bytes of it. -/
theorem byteLow_ne {i j : Fin 8} (hne : i ≠ j) (hh : byteHome i = byteHome j) : byteLow i ≠ byteLow j := by
  decide +revert

theorem reg32_setReg_byte (s : State) (i q : Fin 8) (v : Byte) : (s.setReg .w8 i v).reg32 q =
    if q = byteHome i then replaceByte (s.reg32 (byteHome i)) (byteLow i) v else s.reg32 q :=
  reg32_setReg32 s (byteHome i) q _

theorem byteReg_setReg_same (s : State) (i : Fin 8) (v : Byte) : (s.setReg .w8 i v).reg .w8 i = v := by
  simp only [State.reg, reg32_setReg_byte, if_pos]
  refine replaceByte_same _ ?_ v
  obtain h | h := byteLow_eq i <;> omega

theorem byteReg_setReg_other (s : State) {i q : Fin 8} (h : q ≠ i) (v : Byte) :
    (s.setReg .w8 i v).reg .w8 q = s.reg .w8 q := by
  simp only [State.reg, reg32_setReg_byte]
  split
  next hh =>
    have hne := byteLow_ne h hh
    obtain h1 | h1 := byteLow_eq i <;> obtain h2 | h2 := byteLow_eq q
    all_goals rw [← hh]; exact replaceByte_other _ (by omega) (by omega) v
  next => rfl

theorem high_setReg_byte (s : State) (i q : Fin 8) (v : Byte) :
    ((s.setReg .w8 i v).reg32 q).extractLsb' 16 16 = (s.reg32 q).extractLsb' 16 16 := by
  rw [reg32_setReg_byte]
  split
  next h =>
    rw [h]
    refine replaceByte_other _ (by omega) ?_ v
    obtain h | h := byteLow_eq i <;> omega
  next => rfl

end Sys2Proof.Machine

open Sys2Proof Sys2Proof.Machine

/-- Settles O11. -/
theorem partialRegisterWrites : Obligations.PartialRegisterWrites := by
  unfold Obligations.PartialRegisterWrites
  refine fun s r => ⟨rfl, fun j => ?views, fun v => ?dword, fun v => ?word, fun v => ?byte⟩
  case views => fin_cases j <;> exact ⟨rfl, rfl⟩
  case dword => exact ⟨reg32_setReg32_same s r v, fun q => reg32_setReg32_other s v⟩
  case word =>
    simp only [State.reg, State.setReg, reg32_setReg32_same]
    exact ⟨replaceWord_low _ v, replaceWord_high _ v, fun q => reg32_setReg32_other s _⟩
  case byte =>
    refine ⟨byteReg_setReg_same s r v, fun q h => byteReg_setReg_other s h v, fun q => high_setReg_byte s r q v, ?_⟩
    intro q hq
    refine reg32_setReg32_other s _ fun h => ?_
    have := byteHome_lt r
    omega
end

section
/-!
PROOF. What the arithmetic and logic operations compute, in integers, for operands of every width. It settles O16.
-/
namespace Sys2Proof.Machine

/-! ## ZF, SF and PF -/

/-- The number of `true` among the values of a list is even exactly where their exclusive or is false. -/
theorem even_filter_iff {α : Type} (p : α → Bool) (l : List α) :
    (l.filter p).length % 2 = 0 ↔ l.foldr (fun x b => p x ^^ b) false = false := by
  induction l with
  | nil => simp
  | cons x l ih =>
    cases h : p x
    · simp [h, ih]
    · simp only [h, List.filter_cons, if_true, List.length_cons, List.foldr_cons, Bool.true_bne, Bool.not_eq_false']
      rw [← Bool.not_eq_false, ← ih]
      omega

/-- PF: the low byte has an even number of 1 bits (R30). -/
theorem evenParity_iff {n : Nat} (x : BitVec n) : evenParity (x.extractLsb' 0 8) = true ↔
    ((List.range 8).filter fun k => x.getLsbD k).length % 2 = 0 := by
  rw [even_filter_iff]
  simp [evenParity, List.range_succ]

/-- `SetSZP` in numbers, and the flags it leaves (R33). -/
def SignZeroParity {n : Nat} (f : EFlags) (r : Result n) : Prop :=
  (r.flags.zf = true ↔ r.value = 0) ∧ (r.flags.sf = true ↔ r.value.toInt < 0) ∧
  (r.flags.pf = true ↔ ((List.range 8).filter fun k => r.value.getLsbD k).length % 2 = 0) ∧
  r.flags = { f with cf := r.flags.cf, pf := r.flags.pf, af := r.flags.af, zf := r.flags.zf, sf := r.flags.sf,
                     ovf := r.flags.ovf }

theorem signZeroParity {n : Nat} (res : BitVec n) (f : EFlags) (cf af ovf : Bool) :
    SignZeroParity f { value := res, flags := { setSZP res f with cf := cf, af := af, ovf := ovf } } := by
  refine ⟨?_, ?_, evenParity_iff res, rfl⟩
  · simp [setSZP]
  · simp [setSZP, BitVec.msb_eq_toInt]

/-! ## Addition -/

theorem ofNat_sum {n : Nat} (a b : BitVec n) (c : Bool) :
    BitVec.ofNat n (a.toNat + b.toNat + c.toNat) = a + b + BitVec.ofNat n c.toNat := by
  simp [BitVec.ofNat_add]

/-- A sum with a carry in wraps at most once. -/
theorem toNat_sum_cases {n : Nat} (a b : BitVec n) (c : Bool) :
    (a + b + BitVec.ofNat n c.toNat).toNat = a.toNat + b.toNat + c.toNat ∨
    (a + b + BitVec.ofNat n c.toNat).toNat + 2 ^ n = a.toNat + b.toNat + c.toNat := by
  have ha := a.isLt
  have hb := b.isLt
  have hc := c.toNat_le
  rw [← ofNat_sum, BitVec.toNat_ofNat]
  by_cases h : a.toNat + b.toNat + c.toNat < 2 ^ n
  · exact .inl (Nat.mod_eq_of_lt h)
  · rw [Nat.mod_eq_sub_mod (by omega), Nat.mod_eq_of_lt (by omega)]
    omega

/-- Bit `i` of a sum differs from those of the operands exactly where the bits below it carry. -/
theorem sum_bit_carry {n i : Nat} (hi : i < n) (a b : BitVec n) (c : Bool) :
    (a ^^^ b ^^^ (a + b + BitVec.ofNat n c.toNat)).getLsbD i = true ↔
      2 ^ i ≤ a.toNat % 2 ^ i + b.toNat % 2 ^ i + c.toNat := by
  have hc : BitVec.ofNat n c.toNat = (BitVec.ofBool c).setWidth n := by
    apply BitVec.eq_of_toNat_eq
    cases c <;> simp
  have hsum := BitVec.getLsbD_add_add_bool hi a b c
  rw [← hc] at hsum
  rw [BitVec.getLsbD_xor, BitVec.getLsbD_xor, hsum, BitVec.carry]
  cases a.getLsbD i <;> cases b.getLsbD i <;> simp

/-- The sign bit and the signed value. -/
theorem sign_cases {n : Nat} (hn : 0 < n) (x : BitVec n) :
    (x.msb = false ∧ x.toNat < 2 ^ (n - 1) ∧ x.toInt = x.toNat) ∨
    (x.msb = true ∧ 2 ^ (n - 1) ≤ x.toNat ∧ x.toInt = x.toNat - 2 * (2 ^ (n - 1) : Nat)) := by
  have hp : 2 ^ n = 2 * 2 ^ (n - 1) := by rw [← Nat.pow_succ', Nat.succ_eq_add_one, Nat.sub_add_cancel hn]
  have hx := x.isLt
  rw [BitVec.msb_eq_decide, BitVec.toInt_eq_toNat_cond, hp]
  by_cases h : 2 ^ (n - 1) ≤ x.toNat
  · right
    rw [if_neg (by omega)]
    exact ⟨decide_eq_true h, h, by push_cast; rfl⟩
  · left
    rw [if_pos (by omega)]
    exact ⟨decide_eq_false h, by omega, rfl⟩

/-- OF of a sum: the signed sum is out of range. -/
theorem sum_overflow {n : Nat} (hn : 0 < n) (a b : BitVec n) (c : Bool) :
    ((a ^^^ (a + b + BitVec.ofNat n c.toNat)) &&& (b ^^^ (a + b + BitVec.ofNat n c.toNat))).msb = true ↔
      a.toInt + b.toInt + c.toNat < -(2 : Int) ^ (n - 1) ∨ (2 : Int) ^ (n - 1) ≤ a.toInt + b.toInt + c.toNat := by
  have hs := toNat_sum_cases a b c
  generalize a + b + BitVec.ofNat n c.toNat = r at hs
  have hp : 2 ^ n = 2 * 2 ^ (n - 1) := by rw [← Nat.pow_succ', Nat.succ_eq_add_one, Nat.sub_add_cancel hn]
  have hc := c.toNat_le
  have hcast : (2 : Int) ^ (n - 1) = ((2 ^ (n - 1) : Nat) : Int) := by push_cast; rfl
  have hr := r.isLt
  rw [BitVec.msb_and, BitVec.msb_xor, BitVec.msb_xor, hcast]
  rw [hp] at hs hr
  obtain ⟨ma, ha, ia⟩ | ⟨ma, ha, ia⟩ := sign_cases hn a <;>
    obtain ⟨mb, hb, ib⟩ | ⟨mb, hb, ib⟩ := sign_cases hn b <;>
    obtain ⟨mr, hr', -⟩ | ⟨mr, hr', -⟩ := sign_cases hn r
  all_goals
    simp only [ma, mb, mr, ia, ib, Bool.xor_self, Bool.and_self, Bool.false_xor, Bool.xor_false, Bool.and_false,
      Bool.false_and, Bool.false_eq_true, false_iff, true_iff]
    omega

/-! ## Subtraction -/

/-- A difference with a borrow in, the subtrahend and the borrow add up to the minuend. -/
theorem difference_add {n : Nat} (a b : BitVec n) (c : Bool) :
    a - b - BitVec.ofNat n c.toNat + b + BitVec.ofNat n c.toNat = a := by
  rw [add_right_comm, BitVec.sub_add_cancel, BitVec.sub_add_cancel]

/-- A difference with a borrow in wraps at most once. -/
theorem toNat_difference_cases {n : Nat} (a b : BitVec n) (c : Bool) :
    (a - b - BitVec.ofNat n c.toNat).toNat + b.toNat + c.toNat = a.toNat ∨
    (a - b - BitVec.ofNat n c.toNat).toNat + b.toNat + c.toNat = a.toNat + 2 ^ n := by
  have h := toNat_sum_cases (a - b - BitVec.ofNat n c.toNat) b c
  rw [difference_add] at h
  omega

/-- The difference in integers, modulo the width. -/
theorem toNat_difference {n : Nat} (a b : BitVec n) (c : Bool) :
    ((a - b - BitVec.ofNat n c.toNat).toNat : Int) = ((a.toNat : Int) - b.toNat - c.toNat) % (2 : Int) ^ n := by
  have hcast : (2 : Int) ^ n = ((2 ^ n : Nat) : Int) := by push_cast; rfl
  have hr := (a - b - BitVec.ofNat n c.toNat).isLt
  rw [hcast]
  obtain h | h := toNat_difference_cases a b c
  · rw [Int.emod_eq_of_lt (by omega) (by omega)]
    omega
  · rw [← Int.add_emod_right, Int.emod_eq_of_lt (by omega) (by omega)]
    omega

/-- AF of a difference: the low four bits borrow. -/
theorem difference_half_borrow {n : Nat} (hn : 4 < n) (a b : BitVec n) (c : Bool) :
    (a ^^^ b ^^^ (a - b - BitVec.ofNat n c.toNat)).getLsbD 4 = true ↔ a.toNat % 16 < b.toNat % 16 + c.toNat := by
  have h := sum_bit_carry hn (a - b - BitVec.ofNat n c.toNat) b c
  rw [difference_add, BitVec.xor_comm, BitVec.xor_comm _ b, ← BitVec.xor_assoc] at h
  rw [h]
  have hs := toNat_difference_cases a b c
  obtain ⟨k, hk⟩ : 16 ∣ 2 ^ n := pow_dvd_pow 2 (n := n) (m := 4) (by omega)
  have hc := c.toNat_le
  omega

/-- OF of a difference: the signed difference is out of range. -/
theorem difference_overflow {n : Nat} (hn : 0 < n) (a b : BitVec n) (c : Bool) :
    ((a ^^^ b) &&& (a ^^^ (a - b - BitVec.ofNat n c.toNat))).msb = true ↔
      a.toInt - b.toInt - c.toNat < -(2 : Int) ^ (n - 1) ∨ (2 : Int) ^ (n - 1) ≤ a.toInt - b.toInt - c.toNat := by
  have hs := toNat_difference_cases a b c
  generalize a - b - BitVec.ofNat n c.toNat = r at hs
  have hp : 2 ^ n = 2 * 2 ^ (n - 1) := by rw [← Nat.pow_succ', Nat.succ_eq_add_one, Nat.sub_add_cancel hn]
  have hc := c.toNat_le
  have hcast : (2 : Int) ^ (n - 1) = ((2 ^ (n - 1) : Nat) : Int) := by push_cast; rfl
  have ha' := a.isLt
  rw [BitVec.msb_and, BitVec.msb_xor, BitVec.msb_xor, hcast]
  rw [hp] at hs ha'
  obtain ⟨ma, ha, ia⟩ | ⟨ma, ha, ia⟩ := sign_cases hn a <;>
    obtain ⟨mb, hb, ib⟩ | ⟨mb, hb, ib⟩ := sign_cases hn b <;>
    obtain ⟨mr, hr, -⟩ | ⟨mr, hr, -⟩ := sign_cases hn r
  all_goals
    simp only [ma, mb, mr, ia, ib, Bool.xor_self, Bool.and_self, Bool.false_xor, Bool.xor_false, Bool.and_false,
      Bool.false_and, Bool.false_eq_true, false_iff, true_iff]
    omega

/-! ## The operations -/

theorem addFlags_meaning {n : Nat} (hn : 4 < n) (a b : BitVec n) (c : Bool) (f : EFlags) :
    let p := addFlags a b c f
    p.value.toNat = (a.toNat + b.toNat + c.toNat) % 2 ^ n ∧
    (p.flags.cf = true ↔ 2 ^ n ≤ a.toNat + b.toNat + c.toNat) ∧
    (p.flags.af = true ↔ 16 ≤ a.toNat % 16 + b.toNat % 16 + c.toNat) ∧
    (p.flags.ovf = true ↔ a.toInt + b.toInt + c.toNat < -(2 : Int) ^ (n - 1) ∨
      (2 : Int) ^ (n - 1) ≤ a.toInt + b.toInt + c.toNat) ∧ SignZeroParity f p := by
  refine ⟨BitVec.toNat_ofNat _ _, decide_eq_true_iff, ?_, ?_, signZeroParity _ f _ _ _⟩
  · simp only [addFlags, ofNat_sum]
    exact sum_bit_carry hn a b c
  · simp only [addFlags, ofNat_sum]
    exact sum_overflow (by omega) a b c

theorem subFlags_meaning {n : Nat} (hn : 4 < n) (a b : BitVec n) (c : Bool) (f : EFlags) :
    let m := subFlags a b c f
    (m.value.toNat : Int) = ((a.toNat : Int) - b.toNat - c.toNat) % (2 : Int) ^ n ∧
    (m.flags.cf = true ↔ a.toNat < b.toNat + c.toNat) ∧
    (m.flags.af = true ↔ a.toNat % 16 < b.toNat % 16 + c.toNat) ∧
    (m.flags.ovf = true ↔ a.toInt - b.toInt - c.toNat < -(2 : Int) ^ (n - 1) ∨
      (2 : Int) ^ (n - 1) ≤ a.toInt - b.toInt - c.toNat) ∧ SignZeroParity f m :=
  ⟨toNat_difference a b c, decide_eq_true_iff, difference_half_borrow hn a b c,
    difference_overflow (by omega) a b c, signZeroParity _ f _ _ _⟩

theorem logicFlags_meaning {n : Nat} (u : Nat → Bool) (res : BitVec n) (f : EFlags) :
    let r := logicFlags u res f
    r.flags.cf = false ∧ r.flags.ovf = false ∧ r.flags.af = u 2 ∧ SignZeroParity f r :=
  ⟨rfl, rfl, rfl, signZeroParity res f _ _ _⟩

theorem negCompute_meaning {n : Nat} (hn : 4 < n) (a : BitVec n) (f : EFlags) :
    let r := negCompute a f
    r.value.toNat = (2 ^ n - a.toNat) % 2 ^ n ∧ (r.flags.cf = true ↔ a ≠ 0) ∧
    (r.flags.ovf = true ↔ a.toInt = -(2 : Int) ^ (n - 1)) ∧ r = subFlags 0 a false f := by
  obtain ⟨-, hcf, -, hovf, -⟩ := subFlags_meaning hn 0 a false f
  have hvalue : (negCompute a f).value = -a := by simp [negCompute, subFlags]
  refine ⟨by rw [hvalue, BitVec.toNat_neg], hcf.trans ?_, hovf.trans ?_, rfl⟩
  · rw [ne_eq, ← BitVec.toNat_inj]
    simp [Nat.pos_iff_ne_zero]
  · have hlow := BitVec.le_toInt a
    have hhigh := BitVec.toInt_lt (x := a)
    simp only [BitVec.ofNat_eq_ofNat, BitVec.toInt_zero, Bool.toNat_false]
    omega

end Sys2Proof.Machine

open Sys2Proof Sys2Proof.Machine

/-- Settles O16: addition and subtraction by their carries and borrows, for every width above four bits. -/
theorem operationMeaning : Obligations.OperationMeaning := by
  unfold Obligations.OperationMeaning
  intro w u a b c f
  have hn : 4 < w.bits := by cases w <;> decide
  refine ⟨addFlags_meaning hn a b c f, subFlags_meaning hn a b c f, ⟨rfl, rfl, rfl, rfl, rfl⟩, fun k => ?_,
    ⟨logicFlags_meaning u _ f, logicFlags_meaning u _ f, logicFlags_meaning u _ f, rfl⟩, rfl, rfl, rfl, rfl,
    negCompute_meaning hn a f⟩
  exact ⟨BitVec.getLsbD_and, BitVec.getLsbD_or, BitVec.getLsbD_xor⟩
end

section
/-!
PROOF. The stack: EFLAGS bit by bit, the stack pointer in numbers, and what the pushes do with paging off. It settles O36.
-/
namespace Sys2Proof.Machine

open Sys2Proof.Claims

/-! ## EFLAGS bit by bit -/

/-- The flag at each place of EFLAGS; bit 1 reads 1, the other reserved bits 0 (R29). -/
def EFlags.place (f : EFlags) : Nat → Bool
  | 0 => f.cf
  | 1 => true
  | 2 => f.pf
  | 4 => f.af
  | 6 => f.zf
  | 7 => f.sf
  | 8 => f.tf
  | 9 => f.intf
  | 10 => f.df
  | 11 => f.ovf
  | 12 => f.iopl.getLsbD 0
  | 13 => f.iopl.getLsbD 1
  | 14 => f.nt
  | 16 => f.rf
  | 17 => f.vm
  | _ => false

theorem getLsbD_toWord (f : EFlags) {k : Nat} (hk : k < 32) : f.toWord.getLsbD k = f.place k := by
  simp only [EFlags.toWord, BitVec.truncate_eq_setWidth, BitVec.getLsbD_setWidth, BitVec.getLsbD_append]
  interval_cases k <;> simp [EFlags.place]

theorem toWord_reserved (f : EFlags) : f.toWord &&& 0xFFFC802A = 2 := by
  apply BitVec.eq_of_getLsbD_eq
  intro k hk
  rw [BitVec.getLsbD_and, getLsbD_toWord f hk]
  interval_cases k <;> simp [EFlags.place]

theorem toWord_iopl (f : EFlags) : f.toWord.extractLsb' 12 2 = f.iopl := by
  apply BitVec.eq_of_getLsbD_eq
  intro k hk
  rw [BitVec.getLsbD_extractLsb', getLsbD_toWord f (by omega)]
  interval_cases k <;> simp [EFlags.place]

theorem toWord_ofWord (v : Word32) : (EFlags.ofWord v).toWord = v &&& 0x00037FD5 ||| 2 := by
  apply BitVec.eq_of_getLsbD_eq
  intro k hk
  rw [getLsbD_toWord _ hk, BitVec.getLsbD_or, BitVec.getLsbD_and]
  interval_cases k <;> simp [EFlags.place, EFlags.ofWord]

/-! ## The stack pointer in numbers -/

theorem wrapTo_toNat (sz : Size) (v : Word32) : (wrapTo sz v).toNat = v.toNat % modulus sz := by
  cases sz
  · rw [wrapTo, BitVec.toNat_and]
    exact Nat.and_two_pow_sub_one_eq_mod v.toNat 16
  · exact (Nat.mod_eq_of_lt v.isLt).symm

theorem addrReg_eq (s : State) (sz : Size) (r : Fin 8) : s.addrReg sz r = wrapTo sz (s.reg32 r) := by
  cases sz
  · apply BitVec.eq_of_toNat_eq
    rw [wrapTo_toNat]
    simp only [State.addrReg, State.reg, modulus, BitVec.truncate_eq_setWidth, BitVec.toNat_setWidth,
      BitVec.extractLsb'_toNat, Nat.shiftRight_zero, Width.bits]
    omega
  · rfl

theorem addrReg_setAddrReg_same (s : State) (sz : Size) (r : Fin 8) (v : Word32) :
    (s.setAddrReg sz r v).addrReg sz r = wrapTo sz v := by
  cases sz
  · simp only [State.setAddrReg, State.addrReg, State.reg, State.setReg, reg32_setReg32_same, replaceWord_low]
    apply BitVec.eq_of_toNat_eq
    rw [wrapTo_toNat]
    simp only [modulus, BitVec.truncate_eq_setWidth, BitVec.toNat_setWidth, Width.bits]
    omega
  · exact reg32_setReg32_same s r v

/-- A write of the low 16 bits keeps the upper ones (R22). -/
theorem replaceWord_toNat (old : Word32) (v : Word16) :
    (replaceWord old v).toNat = old.toNat / 2 ^ 16 * 2 ^ 16 + v.toNat := by
  rw [replaceWord, BitVec.toNat_append, ← Nat.shiftLeft_add_eq_or_of_lt v.isLt]
  simp only [BitVec.extractLsb'_toNat, Nat.shiftLeft_eq, Nat.shiftRight_eq_div_pow]
  have := old.isLt
  omega

theorem reg32_setAddrReg_same (s : State) (sz : Size) (r : Fin 8) (v : Word32) :
    ((s.setAddrReg sz r v).reg32 r).toNat =
      (s.reg32 r).toNat / modulus sz * modulus sz + v.toNat % modulus sz := by
  cases sz
  · simp only [State.setAddrReg, State.setReg, reg32_setReg32_same, replaceWord_toNat, modulus]
    simp
  · simp only [State.setAddrReg, reg32_setReg32_same, modulus]
    rw [Nat.div_eq_of_lt (s.reg32 r).isLt, Nat.mod_eq_of_lt v.isLt, Nat.zero_mul, Nat.zero_add]

theorem reg32_setAddrReg_other (s : State) (sz : Size) {r q : Fin 8} (v : Word32) (h : q ≠ r) :
    (s.setAddrReg sz r v).reg32 q = s.reg32 q := by
  cases sz <;> exact reg32_setReg32_other s _ h

theorem setAddrReg_frame (s : State) (sz : Size) (r : Fin 8) (v : Word32) :
    s.setAddrReg sz r v = { s with regs := (s.setAddrReg sz r v).regs } := by
  cases sz <;> rfl

theorem spBelow_toNat (s : State) (v : Word32) (n : Nat) :
    ((s.spBelow v n).toNat : Int) = ((v.toNat : Int) - n) % (modulus s.ssz : Nat) := by
  have hv := v.isLt
  rw [State.spBelow, wrapTo_toNat, BitVec.toNat_sub, BitVec.toNat_ofNat]
  cases s.ssz <;> simp only [modulus] <;> omega

/-- Offsets wrap once (R470). -/
theorem wrapTo_sub (sz : Size) (x : Word32) (m n : Nat) :
    wrapTo sz (wrapTo sz (x - BitVec.ofNat 32 m) - BitVec.ofNat 32 n) = wrapTo sz (x - BitVec.ofNat 32 (m + n)) := by
  apply BitVec.eq_of_toNat_eq
  simp only [wrapTo_toNat, BitVec.toNat_sub, BitVec.toNat_ofNat]
  cases sz <;> simp only [modulus] <;> omega

theorem sp_setSp (s : State) (v : Word32) : (s.setSp v).sp = wrapTo s.ssz v := by
  have hssz : (s.setSp v).ssz = s.ssz := by simp [State.ssz, State.protectedMode]
  rw [State.sp, hssz]
  exact addrReg_setAddrReg_same s s.ssz esp v

theorem ssz_eq_sizeIf (s : State) : s.ssz = sizeIf (s.cr0.pe = true ∧ s.flags.vm = false ∧ s.ss.db = true) := by
  simp [State.ssz, State.protectedMode, sizeIf, and_assoc]

/-! ## Items as bytes -/

theorem getElem?_bytesOfNat {n k : Nat} (v : Nat) (hk : k < n) :
    (bytesOfNat n v)[k]? = some (BitVec.ofNat 8 (v / 2 ^ (8 * k))) := by
  induction n generalizing k v with
  | zero => omega
  | succ n ih =>
    cases k with
    | zero => simp [bytesOfNat]
    | succ k =>
      rw [bytesOfNat, List.getElem?_cons_succ, ih (v / 256) (by omega), Nat.div_div_eq_div_mul,
        show 256 * 2 ^ (8 * k) = 2 ^ (8 * (k + 1)) by ring]

/-- Only the lowest bytes of a number are stored. -/
theorem bytesOfNat_mod (n v : Nat) : bytesOfNat n (v % 256 ^ n) = bytesOfNat n v := by
  induction n generalizing v with
  | zero => rfl
  | succ n ih =>
    have hhead : BitVec.ofNat 8 (v % (256 * 256 ^ n)) = BitVec.ofNat 8 v :=
      BitVec.eq_of_toNat_eq (by simp only [BitVec.toNat_ofNat]; exact Nat.mod_mul_right_mod v 256 _)
    rw [bytesOfNat, bytesOfNat, Nat.pow_succ', hhead, Nat.mod_mul_right_div_self, ih]

/-- The bytes of an item of size `sz` with the value of a double word. -/
theorem bytesOf_truncate (sz : Size) (v : Word32) :
    bytesOf sz.width (v.truncate sz.width.bits) = bytesOfNat sz.bytes v.toNat := by
  cases sz
  · simp only [bytesOf, BitVec.truncate_eq_setWidth, BitVec.toNat_setWidth]
    exact bytesOfNat_mod 2 v.toNat
  · simp [bytesOf]

/-! ## Pushes with paging off -/

/-- Whether an item can be pushed depends on CR0, the flags, the registers and the segment registers alone. -/
theorem canPush_congr {s t : State} (hc : t.cr0 = s.cr0) (hm : t.masters = s.masters) (hf : t.flags = s.flags)
    (hr : t.regs = s.regs) (hs : ∀ r, t.seg r = s.seg r) (sz : Size) : t.canPush sz = s.canPush sz := by
  have hss : t.ss = s.ss := hs .ss
  have hz : t.ssz = s.ssz := by rw [ssz_eq_sizeIf, ssz_eq_sizeIf, hc, hf, hss]
  have hsp : t.sp = s.sp := by simp only [State.sp, hz, addrReg_eq, State.reg32, hr]
  simp only [State.canPush, State.canAccess, State.flat, State.spBelow, hz, hsp, hc, hm, segAllows_congr hc hs]

theorem push_flat {s : State} {sz : Size} (v : Word32) (h : s.canPush sz = true) :
    push sz v s = .ok () (s.pushed sz v) := by
  have hb (bs : List Byte) (hl : bs.length = sz.bytes) : pushBytes bs s = .ok () (pushedBytes s bs) :=
    pushBytes_flat (by rw [hl]; exact h)
  have hp : s.pushed sz v = pushedBytes s (bytesOf sz.width (v.truncate sz.width.bits)) := by
    simp only [State.pushed, pushedBytes, bytesOf_truncate, bytesOfNat_length]
  rw [hp]
  cases sz
  · exact hb _ (bytesOf_length _ _)
  · have hv : v.truncate 32 = v := BitVec.setWidth_eq v
    have := hb (bytesOf .w32 v) (bytesOf_length _ _)
    simpa only [push, Size.width, Width.bits, hv] using this

/-- An item is pushed with the width of the operand: its upper bits make no difference. -/
theorem pushed_truncate (s : State) (sz : Size) (v : Word32) :
    s.pushed sz ((v.truncate sz.width.bits).zeroExtend 32) = s.pushed sz v := by
  have h : ((v.truncate sz.width.bits).zeroExtend 32).truncate sz.width.bits = v.truncate sz.width.bits := by
    apply BitVec.eq_of_toNat_eq
    cases sz <;> simp [Width.bits]
  simp only [State.pushed, ← bytesOf_truncate, h]

/-! ## Several items -/

theorem pushed_flat (s : State) (sz : Size) (v : Word32) : (s.pushed sz v).flat = s.flat := by
  simp [State.flat, State.pushed, State.afterStore]

theorem pushed_ssz (s : State) (sz : Size) (v : Word32) : (s.pushed sz v).ssz = s.ssz := by
  simp [State.ssz, State.protectedMode, State.pushed, State.afterStore]

theorem pushed_sp (s : State) (sz : Size) (v : Word32) : (s.pushed sz v).sp = s.spBelow s.sp sz.bytes := by
  have hz (t : State) (h : t.ssz = s.ssz) : (t.setSp (s.spBelow s.sp sz.bytes)).sp = s.spBelow s.sp sz.bytes := by
    rw [sp_setSp, h, State.spBelow]
    simpa using wrapTo_sub s.ssz s.sp sz.bytes 0
  exact hz _ (by simp [State.ssz, State.protectedMode, State.afterStore])

theorem pushed_segAllows (s : State) (sz : Size) (v : Word32) (off : Word32) (n : Nat) :
    (s.pushed sz v).segAllows .ss off n true = s.segAllows .ss off n true := by
  simp [State.segAllows, State.inReach, State.realMode, State.seg, State.pushed, State.afterStore]

/-- After an item has been pushed the next ones have their room. -/
theorem canPushItems_pushed {s : State} {sz : Size} (v : Word32) {k : Nat}
    (h : canPushItems s sz.bytes (k + 1) = true) :
    s.canPush sz = true ∧ canPushItems (s.pushed sz v) sz.bytes k = true := by
  simp only [canPushItems, List.all_eq_true, List.mem_range] at h ⊢
  have hfirst : s.canPush sz = true := by
    simpa only [State.canPush, State.spBelow, below, Nat.zero_add, Nat.mul_one] using h 0 (by omega)
  refine ⟨hfirst, fun i hi => ?_⟩
  have hb : below (s.pushed sz v) (s.pushed sz v).sp sz.bytes (i + 1) = below s s.sp sz.bytes (i + 1 + 1) := by
    rw [below, below, pushed_ssz, pushed_sp, State.spBelow, wrapTo_sub]
    congr 3
    ring
  have := h (i + 1) (by omega)
  simpa only [State.canAccess, hb, pushed_segAllows, pushed_flat] using this

theorem pushAll_flat {s : State} {sz : Size} (vs : List Word32) (h : canPushItems s sz.bytes vs.length = true) :
    pushAll sz vs s = .ok () (pushedItems s sz vs) := by
  induction vs generalizing s with
  | nil => rfl
  | cons v vs ih =>
    obtain ⟨h1, h2⟩ := canPushItems_pushed v h
    exact (M_bind_ok (push_flat v h1)).trans (ih h2)

theorem requireRoom_run {s : State} {sz : Size} {k : Nat} (h : canPushItems s sz.bytes k = true) :
    requireRoom sz k s = .ok () s := by
  have hroom : roomBelow (fun off => s.inReach s.ss off sz.bytes) s.ssz s.sp sz.bytes k = true := by
    simp only [canPushItems, roomBelow, List.all_eq_true] at h ⊢
    intro i hi
    have hseg := canAccess_seg (h i hi)
    simp only [State.segAllows, Bool.and_eq_true] at hseg
    exact hseg.2
  simp only [requireRoom, M_get_bind, hroom, require0_true_run]

/-! ## The instructions -/

theorem readable_begun (s : State) (w : Width) (l : Loc) : s.begun.readable w l = s.readable w l := by
  cases l
  · rfl
  · simp only [State.readable, State.canAccess, segAllows_congr (s := s) (t := s.begun) rfl (seg_begun s)]
    rfl

theorem canPush_begun (s : State) (sz : Size) : s.begun.canPush sz = s.canPush sz :=
  canPush_congr rfl rfl rfl rfl (seg_begun s) sz

theorem canPush_afterRead (s : State) (w : Width) (l : Loc) (sz : Size) :
    (s.afterRead w l).canPush sz = s.canPush sz :=
  canPush_congr (afterRead_cr0 s w l) (afterRead_masters s w l) (by cases l <;> rfl) (by cases l <;> rfl)
    (afterRead_seg s w l) sz

theorem canPushItems_begun (s : State) (n k : Nat) : canPushItems s.begun n k = canPushItems s n k := by
  simp only [canPushItems, State.canAccess, segAllows_congr (s := s) (t := s.begun) rfl (seg_begun s)]
  rfl

theorem truncate_signExtend (sz : Size) (imm : Byte) :
    (imm.signExtend 32).truncate sz.width.bits = sextImm sz.width imm := by
  apply BitVec.eq_of_getLsbD_eq
  intro k hk
  have h32 : k < 32 := by cases sz <;> simp only [Width.bits] at hk <;> omega
  simp only [sextImm, BitVec.truncate_eq_setWidth, BitVec.getLsbD_setWidth, BitVec.getLsbD_signExtend, hk, h32,
    decide_true, Bool.true_and]

theorem pushForm_flat {s : State} {f : PushForm} (h : (pushSource s s.osz.width f).readable s = true)
    (hp : s.canPush s.osz = true) : pushForm f s = .ok () (pushAfter f s) := by
  rw [pushForm, M_get_bind]
  cases f with
  | r r =>
    have hv : s.regSized s.osz r = (s.reg s.osz.width r).zeroExtend 32 := by
      cases s.osz
      · rfl
      · exact (BitVec.setWidth_eq _).symm
    refine (push_flat _ hp).trans ?_
    rw [hv]
    rfl
  | iv imm =>
    refine (push_flat _ hp).trans ?_
    rw [← pushed_truncate]
    rfl
  | ibs imm =>
    refine (push_flat _ hp).trans ?_
    rw [← pushed_truncate, truncate_signExtend]
    rfl
  | ev rm =>
    have hr : readSized s.osz rm s =
        .ok ((s.valueAt s.osz.width (s.locate rm)).zeroExtend 32) (s.afterRead s.osz.width (s.locate rm)) := by
      simp only [readSized, M_bind, readRM_flat h, M_pure]
    exact (M_bind_ok hr).trans (push_flat _ (by rw [canPush_afterRead]; exact hp))

theorem pushSeg_flat {s : State} (r : SReg) (hp : s.canPush s.osz = true) :
    pushSeg r s = .ok () (pushedBytes s (segItem s r)) := by
  have hl : (segItem s r).length = s.osz.bytes := by
    rw [segItem, List.length_append, bytesOf_length]
    cases s.osz <;> rfl
  have hb : pushBytes (segItem s r) s = .ok () (pushedBytes s (segItem s r)) := pushBytes_flat (by rw [hl]; exact hp)
  rw [pushSeg, M_get_bind, ← hb]
  congr 1
  rw [segItem]
  cases s.osz
  · exact (List.append_nil _).symm
  · rfl

end Sys2Proof.Machine

open Sys2Proof Sys2Proof.Machine Sys2Proof.Claims

/-- Settles O36: each form is the push of one item or of several, with paging off. -/
theorem pushResult : Obligations.PushResult := by
  unfold Obligations.PushResult
  refine ⟨fun f => ⟨toWord_reserved f, toWord_iopl f, ?flags⟩, toWord_ofWord, ?numbers, ?instructions⟩
  case flags =>
    simp only [List.forall_mem_cons, List.not_mem_nil, false_implies, implies_true, and_true]
    have at_place {k : Nat} (hk : k < 32) := getLsbD_toWord f hk
    exact ⟨at_place (by decide), at_place (by decide), at_place (by decide), at_place (by decide), at_place (by decide),
      at_place (by decide), at_place (by decide), at_place (by decide), at_place (by decide), at_place (by decide),
      at_place (by decide), at_place (by decide)⟩
  case numbers =>
    intro s sz r v n
    exact ⟨ssz_eq_sizeIf s, by rw [State.sp, addrReg_eq, wrapTo_toNat]; rfl, spBelow_toNat s v n, rfl,
      wrapTo_toNat sz v, by rw [addrReg_eq, wrapTo_toNat], reg32_setAddrReg_same s sz r v,
      fun q => reg32_setAddrReg_other s sz v, setAddrReg_frame s sz r v, bytesOfNat_length _ _,
      fun k => getElem?_bytesOfNat v.toNat⟩
  case instructions =>
    intro s hp
    refine ⟨fun f hf hs => ?push, fun r hs => ?pushSeg, fun hv hs => ?pushf, fun hs => ?pusha⟩
    case push =>
      refine plain_next hp (pushForm_flat ?_ (by rw [canPush_begun]; exact hs))
      cases f
      case ev => exact (readable_begun s _ _).trans hf
      all_goals rfl
    case pushSeg =>
      have hb := pushSeg_flat (s := s.begun) r (by rw [canPush_begun]; exact hs)
      have hi : segItem s.begun r = segItem s r := by rw [segItem, segItem, seg_begun]; rfl
      rw [hi] at hb
      cases r <;> exact plain_next hp hb
    case pushf =>
      have hallowed : require0 s.begun.v86Allowed 13 s.begun = .ok () s.begun := by
        rw [show s.begun.v86Allowed = true from hv, require0_true_run]
      exact plain_next hp ((M_bind_ok hallowed).trans (push_flat _ (by rw [canPush_begun]; exact hs)))
    case pusha =>
      have hroom : canPushItems s.begun s.begun.osz.bytes 8 = true := by rw [canPushItems_begun]; exact hs
      exact plain_next hp ((M_bind_ok (requireRoom_run hroom)).trans (pushAll_flat _ hroom))
end

section
/-!
PROOF. The control and debug registers: CR0 bit by bit, the numbers that name no register, and the moves at CPL 0. It
settles O33.
-/
namespace Sys2Proof.Machine

/-! ## CR0 bit by bit -/

/-- The bit at each place of CR0; the reserved bits read 0 (R48). -/
def Cr0.place (c : Cr0) : Nat → Bool
  | 0 => c.pe
  | 1 => c.mp
  | 2 => c.em
  | 3 => c.ts
  | 4 => c.et
  | 31 => c.pg
  | _ => false

theorem Cr0.getLsbD_toWord (c : Cr0) {k : Nat} (hk : k < 32) : c.toWord.getLsbD k = c.place k := by
  simp only [Cr0.toWord, BitVec.getLsbD_append]
  interval_cases k <;> simp [Cr0.place]

theorem Cr0.toWord_reserved (c : Cr0) : c.toWord &&& 0x7FFFFFE0 = 0 := by
  apply BitVec.eq_of_getLsbD_eq
  intro k hk
  rw [BitVec.getLsbD_and, c.getLsbD_toWord hk]
  interval_cases k <;> simp [Cr0.place]

theorem Cr0.ofWord_toWord (c : Cr0) : Cr0.ofWord c.toWord = c := by
  have at_place {k : Nat} (hk : k < 32) := c.getLsbD_toWord hk
  simp only [Cr0.ofWord, at_place (k := 0) (by decide), at_place (k := 1) (by decide), at_place (k := 2) (by decide),
    at_place (k := 3) (by decide), at_place (k := 4) (by decide), at_place (k := 31) (by decide), Cr0.place]

/-! ## Numbers that name no register -/

theorem registerByte_eq : ∀ n r : Fin 8, BitVec.ofNat 8 (0xC0 + 8 * n.val + r.val) = fieldsByte 3 n r := by decide

/-- A number that names no register decodes to no instruction (R275). -/
theorem withRegs_unnamed {named : Fin 8 → Bool} {n : Fin 8} (h : named n = false) (r : Fin 8) (rest : List Byte)
    (k : Fin 8 → Fin 8 → List Byte → Parsed) :
    withRegs named (BitVec.ofNat 8 (0xC0 + 8 * n.val + r.val) :: rest) k = some (.invalid, rest) := by
  simp only [registerByte_eq, withRegs, withByte_cons, fieldAt_fieldsByte_mid, h, Bool.false_eq_true, if_false, bad]

theorem namesCr_false_iff : ∀ n : Fin 8, namesCr n = false ↔ n = 1 ∨ 4 ≤ n.val := by decide

theorem namesDr_false_iff : ∀ n : Fin 8, namesDr n = false ↔ n = 4 ∨ n = 5 := by decide

theorem namesTr_false_iff : ∀ n : Fin 8, namesTr n = false ↔ n.val < 6 := by decide

theorem namesCr_iff : ∀ n : Fin 8, namesCr n = true ↔ n = 0 ∨ n = 2 ∨ n = 3 := by decide

theorem namesDr_iff : ∀ n : Fin 8, namesDr n = true ↔ n = 0 ∨ n = 1 ∨ n = 2 ∨ n = 3 ∨ n = 6 ∨ n = 7 := by decide

theorem decode_movR32Cr (osz asz : Size) (bs : List Byte) : decode osz asz (0x0F :: 0x20 :: bs) =
    withRegs namesCr bs fun n r bs => done (.mov (.r32Cr r n)) bs := rfl

theorem decode_movR32Dr (osz asz : Size) (bs : List Byte) : decode osz asz (0x0F :: 0x21 :: bs) =
    withRegs namesDr bs fun n r bs => done (.mov (.r32Dr r n)) bs := rfl

theorem decode_movCrR32 (osz asz : Size) (bs : List Byte) : decode osz asz (0x0F :: 0x22 :: bs) =
    withRegs namesCr bs fun n r bs => done (.mov (.crR32 n r)) bs := rfl

theorem decode_movDrR32 (osz asz : Size) (bs : List Byte) : decode osz asz (0x0F :: 0x23 :: bs) =
    withRegs namesDr bs fun n r bs => done (.mov (.drR32 n r)) bs := rfl

theorem decode_movR32Tr (osz asz : Size) (bs : List Byte) : decode osz asz (0x0F :: 0x24 :: bs) =
    withRegs namesTr bs fun n r bs => done (.mov (.r32Tr r n)) bs := rfl

theorem decode_movTrR32 (osz asz : Size) (bs : List Byte) : decode osz asz (0x0F :: 0x26 :: bs) =
    withRegs namesTr bs fun n r bs => done (.mov (.trR32 n r)) bs := rfl

theorem requireNumber_unnamed {named : Fin 8 → Bool} {n : Fin 8} (h : named n = false) (s : State) :
    requireNumber named n s = .error (.exc { vector := 6, code := none, newTask := false }) s := by
  simp only [requireNumber, M_bind, h, require_false_run]

theorem requireNumber_run {named : Fin 8 → Bool} {n : Fin 8} {s : State} (h : named n = true) (hc : s.cpl = 0) :
    requireNumber named n s = .ok () s := by
  simp only [requireNumber, M_bind, h, require_true_run, requireCpl0, M_get, hc, beq_self_eq_true, require0_true_run]

theorem debugGuard_unnamed {n : Fin 8} (h : namesDr n = false) (s : State) :
    debugGuard n s = .error (.exc { vector := 6, code := none, newTask := false }) s :=
  M_bind_error (requireNumber_unnamed h s)

theorem movFromCr_unnamed {n : Fin 8} (h : namesCr n = false) (r : Fin 8) (s : State) :
    movFromCr r n s = .error (.exc { vector := 6, code := none, newTask := false }) s :=
  M_bind_error (requireNumber_unnamed h s)

theorem movToCr_unnamed {n : Fin 8} (h : namesCr n = false) (r : Fin 8) (s : State) :
    movToCr n r s = .error (.exc { vector := 6, code := none, newTask := false }) s :=
  M_bind_error (requireNumber_unnamed h s)

theorem movFromDr_unnamed {n : Fin 8} (h : namesDr n = false) (r : Fin 8) (s : State) :
    movFromDr r n s = .error (.exc { vector := 6, code := none, newTask := false }) s :=
  M_bind_error (debugGuard_unnamed h s)

theorem movToDr_unnamed {n : Fin 8} (h : namesDr n = false) (r : Fin 8) (s : State) :
    movToDr n r s = .error (.exc { vector := 6, code := none, newTask := false }) s :=
  M_bind_error (debugGuard_unnamed h s)

theorem movTest_unnamed {n : Fin 8} (h : namesTr n = false) (s : State) :
    movTest n s = .error (.exc { vector := 6, code := none, newTask := false }) s :=
  M_bind_error (requireNumber_unnamed h s)

/-- A move refused by the check of its number leaves nothing but exception 6. -/
theorem mov_unnamed {s : State} {f : MovForm} (hp : s.prefixesOk false)
    (hf : movForm f s.begun = .error (.exc { vector := 6, code := none, newTask := false }) s.begun) :
    exec (.mov f) s = deliver s (s.faultEvent 6 none) :=
  plain_exc (t := s.begun) hp (by decide) hf

/-! ## Moves at CPL 0 -/

/-- `s` with free status flags, as the moves to and from special registers leave them (R560, R561). -/
def State.freed (s : State) : State := s.withFlags (freeStatus s.freeBit s.flags)

/-- What a control register reads as. -/
def State.controlValue (s : State) (n : Fin 8) : Word32 :=
  match n.val with
  | 0 => s.cr0.toWord
  | 2 => s.cr2
  | _ => s.cr3

theorem movFromCr_run {s : State} {r n : Fin 8} (hn : namesCr n = true) (hc : s.cpl = 0) :
    movFromCr r n s = .ok () (s.setReg32 r (s.controlValue n)).freed := by
  refine (M_bind_ok (requireNumber_run hn hc)).trans ?_
  obtain rfl | rfl | rfl := (namesCr_iff n).1 hn <;> rfl

/-- The look-aside buffer after a change of PG or PE. -/
theorem tlbAfterSwitch_eq (s : State) : s.tlbAfterSwitch = if s.freeBit flushSlot = true then [] else s.tlb := by
  rw [State.tlbAfterSwitch]
  cases s.freeBit flushSlot <;> simp

/-- `s` after CR0 has been loaded (R560). -/
def State.loadedCr0 (s : State) (v : Word32) : State :=
  { s.keepMap ((Cr0.ofWord v).pg != s.cr0.pg) with
    cr0 := Cr0.ofWord v
    tlb := if (Cr0.ofWord v).pg == s.cr0.pg && (Cr0.ofWord v).pe == s.cr0.pe then s.tlb else s.tlbAfterSwitch }

theorem loadCr0_run {v : Word32} (h : v.getLsbD 31 = true → v.getLsbD 0 = true) (s : State) :
    loadCr0 v s = .ok () (s.loadedCr0 v) := by
  have hv : (!v.getLsbD 31 || v.getLsbD 0) = true := by
    cases h31 : v.getLsbD 31
    · rfl
    · simp [h h31]
  rw [loadCr0, hv]
  rfl

theorem loadCr0_refused {v : Word32} (hpg : v.getLsbD 31 = true) (hpe : v.getLsbD 0 = false) (s : State) :
    loadCr0 v s = .error (.exc { vector := 13, code := some 0, newTask := false }) s := by
  rw [loadCr0, hpg, hpe]
  rfl

/-- The mapping in force is kept where it changes, and the look-aside buffer emptied where the choice says so. -/
theorem loadedCr0_eq (s : State) (v : Word32) :
    s.loadedCr0 v = { s with
      cr0 := Cr0.ofWord v
      tlb := if ((Cr0.ofWord v).pg ≠ s.cr0.pg ∨ (Cr0.ofWord v).pe ≠ s.cr0.pe) ∧ s.freeBit flushSlot = true then []
        else s.tlb
      stale := if (Cr0.ofWord v).pg != s.cr0.pg then
          { s.stale with maps := { pg := s.cr0.pg, cr3 := s.cr3, tlb := s.tlb } :: s.stale.maps }
        else s.stale } := by
  have htlb : (if (Cr0.ofWord v).pg == s.cr0.pg && (Cr0.ofWord v).pe == s.cr0.pe then s.tlb else s.tlbAfterSwitch) =
      if ((Cr0.ofWord v).pg ≠ s.cr0.pg ∨ (Cr0.ofWord v).pe ≠ s.cr0.pe) ∧ s.freeBit flushSlot = true then []
      else s.tlb := by
    by_cases hpg : (Cr0.ofWord v).pg = s.cr0.pg <;> by_cases hpe : (Cr0.ofWord v).pe = s.cr0.pe <;>
      simp [hpg, hpe, tlbAfterSwitch_eq]
  rw [State.loadedCr0, htlb, State.keepMap]
  cases (Cr0.ofWord v).pg != s.cr0.pg <;> rfl

/-- CR0 is loaded after the number and the level have been checked. -/
theorem movToCr_zero {s : State} (r : Fin 8) (hc : s.cpl = 0) :
    movToCr 0 r s = (loadCr0 (s.reg32 r) >>= fun _ => freeFlags) s :=
  M_bind_ok (requireNumber_run rfl hc)

theorem movToCr_two {s : State} (r : Fin 8) (hc : s.cpl = 0) :
    movToCr 2 r s = .ok () ({ s with cr2 := s.reg32 r } : State).freed :=
  M_bind_ok (requireNumber_run rfl hc)

theorem movToCr_three {s : State} (r : Fin 8) (hc : s.cpl = 0) :
    movToCr 3 r s = .ok () ({ s with
      cr3 := s.reg32 r &&& 0xFFFFF000, tlb := []
      stale := if s.cr0.pg then
          { s.stale with maps := { pg := s.cr0.pg, cr3 := s.cr3, tlb := s.tlb } :: s.stale.maps }
        else s.stale } : State).freed := by
  have hrun : movToCr 3 r s =
      .ok () (({ s.keepMap s.cr0.pg with cr3 := s.reg32 r &&& 0xFFFFF000 } : State).tlbFlush).freed :=
    M_bind_ok (requireNumber_run rfl hc)
  rw [hrun, State.keepMap]
  cases s.cr0.pg <;> rfl

theorem debugGuard_run {s : State} {n : Fin 8} (hn : namesDr n = true) (hc : s.cpl = 0)
    (hg : s.dr7.getLsbD 13 = false) : debugGuard n s = .ok () s := by
  simp only [debugGuard, M_bind, requireNumber_run hn hc, M_get, hg, Bool.false_eq_true, if_false, M_pure]

/-- With DR7.GD a move of a debug register is exception 1, which sets DR6.BD and clears GD (R561). -/
theorem debugGuard_shut {s : State} {n : Fin 8} (hn : namesDr n = true) (hc : s.cpl = 0)
    (hg : s.dr7.getLsbD 13 = true) :
    debugGuard n s = .error (.exc { vector := 1, code := none, newTask := false })
      { s with dr6 := s.dr6 ||| 0x2000, dr7 := s.dr7 &&& 0xFFFFDFFF } := by
  simp only [debugGuard, M_bind, requireNumber_run hn hc, M_get, hg, if_true, M_modify, raise_run]

theorem movFromDr_run {s : State} (r : Fin 8) {n : Fin 8} (hn : namesDr n = true) (hc : s.cpl = 0)
    (hg : s.dr7.getLsbD 13 = false) : movFromDr r n s = .ok () (s.setReg32 r (s.debugValue n)).freed :=
  M_bind_ok (debugGuard_run hn hc hg)

/-- `s` with a debug register set (R561). -/
def State.setDebug (s : State) (n : Fin 8) (v : Word32) : State :=
  match n.val with
  | 0 => { s with dr0 := v }
  | 1 => { s with dr1 := v }
  | 2 => { s with dr2 := v }
  | 3 => { s with dr3 := v }
  | 6 => { s with dr6 := v }
  | _ => { s with dr7 := v }

theorem movToDr_run {s : State} (r : Fin 8) {n : Fin 8} (hn : namesDr n = true) (hc : s.cpl = 0)
    (hg : s.dr7.getLsbD 13 = false) (hv : n = 7 → badDebugControl (s.reg32 r) = false) :
    movToDr n r s = .ok () (s.setDebug n (s.reg32 r)).freed := by
  refine (M_bind_ok (debugGuard_run hn hc hg)).trans ?_
  obtain rfl | rfl | rfl | rfl | rfl | rfl := (namesDr_iff n).1 hn
  case inr.inr.inr.inr.inr =>
    rw [M_get_bind, hv rfl]
    rfl
  all_goals rfl

theorem movToDr_bad {s : State} (r : Fin 8) (hc : s.cpl = 0) (hg : s.dr7.getLsbD 13 = false)
    (hv : badDebugControl (s.reg32 r) = true) : movToDr 7 r s = .error (.fault .debugField) s := by
  refine (M_bind_ok (debugGuard_run rfl hc hg)).trans ?_
  rw [M_get_bind, hv]
  rfl

/-- TR6 and TR7 exist, but their meaning is not modelled (R562, U20). -/
theorem movTest_run {s : State} {n : Fin 8} (hn : namesTr n = true) (hc : s.cpl = 0) :
    movTest n s = .error (.refuse .testRegister) s :=
  M_bind_ok (requireNumber_run hn hc)

/-- A stop that is no exception ends the instruction as it is. -/
theorem plain_stop {s t : State} {body : M Unit} {e : Stop} (hp : s.prefixesOk false) (hb : body s.begun = .error e t) :
    plain body s = conclude s (.error e t) := by
  have h : (do checkPrefixes false; body; return Retire.next : M Retire) s.begun = .error e t := by
    simp only [M_bind, checkPrefixes_run hp, hb]
  exact congrArg (conclude s) h

end Sys2Proof.Machine

open Sys2Proof Sys2Proof.Machine Sys2Proof.Claims

/-- Settles O33: each move checks the number, the level and DR7.GD, and then reads or writes one register. -/
theorem specialRegisterMoves : Obligations.SpecialRegisterMoves := by
  unfold Obligations.SpecialRegisterMoves
  refine ⟨fun c => ⟨c.ofWord_toWord, c.toWord_reserved, ?bits⟩, fun osz asz r n rest => ⟨?cr, ?dr, ?tr⟩, ?moves⟩
  case bits =>
    simp only [List.forall_mem_cons, List.not_mem_nil, false_implies, implies_true, and_true]
    have at_place {k : Nat} (hk : k < 32) := c.getLsbD_toWord hk
    exact ⟨at_place (by decide), at_place (by decide), at_place (by decide), at_place (by decide), at_place (by decide),
      at_place (by decide)⟩
  case cr =>
    intro hn
    simp only [List.forall_mem_cons, List.not_mem_nil, false_implies, implies_true, and_true]
    rw [decode_movR32Cr, decode_movCrR32]
    have h := (namesCr_false_iff n).2 hn
    exact ⟨withRegs_unnamed h r rest _, withRegs_unnamed h r rest _⟩
  case dr =>
    intro hn
    simp only [List.forall_mem_cons, List.not_mem_nil, false_implies, implies_true, and_true]
    rw [decode_movR32Dr, decode_movDrR32]
    have h := (namesDr_false_iff n).2 hn
    exact ⟨withRegs_unnamed h r rest _, withRegs_unnamed h r rest _⟩
  case tr =>
    intro hn
    simp only [List.forall_mem_cons, List.not_mem_nil, false_implies, implies_true, and_true]
    rw [decode_movR32Tr, decode_movTrR32]
    have h := (namesTr_false_iff n).2 hn
    exact ⟨withRegs_unnamed h r rest _, withRegs_unnamed h r rest _⟩
  case moves =>
    intro s r hc hp
    have hcb : s.begun.cpl = 0 := hc
    refine ⟨⟨plain_next hp (movFromCr_run (n := 0) rfl hcb), plain_next hp (movFromCr_run (n := 2) rfl hcb),
        plain_next hp (movFromCr_run (n := 3) rfl hcb)⟩,
      fun h => ?cr0, fun hpg hpe => ?cr0Refused, plain_next hp (movToCr_two r hcb), plain_next hp (movToCr_three r hcb),
      fun hg => ?unguarded, fun hg n h4 h5 => ?guarded, fun i hi => ?unnamed, fun n hn => ?test⟩
    case cr0 =>
      have hrun := (movToCr_zero r hcb).trans (M_bind_ok (loadCr0_run h s.begun))
      rw [loadedCr0_eq] at hrun
      exact plain_next hp hrun
    case cr0Refused =>
      exact plain_exc (t := s.begun) hp (by decide)
        ((movToCr_zero r hcb).trans (M_bind_error (loadCr0_refused hpg hpe s.begun)))
    case unguarded =>
      have from_dr {n : Fin 8} (hn : namesDr n = true) := plain_next hp (movFromDr_run r hn hcb hg)
      have to_dr {n : Fin 8} (hn : namesDr n = true) (h7 : n ≠ 7) :=
        plain_next hp (movToDr_run r hn hcb hg fun h => absurd h h7)
      exact ⟨from_dr (n := 0) rfl, from_dr (n := 1) rfl, from_dr (n := 2) rfl, from_dr (n := 3) rfl, from_dr (n := 6) rfl,
        from_dr (n := 7) rfl, to_dr (n := 0) rfl (by decide), to_dr (n := 1) rfl (by decide),
        to_dr (n := 2) rfl (by decide), to_dr (n := 3) rfl (by decide), to_dr (n := 6) rfl (by decide),
        fun hv => plain_next hp (movToDr_run (n := 7) r rfl hcb hg fun _ => hv),
        fun hv => plain_stop hp (movToDr_bad r hcb hg hv)⟩
    case guarded =>
      have hn : namesDr n = true := by simp [namesDr, h4, h5]
      have hguard := debugGuard_shut hn hcb hg
      exact ⟨plain_exc hp (by decide) (M_bind_error hguard), plain_exc hp (by decide) (M_bind_error hguard)⟩
    case unnamed =>
      unfold unnamed at hi
      split at hi
      · exact mov_unnamed hp (movFromCr_unnamed ((namesCr_false_iff _).2 (by simpa using hi)) _ _)
      · exact mov_unnamed hp (movToCr_unnamed ((namesCr_false_iff _).2 (by simpa using hi)) _ _)
      · exact mov_unnamed hp (movFromDr_unnamed ((namesDr_false_iff _).2 (by simpa using hi)) _ _)
      · exact mov_unnamed hp (movToDr_unnamed ((namesDr_false_iff _).2 (by simpa using hi)) _ _)
      · exact mov_unnamed hp (movTest_unnamed ((namesTr_false_iff _).2 (by simpa using hi)) _)
      · exact mov_unnamed hp (movTest_unnamed ((namesTr_false_iff _).2 (by simpa using hi)) _)
      · exact absurd hi Bool.false_ne_true
    case test =>
      have hrun := movTest_run (n := n) (by simpa [namesTr] using hn) hcb
      exact ⟨plain_stop hp hrun, plain_stop hp hrun⟩
end

section
/-!
PROOF. What comes before the next instruction: the pins, the events in the order of R643, and the instruction breakpoints. It
settles O10.
-/
namespace Sys2Proof.Machine

open Sys2Proof.Claims

/-! ## Debug conditions bit by bit -/

theorem getLsbD_conditions (p : Fin 4 → Bool) (n : Fin 4) : (conditions p).getLsbD n = p n := by
  simp only [conditions, BitVec.getLsbD_append]
  fin_cases n <;> simp

theorem getLsbD_trapBits (t : DebugTrap) (k : Fin 32) : t.bits.getLsbD k =
    if k.val < 4 then t.hits.getLsbD k else if k = 14 then t.step else decide (k = 15) && t.task := by
  simp only [DebugTrap.bits, BitVec.truncate_eq_setWidth, BitVec.getLsbD_setWidth, BitVec.getLsbD_append]
  fin_cases k <;> simp

theorem ne_zero_iff_exists_getLsbD {w : Nat} (v : BitVec w) : v ≠ 0 ↔ ∃ n : Fin w, v.getLsbD n = true := by
  constructor
  · intro h
    by_contra hn
    refine h (BitVec.eq_of_getLsbD_eq fun i hi => ?_)
    have := not_exists.1 hn ⟨i, hi⟩
    simpa using this
  · rintro ⟨n, hn⟩ rfl
    simp at hn

theorem trapDue_iff (s : State) : s.trapDue = true ↔
    (∃ n : Fin 4, s.trap.hits.getLsbD n = true) ∨ s.trap.step = true ∨ s.trap.task = true := by
  rw [← ne_zero_iff_exists_getLsbD]
  simp [State.trapDue, or_assoc]

/-! ## Instruction breakpoints in numbers -/

theorem defaultSize_eq (s : State) : s.defaultSize = sizeIf (wideCode s = true) := by
  simp only [State.defaultSize, sizeIf, State.protectedMode, wideCode]
  rfl

theorem codeOffset_toNat (s : State) : s.codeOffset.toNat = codeStart s := by
  rw [State.codeOffset, State.wrapEip, wrapTo_toNat, defaultSize_eq, codeStart]

theorem bpKind_toNat (s : State) (n : Fin 4) : (s.bpKind n).toNat = conditionKind s n := by
  rw [State.bpKind, BitVec.extractLsb'_toNat, Nat.shiftRight_eq_div_pow, conditionKind]

theorem breakpoint_toNat (s : State) (n : Fin 4) : (s.breakpoint n).toNat = conditionAddr s n := by
  fin_cases n <;> rfl

theorem beq_eq_toNat_beq {w : Nat} (a b : BitVec w) : (a == b) = (a.toNat == b.toNat) := by
  rw [Bool.eq_iff_iff, beq_iff_eq, beq_iff_eq, BitVec.toNat_inj]

theorem fetchMet_eq (s : State) (n : Fin 4) :
    (s.bpKind n == 0 && s.breakpoint n == linear s.cs s.codeOffset) = fetchMet s n := by
  rw [beq_eq_toNat_beq, beq_eq_toNat_beq, bpKind_toNat, breakpoint_toNat, linear, BitVec.toNat_add,
    codeOffset_toNat]
  rfl

/-- The conditions on the address of the next instruction are those of `fetchMet`. -/
theorem fetchMatches_eq {s : State} {enabled : Bool} {m : BitVec 4}
    (h : ∀ n : Fin 4, m.getLsbD n = (conditionOn s n == enabled && fetchMet s n)) : s.fetchMatches enabled = m := by
  refine BitVec.eq_of_getLsbD_eq fun i hi => ?_
  have hi' := getLsbD_conditions
    (fun n => s.bpEnabled n == enabled && s.bpKind n == 0 && s.breakpoint n == linear s.cs s.codeOffset) ⟨i, hi⟩
  rw [Bool.and_assoc, fetchMet_eq] at hi'
  exact hi'.trans (h ⟨i, hi⟩).symm

/-! ## The events at a boundary -/

theorem settleQuiet_of_quiet {s : State} (h : s.trap.quiet = 0) : s.settleQuiet = s := by
  have hm : s.maySetB 0 = s := by simp [State.maySetB]
  rw [State.settleQuiet, h, hm, ← h]

theorem nmiDue_iff (s : State) : s.nmiDue = true ↔ s.nmiLatch = true ∧ s.nmiBlocked = false ∧ s.shadow ≠ .ss := by
  simp [State.nmiDue, and_assoc]

theorem nmiDue_eq_false {s : State} (h : s.nmiLatch = false ∨ s.nmiBlocked = true ∨ s.shadow = .ss) :
    s.nmiDue = false := by
  rw [← Bool.not_eq_true, nmiDue_iff]
  rintro ⟨hl, hb, hs⟩
  simp [hl, hb, hs] at h

theorem intrDue_eq_some {s : State} {v : Byte} (hf : s.flags.intf = true) (hs : s.shadow = .none)
    (hv : s.pins.intr = some v) : s.intrDue = some v := by
  simp [State.intrDue, hf, hs, hv]

theorem intrDue_eq_none {s : State} (h : s.flags.intf = false ∨ s.pins.intr = none ∨ s.shadow ≠ .none) :
    s.intrDue = none := by
  rw [State.intrDue]
  split
  next hc =>
    simp only [Bool.and_eq_true, beq_iff_eq] at hc
    simpa [hc.1, hc.2] using h
  next => rfl

section Quiet

variable {s : State} (hp : s.pending = none) (hq : s.trap.quiet = 0)
include hp hq

theorem atBoundary_shutdown (hr : s.run = .shutdown) :
    atBoundary s = if s.nmiDue then takeNmi s else .next s := by
  simp only [atBoundary, hp, settleQuiet_of_quiet hq, hr, if_true]

theorem atBoundary_trap (hr : s.run ≠ .shutdown) (ht : s.trapDue = true) (hs : s.shadow ≠ .ss) :
    atBoundary s = takeTrap s := by
  simp [atBoundary, hp, settleQuiet_of_quiet hq, hr, ht, hs]

theorem atBoundary_nmi (ht : s.run = .shutdown ∨ s.trapDue = false) (hn : s.nmiDue = true) :
    atBoundary s = takeNmi s := by
  by_cases hr : s.run = .shutdown
  · rw [atBoundary_shutdown hp hq hr, if_pos hn]
  · simp [atBoundary, hp, settleQuiet_of_quiet hq, hr, ht.resolve_left hr, hn]

theorem atBoundary_intr {v : Byte} (hr : s.run ≠ .shutdown) (ht : s.trapDue = false) (hn : s.nmiDue = false)
    (hi : s.intrDue = some v) : atBoundary s = takeIntr s v := by
  simp [atBoundary, hp, settleQuiet_of_quiet hq, hr, ht, hn, hi]

/-- With nothing to serve a halted processor stays so, and an executing one starts the next instruction. -/
theorem atBoundary_idle (hr : s.run ≠ .shutdown) (ht : s.trapDue = false ∨ s.shadow = .ss) (hn : s.nmiDue = false)
    (hi : s.intrDue = none) : atBoundary s = if s.run = .halted then .next s else startInstr s := by
  have hd : (s.trapDue && s.shadow != .ss) = false := by
    obtain ht | hs := ht
    · rw [ht, Bool.false_and]
    · simp [hs]
  simp [atBoundary, hp, settleQuiet_of_quiet hq, hr, hd, hn, hi]

end Quiet

/-! ## The start of a step -/

/-- `s` at the start of a step: the counter of the free values has advanced and the other masters have had the bus. -/
def State.onBus (s : State) : State := { ({ s with tick := s.tick + 1 } : State).turned with hlda := false }

/-- What depends neither on memory nor on the counter is as before. -/
theorem State.onBus_field {α : Type} (s : State) (f : State → α)
    (hf : ∀ m ms st h k, f { s with mem := m, masters := ms, stale := st, hlda := h, tick := k } = f s) :
    f s.onBus = f s := by
  rw [State.onBus, (State.turned_same _).eq]
  exact hf _ _ _ _ _

theorem step_reset {s : State} (h : s.pins.reset = true) :
    step s = .next ({ s with tick := s.tick + 1 } : State).applyReset := if_pos h

theorem step_hold {s : State} (hr : s.pins.reset = false) (h : s.pins.hold = true) :
    step s = .next { ({ s with tick := s.tick + 1 } : State).turned with hlda := true } := by
  simp only [step, stepOnce, hr, h, Bool.false_eq_true, if_false, if_true]

theorem step_eq_runStep {s : State} (hr : s.pins.reset = false) (hh : s.pins.hold = false) :
    step s = runStep s.onBus := by
  simp only [step, stepOnce, hr, hh, Bool.false_eq_true, if_false, State.onBus]

/-- Without a late store an instruction boundary comes first. -/
theorem runStep_boundary {s : State} (hc : s.cop.due = none ∨ s.pins.pereq = false ∨ s.run ≠ .executing)
    (hp : s.pfx.count = 0) : runStep s = atBoundary s := by
  have hstore : (s.run == .executing && s.pereq && s.cop.due.isSome) = false := by
    obtain hd | hq | hr := hc
    · simp [hd]
    · simp [State.pereq, hq]
    · simp [hr]
  rw [runStep, hstore, if_neg Bool.false_ne_true, if_pos hp]

theorem step_boundary {s : State} (hr : s.pins.reset = false) (hh : s.pins.hold = false)
    (hc : s.cop.due = none ∨ s.pins.pereq = false ∨ s.run ≠ .executing) (hp : s.pfx.count = 0) :
    step s = atBoundary s.onBus := by
  rw [step_eq_runStep hr hh]
  apply runStep_boundary
  · rwa [s.onBus_field State.cop fun _ _ _ _ _ => rfl, s.onBus_field State.pins fun _ _ _ _ _ => rfl,
      s.onBus_field State.run fun _ _ _ _ _ => rfl]
  · rwa [s.onBus_field State.pfx fun _ _ _ _ _ => rfl]

theorem takeTrap_onBus (s : State) : takeTrap s.onBus =
    deliver { s.onBus with dr6 := s.dr6 ||| s.trap.bits, trap := DebugTrap.none }
      { vector := 1, kind := .exception, ret := s.eip, code := none, rf := s.midRep } := by
  rw [← s.onBus_field State.dr6 fun _ _ _ _ _ => rfl, ← s.onBus_field State.trap fun _ _ _ _ _ => rfl,
    ← s.onBus_field State.eip fun _ _ _ _ _ => rfl, ← s.onBus_field State.midRep fun _ _ _ _ _ => rfl]
  rfl

theorem takeNmi_onBus (s : State) : takeNmi s.onBus =
    deliver { s.onBus with nmiLatch := false, nmiBlocked := true }
      { vector := 2, kind := .external, ret := s.eip, code := none, rf := s.midRep } := by
  rw [← s.onBus_field State.eip fun _ _ _ _ _ => rfl, ← s.onBus_field State.midRep fun _ _ _ _ _ => rfl]
  rfl

theorem takeIntr_onBus (s : State) (v : Byte) : takeIntr s.onBus v =
    deliver { s.onBus with pins := { s.pins with intr := none }, bus := .intAck v :: s.bus }
      { vector := v, kind := .external, ret := s.eip, code := none, rf := s.midRep } := by
  rw [← s.onBus_field State.pins fun _ _ _ _ _ => rfl, ← s.onBus_field State.bus fun _ _ _ _ _ => rfl,
    ← s.onBus_field State.eip fun _ _ _ _ _ => rfl, ← s.onBus_field State.midRep fun _ _ _ _ _ => rfl]
  rfl

/-- The start of an instruction, where `on` and `off` are the enabled and the other conditions that its address meets. -/
theorem startInstr_onBus {s : State} {on off : BitVec 4}
    (hon : ∀ n : Fin 4, on.getLsbD n = (conditionOn s n && fetchMet s n))
    (hoff : ∀ n : Fin 4, off.getLsbD n = (!conditionOn s n && fetchMet s n)) :
    startInstr s.onBus =
      let u := { s.onBus with dr6 := s.dr6 ||| (off &&& s.onBus.freeConditions).zeroExtend 32 }
      if on != 0 && !s.flags.rf && !s.midRep then
        deliver { u with dr6 := u.dr6 ||| on.zeroExtend 32 }
          { vector := 1, kind := .exception, ret := s.eip, code := none, rf := false }
      else fetchExec u := by
  have hon' : s.onBus.fetchMatches true = on :=
    (s.onBus_field (State.fetchMatches · true) fun _ _ _ _ _ => rfl).trans
      (fetchMatches_eq fun n => by rw [hon, beq_true])
  have hoff' : s.onBus.fetchMatches false = off :=
    (s.onBus_field (State.fetchMatches · false) fun _ _ _ _ _ => rfl).trans
      (fetchMatches_eq fun n => by rw [hoff, beq_false])
  rw [startInstr, hon', hoff', ← s.onBus_field State.dr6 fun _ _ _ _ _ => rfl,
    ← s.onBus_field State.flags fun _ _ _ _ _ => rfl, ← s.onBus_field State.eip fun _ _ _ _ _ => rfl,
    ← s.onBus_field State.midRep fun _ _ _ _ _ => rfl]
  rfl

end Sys2Proof.Machine

open Sys2Proof Sys2Proof.Machine Sys2Proof.Claims

/-- Settles O10: a step is the events at the boundary in their order, of a state that differs in memory alone. -/
theorem boundaryEvents : Obligations.BoundaryEvents := by
  unfold Obligations.BoundaryEvents
  refine ⟨fun s => ⟨trapDue_iff s, getLsbD_trapBits s.trap⟩, fun s => ⟨fun hr => step_reset hr, fun hr hh => step_hold hr hh,
    fun hr hh hc hp => ⟨fun ev hev => ?pending, fun hpend hq => ?quiet⟩⟩⟩
  case pending =>
    have hev' : s.onBus.pending = some ev := (s.onBus_field State.pending fun _ _ _ _ _ => rfl).trans hev
    rw [step_boundary hr hh hc hp, atBoundary, hev']
    rfl
  case quiet =>
    have hpend' : s.onBus.pending = none := (s.onBus_field State.pending fun _ _ _ _ _ => rfl).trans hpend
    have hq' : s.onBus.trap.quiet = 0 := (s.onBus_field (·.trap.quiet) fun _ _ _ _ _ => rfl).trans hq
    have hrun : s.onBus.run = s.run := s.onBus_field State.run fun _ _ _ _ _ => rfl
    have htrap : s.onBus.trapDue = s.trapDue := s.onBus_field State.trapDue fun _ _ _ _ _ => rfl
    have hshadow : s.onBus.shadow = s.shadow := s.onBus_field State.shadow fun _ _ _ _ _ => rfl
    have hnmi : s.onBus.nmiDue = s.nmiDue := s.onBus_field State.nmiDue fun _ _ _ _ _ => rfl
    have hintr : s.onBus.intrDue = s.intrDue := s.onBus_field State.intrDue fun _ _ _ _ _ => rfl
    rw [step_boundary hr hh hc hp]
    refine ⟨fun hx ht hs => ?trap, fun ht hl hb hs => ?nmi, fun v hx ht hn hf hs hv => ?intr, fun hx ht hn hi => ?halted,
      fun hx hn => ?shutdown, fun on off hx ht hn hi hon hoff => ?start⟩
    case trap =>
      exact (atBoundary_trap hpend' hq' (by rwa [hrun]) (by rwa [htrap]) (by rwa [hshadow])).trans (takeTrap_onBus s)
    case nmi =>
      have hdue := hnmi.trans ((nmiDue_iff s).2 ⟨hl, hb, hs⟩)
      exact (atBoundary_nmi hpend' hq' (by rwa [hrun, htrap]) hdue).trans (takeNmi_onBus s)
    case intr =>
      have hdue := hnmi.trans (nmiDue_eq_false (by tauto))
      exact (atBoundary_intr hpend' hq' (by rwa [hrun]) (htrap.trans ht) hdue
        (hintr.trans (intrDue_eq_some hf hs hv))).trans (takeIntr_onBus s v)
    case halted =>
      rw [atBoundary_idle hpend' hq' (by simp [hrun, hx]) (.inl (htrap.trans ht))
        (hnmi.trans (nmiDue_eq_false (by tauto))) (hintr.trans (intrDue_eq_none (by tauto))), if_pos (hrun.trans hx)]
      rfl
    case shutdown =>
      rw [atBoundary_shutdown hpend' hq' (hrun.trans hx), hnmi, nmiDue_eq_false (by tauto), if_neg Bool.false_ne_true]
      rfl
    case start =>
      have hstart : atBoundary s.onBus = startInstr s.onBus := by
        rw [atBoundary_idle hpend' hq' (by simp [hrun, hx]) (by rwa [htrap, hshadow]) (hnmi.trans (nmiDue_eq_false hn))
          (hintr.trans (intrDue_eq_none hi)), if_neg (by simp [hrun, hx])]
      have hevent := hstart.trans (startInstr_onBus hon hoff)
      refine ⟨fun h0 hrf hm => hevent.trans (if_pos ?_), fun h => hevent.trans (if_neg ?_)⟩
      · simpa [hrf, hm] using h0
      · obtain h0 | hrf | hm := h
        · simp [h0]
        · simp [hrf]
        · simp [hm]
end

section
/-!
PROOF. The canonical form of memory as an invariant of every step: a byte is stored by `memWrite` alone. It settles O5.
-/
namespace Sys2Proof.Machine

/-- The canonical form of memory as an invariant of every step (R80): stores keep it, and nothing else touches
memory. -/
def memoryInvariant : StorageInvariant where
  holds _ _ _ m := Memory.wf m = true
  store h a b := memWrite_wf _ _ b a.isLt h
  forget h _ := h
  insert h _ := h
  newBase h _ := h
  restore _ h := h
  reset h := h

end Sys2Proof.Machine

open Sys2Proof Sys2Proof.Machine

/-- Settles O5: the canonical form is an invariant of a stored byte, and every step is made of stores. -/
theorem memoryStaysCanonical : Obligations.MemoryStaysCanonical := by
  unfold Obligations.MemoryStaysCanonical
  intro s t hs hst
  have ht := step_ends (I := memoryInvariant) (c := s.cfg) (s := s) ⟨rfl, hs⟩
  rw [hst] at ht
  exact ht.2
end

section
/-!
PROOF. Stores: the bytes of a value, what each address reads as after a store, and the data breakpoints in numbers. It
settles O12.
-/
namespace Sys2Proof.Machine

open Sys2Proof.Claims

/-! ## Bytes of a value -/

theorem natOfBytes_lt (l : List Byte) : natOfBytes l < 2 ^ (8 * l.length) := by
  induction l with
  | nil => simp [natOfBytes]
  | cons b l ih =>
    have hb := b.isLt
    have hp : 2 ^ (8 * (l.length + 1)) = 256 * 2 ^ (8 * l.length) := by ring
    rw [natOfBytes, List.length_cons, hp]
    omega

/-- Byte `k` of the number that a list of bytes makes is element `k` of the list (R80). -/
theorem natOfBytes_byte {l : List Byte} {k : Nat} (hk : k < l.length) :
    natOfBytes l / 2 ^ (8 * k) % 2 ^ 8 = l[k].toNat := by
  induction l generalizing k with
  | nil => simp at hk
  | cons b l ih =>
    have hb := b.isLt
    cases k with
    | zero =>
      simp only [natOfBytes, List.getElem_cons_zero]
      omega
    | succ k =>
      have hp : 2 ^ (8 * (k + 1)) = 256 * 2 ^ (8 * k) := by ring
      have hd : (b.toNat + 256 * natOfBytes l) / 256 = natOfBytes l := by omega
      rw [natOfBytes, hp, ← Nat.div_div_eq_div_mul, hd, List.getElem_cons_succ]
      exact ih (by simpa using hk)

theorem width_bits_eq (w : Width) : w.bits = 8 * w.bytes := by cases w <;> rfl

/-- Byte `k` of the value whose bytes are `l`. -/
theorem valueOf_byte {w : Width} {l : List Byte} (hl : l.length = w.bytes) {k : Nat} (hk : k < l.length) :
    (valueOf w l).toNat / 2 ^ (8 * k) % 2 ^ 8 = l[k].toNat := by
  have hlt : natOfBytes l < 2 ^ w.bits := by
    rw [width_bits_eq, ← hl]
    exact natOfBytes_lt l
  rw [valueOf, BitVec.toNat_ofNat, Nat.mod_eq_of_lt hlt, natOfBytes_byte hk]

theorem byteAddrs_getElem {la : Word32} {n k : Nat} (hk : k < (byteAddrs la n).length) :
    (byteAddrs la n)[k] = la + BitVec.ofNat 32 k := by simp [byteAddrs]

theorem linear_toNat (g : SegReg) (off : Word32) : (linear g off).toNat = (g.base.toNat + off.toNat) % 2 ^ 32 :=
  BitVec.toNat_add _ _

/-- The address of byte `k` of an operand is the sum of base, offset and `k`, modulo 2^32 (R80, R121). -/
theorem linear_add_ofNat (g : SegReg) (off : Word32) (k : Nat) :
    linear g off + BitVec.ofNat 32 k = BitVec.ofNat 32 (g.base.toNat + off.toNat + k) := by
  apply BitVec.eq_of_toNat_eq
  simp only [BitVec.toNat_add, linear_toNat, BitVec.toNat_ofNat]
  omega

theorem operand_byte (s : State) (w : Width) (r : SReg) (off : Word32) (k : Fin w.bytes) :
    (s.operand w r off).toNat / 2 ^ (8 * k.val) % 2 ^ 8 =
      (s.physByte (BitVec.ofNat 32 ((s.seg r).base.toNat + off.toNat + k))).toNat := by
  have hl : (s.operandBytes r off w.bytes).length = w.bytes := by simp [State.operandBytes]
  rw [State.operand, valueOf_byte hl (by rw [hl]; exact k.isLt)]
  simp only [State.operandBytes, List.getElem_map, byteAddrs_getElem, linear_add_ofNat]

/-- A double word is four bytes, the lowest first (R80). -/
theorem physDword_toNat (s : State) (a : Word32) :
    (s.physDword a).toNat = (s.physByte a).toNat + 2 ^ 8 * (s.physByte (a + 1)).toNat +
      2 ^ 16 * (s.physByte (a + 2)).toNat + 2 ^ 24 * (s.physByte (a + 3)).toNat := by
  have hlt : natOfBytes ((dwordAddrs a).map s.physByte) < 2 ^ 32 := natOfBytes_lt _
  rw [State.physDword, BitVec.toNat_ofNat, Nat.mod_eq_of_lt hlt]
  simp only [dwordAddrs, List.map_cons, List.map_nil, natOfBytes]
  ring

/-! ## Memory after a store -/

/-- The addresses of an operand are different as long as it does not go round the address space. -/
theorem byteAddrs_nodup {la : Word32} {n : Nat} (hn : n ≤ 2 ^ 32) : (byteAddrs la n).Nodup := by
  refine List.Nodup.map_on (fun i hi j hj h => ?_) List.nodup_range
  have hi' := List.mem_range.1 hi
  have hj' := List.mem_range.1 hj
  have h' := congrArg BitVec.toNat ((BitVec.add_right_inj la).1 h)
  simp only [BitVec.toNat_ofNat] at h'
  omega

/-- What is stored at different addresses reads back, where memory has its canonical form. -/
theorem physByte_setPhysBytes_same {s : State} (hm : Memory.wf s.mem = true) {as : List Word32} {bs : List Byte}
    (hd : as.Nodup) (hl : as.length = bs.length) {k : Nat} (ha : k < as.length) (hb : k < bs.length) :
    (s.setPhysBytes as bs).physByte as[k] = bs[k] := by
  induction as generalizing s bs k with
  | nil => simp at ha
  | cons a as ih =>
    obtain ⟨hnot, hd'⟩ := List.nodup_cons.1 hd
    cases bs with
    | nil => simp at hb
    | cons b bs =>
      cases k with
      | zero =>
        rw [List.getElem_cons_zero, List.getElem_cons_zero, State.setPhysBytes,
          physByte_setPhysBytes_other _ _ _ _ hnot, physByte_setPhysByte hm, if_pos rfl]
      | succ k => exact ih (setPhysByte_wf hm a b) hd' (by simpa using hl) (by simpa using ha) (by simpa using hb)

theorem physByte_noteAccess (s : State) (la : Word32) (n : Nat) (write : Bool) (a : Word32) :
    (s.noteAccess la n write).physByte a = s.physByte a := rfl

theorem physByte_afterStore_same {s : State} (hm : Memory.wf s.mem = true) (r : SReg) (off : Word32) {bs : List Byte}
    (hn : bs.length ≤ 2 ^ 32) (k : Fin bs.length) :
    (s.afterStore r off bs).physByte (linear (s.seg r) off + BitVec.ofNat 32 k) = bs[k] := by
  have hk : k.val < (byteAddrs (linear (s.seg r) off) bs.length).length := by simp
  rw [State.afterStore, physByte_noteAccess, ← byteAddrs_getElem hk]
  exact physByte_setPhysBytes_same hm (byteAddrs_nodup hn) (by simp) hk k.isLt

theorem physByte_afterStore_other (s : State) (r : SReg) (off : Word32) {bs : List Byte} {a : Word32}
    (ha : ∀ k : Fin bs.length, a ≠ linear (s.seg r) off + BitVec.ofNat 32 k) :
    (s.afterStore r off bs).physByte a = s.physByte a := by
  refine physByte_setPhysBytes_other s _ bs a fun hmem => ?_
  obtain ⟨k, hk, rfl⟩ := List.mem_map.1 hmem
  exact ha ⟨k, List.mem_range.1 hk⟩ rfl

/-- What the bus cycles of an access change, and the match of the breakpoints after them. -/
theorem State.SameButMemory.noteAccess_eq {s t : State} (h : s.SameButMemory t) (la : Word32) (n : Nat) (write : Bool) :
    t.noteAccess la n write = { s with
      mem := t.mem, masters := t.masters, stale := t.stale, trap := (t.noteAccess la n write).trap } := by
  have hnoted (m : List Host.Cell) (ms : List (List MasterWrite)) (st : Stale) :
      let u : State := { s with mem := m, masters := ms, stale := st }
      u.noteAccess la n write = { s with
        mem := m, masters := ms, stale := st, trap := (u.noteAccess la n write).trap } := rfl
  have ht := hnoted t.mem t.masters t.stale
  rwa [← h.eq] at ht

/-- A store changes memory, the bytes the prefetch may hold and the pending breakpoints alone. -/
theorem afterStore_frame (s : State) (r : SReg) (off : Word32) (bs : List Byte) :
    s.afterStore r off bs = { s with
      mem := (s.afterStore r off bs).mem, stale := (s.afterStore r off bs).stale,
      trap := (s.afterStore r off bs).trap } := by
  have h := (s.setPhysBytes_same (byteAddrs (linear (s.seg r) off) bs.length) bs).noteAccess_eq
    (linear (s.seg r) off) bs.length true
  rwa [State.setPhysBytes_masters] at h

/-! ## Data breakpoints in numbers -/

theorem bpLength_eq {s : State} {n : Fin 4} (h : conditionLen s n ≠ 2) : s.bpLength n = conditionLen s n + 1 := by
  have hf : (s.dr7.extractLsb' (18 + 4 * n.val) 2).toNat = conditionLen s n := by
    rw [BitVec.extractLsb'_toNat, Nat.shiftRight_eq_div_pow, conditionLen]
  have hlt : conditionLen s n < 4 := Nat.mod_lt _ (by decide)
  rw [State.bpLength, hf]
  interval_cases conditionLen s n <;> simp at h ⊢

/-- Clearing the low bits of an address gives the start of its aligned block. -/
theorem toNat_and_not_mask (p : Word32) (j : Nat) :
    (p &&& ~~~(BitVec.ofNat 32 (2 ^ j - 1))).toNat = p.toNat / 2 ^ j * 2 ^ j := by
  have hshift : p &&& ~~~(BitVec.ofNat 32 (2 ^ j - 1)) = (p >>> j) <<< j := by
    apply BitVec.eq_of_getLsbD_eq
    intro i hi
    rw [BitVec.getLsbD_and, BitVec.getLsbD_not, BitVec.getLsbD_ofNat, Nat.testBit_two_pow_sub_one,
      BitVec.getLsbD_shiftLeft, BitVec.getLsbD_ushiftRight]
    by_cases h : i < j
    · simp [h]
    · simp [h, hi, Nat.add_sub_cancel' (Nat.le_of_not_lt h)]
  have hle : p.toNat / 2 ^ j * 2 ^ j < 2 ^ 32 := (Nat.div_mul_le_self _ _).trans_lt p.isLt
  rw [hshift, BitVec.toNat_shiftLeft, BitVec.toNat_ushiftRight, Nat.shiftRight_eq_div_pow, Nat.shiftLeft_eq,
    Nat.mod_eq_of_lt hle]

/-- A byte lies at most `2 ^ j - 1` above the start of the aligned block of `p` exactly where it lies in this block. -/
theorem sub_blockStart_lt (a p : Word32) {j : Nat} (hj : j ≤ 2) :
    (a - (p &&& ~~~(BitVec.ofNat 32 (2 ^ j - 1)))).toNat < 2 ^ j ↔ a.toNat / 2 ^ j = p.toNat / 2 ^ j := by
  have ha := a.isLt
  have hp := p.isLt
  rw [BitVec.toNat_sub, toNat_and_not_mask]
  interval_cases j <;> omega

theorem bpMatches_eq {s : State} {c : Fin 4} (h : conditionLen s c ≠ 2) (la : Word32) (n : Nat) (write : Bool) :
    s.bpMatches c la n write = dataMet s c la n write := by
  obtain ⟨j, hj, hlen⟩ : ∃ j ≤ 2, conditionLen s c + 1 = 2 ^ j := by
    have hlt : conditionLen s c < 4 := Nat.mod_lt _ (by decide)
    interval_cases conditionLen s c
    exacts [⟨0, by decide⟩, ⟨1, by decide⟩, absurd rfl h, ⟨2, by decide⟩]
  have hbyte (k : Nat) :
      decide ((la + BitVec.ofNat 32 k - (s.breakpoint c &&& ~~~(BitVec.ofNat 32 (2 ^ j - 1)))).toNat < 2 ^ j) =
        ((la + BitVec.ofNat 32 k).toNat / 2 ^ j == conditionAddr s c / 2 ^ j) := by
    rw [Bool.eq_iff_iff, decide_eq_true_iff, beq_iff_eq, ← breakpoint_toNat]
    exact sub_blockStart_lt _ _ hj
  simp only [State.bpMatches, dataMet, bpLength_eq h, hlen, hbyte, beq_eq_toNat_beq, bpKind_toNat]
  rfl

/-! ## The breakpoints that an access makes pending -/

theorem noteAccess_hits {s : State} {c : Fin 4} (h : conditionLen s c ≠ 2) (la : Word32) (n : Nat) (write : Bool) :
    (s.noteAccess la n write).trap.hits.getLsbD c =
      (s.trap.hits.getLsbD c || (conditionOn s c && dataMet s c la n write)) := by
  rw [← bpMatches_eq h]
  simp only [State.noteAccess, BitVec.getLsbD_or, getLsbD_conditions]
  rfl

theorem noteAccess_quiet {s : State} {c : Fin 4} (h : conditionLen s c ≠ 2) (la : Word32) (n : Nat) (write : Bool) :
    (s.noteAccess la n write).trap.quiet.getLsbD c =
      (s.trap.quiet.getLsbD c || (!conditionOn s c && dataMet s c la n write)) := by
  rw [← bpMatches_eq h]
  simp only [State.noteAccess, BitVec.getLsbD_or, getLsbD_conditions]
  rfl

/-- What an access makes pending does not depend on memory. -/
theorem State.SameButMemory.noteAccess_trap {s t : State} (h : s.SameButMemory t) (la : Word32) (n : Nat)
    (write : Bool) : (t.noteAccess la n write).trap = (s.noteAccess la n write).trap :=
  h.field (fun u => (u.noteAccess la n write).trap) fun _ _ _ => rfl

theorem afterStore_trap (s : State) (r : SReg) (off : Word32) (bs : List Byte) :
    (s.afterStore r off bs).trap = (s.noteAccess (linear (s.seg r) off) bs.length true).trap :=
  (s.setPhysBytes_same _ bs).noteAccess_trap _ _ _

end Sys2Proof.Machine

open Sys2Proof Sys2Proof.Machine Sys2Proof.Claims

/-- Settles O12: a store is a list of stored bytes at different addresses, followed by the match of the breakpoints. -/
theorem storeFrame : Obligations.StoreFrame := by
  unfold Obligations.StoreFrame
  refine ⟨linear_toNat, fun s w r off v k => ⟨operand_byte s w r off k, bytesOf_length w v,
    getElem?_bytesOfNat v.toNat k.isLt⟩, fun s r off bs hn => ?_⟩
  refine ⟨fun hm => physByte_afterStore_same hm r off (hn.trans (by decide)),
    fun a => physByte_afterStore_other s r off, afterStore_frame s r off bs, setPhysBytes_maps s _ bs, fun n => rfl,
    fun u n write hu => ?_, physDword_toNat s⟩
  have htrap : u.trap = (s.noteAccess (linear (s.seg r) off) n write).trap := by
    obtain ⟨rfl, rfl, rfl⟩ | ⟨rfl, rfl⟩ := hu
    · exact afterStore_trap s r off bs
    · rfl
  rw [htrap]
  exact ⟨rfl, fun c hc => ⟨noteAccess_hits hc _ n write, noteAccess_quiet hc _ n write⟩⟩
end

section
/-!
PROOF. Page translation where no other master uses the bus: the walk, the hits and the faults, and the accesses through it.
It settles O14.
-/
namespace Sys2Proof.Machine

open Sys2Proof.Claims

/-! ## Rights and faults -/

theorem pageFaultCode_eq :
    ∀ present write user : Bool, pageFaultCode present write user = faultCode present write user := by
  decide

theorem pageFault_run (la : Word32) (present write user : Bool) (s : State) :
    (pageFault la present write user : M Word32) s = pageFaulted s la present write user := by
  rw [pageFaulted, ← pageFaultCode_eq]
  rfl

/-- A page fault ends the walk. -/
theorem pageFault_bind {α : Type} (f : α → M Word32) (la : Word32) (present write user : Bool) (s : State) :
    (pageFault la present write user >>= f) s = pageFaulted s la present write user := by
  rw [pageFaulted, ← pageFaultCode_eq]
  rfl

/-! ## The walk -/

theorem markEntry_alone {s : State} (hm : s.masters = []) (a bits : Word32) :
    s.markEntry a bits = s.setPhysDword a (s.physDword a ||| bits) := by
  rw [State.markEntry, State.turned_alone hm]

/-- `s` with the bits `bits` of the entry at `a` set where `b` holds (R166). -/
def State.markIf (s : State) (b : Bool) (a bits : Word32) : State :=
  if b then s.setPhysDword a (s.physDword a ||| bits) else s

theorem markIf_run {α : Type} {s : State} (hm : s.masters = []) (b : Bool) (a bits : Word32) (f : Unit → M α) :
    (if b then (modify fun t : State => t.markEntry a bits) >>= f else f () : M α) s = f () (s.markIf b a bits) := by
  cases b
  · rfl
  · simp only [if_true, M_modify_bind, markEntry_alone hm, State.markIf]

theorem markIf_masters (s : State) (b : Bool) (a bits : Word32) : (s.markIf b a bits).masters = s.masters := by
  cases b
  · rfl
  · exact State.setPhysBytes_masters _ _ _

theorem markIf_cfg (s : State) (b : Bool) (a bits : Word32) : (s.markIf b a bits).cfg = s.cfg := by
  cases b
  · rfl
  · exact State.setPhysBytes_cfg _ _ _

theorem markIf_tlb (s : State) (b : Bool) (a bits : Word32) : (s.markIf b a bits).tlb = s.tlb := by
  cases b
  · rfl
  · exact State.setPhysBytes_tlb _ _ _

/-- The bits that a walk sets in the table entry: accessed, and for a write dirty (R166). -/
def walkMarks (write : Bool) : Word32 := if write then 0x60 else 0x20

/-- The entry of the look-aside buffer that a walk loads (R163). -/
def walkEntry (s : State) (la : Word32) (write : Bool) : TlbEntry :=
  { page := la.extractLsb' 12 20, frame := (s.physDword (pteAddr s la)).extractLsb' 12 20, user := (pageRights s la).1,
    writable := (pageRights s la).2, dirty := (s.physDword (pteAddr s la) ||| walkMarks write).getLsbD 6 }

/-- A walk marks the directory entry, then the table entry, and loads an entry of the look-aside buffer. -/
theorem walked_eq (s : State) (la : Word32) (write : Bool) : walked s la write =
    ((s.markIf (!(s.physDword (pdeAddr s la)).getLsbD 5) (pdeAddr s la) 0x20).markIf
      (s.physDword (pteAddr s la) ||| walkMarks write != s.physDword (pteAddr s la)) (pteAddr s la)
      (walkMarks write)).tlbInsert (walkEntry s la write) := by
  have hpde (b : Bool) (t : State) (a bits : Word32) :
      (if b then t else t.setPhysDword a (t.physDword a ||| bits)) = t.markIf (!b) a bits := by cases b <;> rfl
  have hpte (v : Word32) (t : State) (a bits : Word32) :
      (if v ||| bits = v then t else t.setPhysDword a (t.physDword a ||| bits)) =
        t.markIf (v ||| bits != v) a bits := by
    by_cases h : v ||| bits = v <;> simp [State.markIf, h]
  have hload {t : State} (htlb : t.tlb = s.tlb) (hcfg : t.cfg = s.cfg) (e : TlbEntry) :
      { t with tlb := (e :: s.tlb.filter fun x => x.page != e.page).take s.cfg.tlbEntries } = t.tlbInsert e := by
    rw [← htlb, ← hcfg]
    rfl
  rw [← hload (by rw [markIf_tlb, markIf_tlb]) (by rw [markIf_cfg, markIf_cfg]), ← hpte, ← hpde]
  rfl

/-- A cycle of the walk: no other master uses the turn before it. -/
theorem turned_get_run {α : Type} {s : State} (hm : s.masters = []) {f : State → M α}
    {r : EStateM.Result Stop State α} (h : f s s = r) : (do modify State.turned; let t ← get; f t : M α) s = r := by
  rw [M_modify_bind, State.turned_alone hm, M_get_bind, h]

/-- A check of the walk (R167, R168), and the rest of it. -/
theorem pageFaultIf_run {b : Bool} {la : Word32} {present write user : Bool} {f : Unit → M Word32} {s : State}
    {r : EStateM.Result Stop State Word32} (h : f () s = r) :
    (if b then pageFault la present write user >>= f else f () : M Word32) s =
      if b then pageFaulted s la present write user else r := by
  cases b
  · exact h
  · exact pageFault_bind _ _ _ _ _ _

/-- The walk through page directory and page table where no other master uses the bus (R160, R166 to R168). -/
theorem walkPages_alone {s : State} (hm : s.masters = []) (la : Word32) (write user : Bool) :
    walkPages la write user s =
      if (s.physDword (pdeAddr s la)).getLsbD 0 = false ∨ (s.physDword (pteAddr s la)).getLsbD 0 = false then
        pageFaulted s la false write user
      else if pagePermits s la write user = false then pageFaulted s la true write user
      else .ok ((s.physDword (pteAddr s la)).extractLsb' 12 20 ++ la.extractLsb' 0 12) (walked s la write) := by
  have hwalk : walkPages la write user s =
      if !(s.physDword (pdeAddr s la)).getLsbD 0 then pageFaulted s la false write user
      else if !(s.physDword (pteAddr s la)).getLsbD 0 then pageFaulted s la false write user
      else if !pagePermits s la write user then pageFaulted s la true write user
      else .ok ((s.physDword (pteAddr s la)).extractLsb' 12 20 ++ la.extractLsb' 0 12) (walked s la write) := by
    rw [walked_eq]
    unfold walkPages
    refine turned_get_run hm (pageFaultIf_run ?_)
    refine turned_get_run hm (pageFaultIf_run (pageFaultIf_run ?_))
    refine (markIf_run hm _ _ _ _).trans ?_
    exact markIf_run ((markIf_masters _ _ _ _).trans hm) _ _ _ _
  simp only [hwalk, Bool.not_eq_true', ite_or]

theorem walked_masters (s : State) (la : Word32) (write : Bool) : (walked s la write).masters = s.masters := by
  rw [walked_eq]
  exact (markIf_masters _ _ _ _).trans (markIf_masters _ _ _ _)

/-! ## The look-aside buffer -/

theorem tlbForget_eq (s : State) (page : BitVec 20) : s.tlbForget page = tlbLost s page := rfl

theorem tlbLost_masters (s : State) (page : BitVec 20) : (tlbLost s page).masters = s.masters := by
  unfold tlbLost
  split <;> rfl

theorem tlbLookup_tlbLost (s : State) (page : BitVec 20) : (tlbLost s page).tlbLookup page =
    if Config.tlbForgets s.tick page.toNat = true then none else s.tlb.find? fun x => x.page == page := by
  unfold tlbLost State.tlbLookup
  split
  · simp
  · rfl

/-- A walk does not look at the look-aside buffer. -/
theorem walkPages_tlbLost {s : State} (hm : s.masters = []) (page : BitVec 20) (la : Word32) (write user : Bool) :
    walkPages la write user (tlbLost s page) =
      if (s.physDword (pdeAddr s la)).getLsbD 0 = false ∨ (s.physDword (pteAddr s la)).getLsbD 0 = false then
        pageFaulted (tlbLost s page) la false write user
      else if pagePermits s la write user = false then pageFaulted (tlbLost s page) la true write user
      else .ok ((s.physDword (pteAddr s la)).extractLsb' 12 20 ++ la.extractLsb' 0 12)
        (walked (tlbLost s page) la write) := by
  rw [walkPages_alone ((tlbLost_masters s page).trans hm)]
  unfold tlbLost
  split <;> rfl

section Paged

variable {s : State} {la : Word32} {write : Bool} (hp : s.cr0.pg = true)
include hp

/-- An entry that the buffer still holds serves, but for the first write to its page (R163, R164). -/
theorem translate_hit (user : Bool) {e : TlbEntry} (h : (tlbLost s (pageOf la)).tlbLookup (pageOf la) = some e)
    (hd : write = true → e.dirty = true) :
    translate la write user s =
      if entryPermits e write user = true then .ok (e.frame ++ la.extractLsb' 0 12) (tlbLost s (pageOf la))
      else pageFaulted (tlbLost s (pageOf la)) la true write user := by
  have hclean : (write && !e.dirty) = false := by
    cases write
    · rfl
    · simp [hd rfl]
  simp only [translate, M_get_bind, M_modify_bind, hp, tlbForget_eq, h, hclean, Bool.not_true, Bool.false_eq_true,
    if_false]
  by_cases hallowed : entryPermits e write user = true
  · rw [if_pos hallowed]
    exact congrFun (if_pos hallowed) _
  · rw [if_neg hallowed, ← pageFault_run]
    exact congrFun (if_neg hallowed) _

/-- Without such an entry the walk serves (R160, R163). -/
theorem translate_miss (user : Bool)
    (h : ∀ e, (tlbLost s (pageOf la)).tlbLookup (pageOf la) = some e → write = true ∧ e.dirty = false) :
    translate la write user s = walkPages la write user (tlbLost s (pageOf la)) := by
  simp only [translate, M_get_bind, M_modify_bind, hp, tlbForget_eq, Bool.not_true, Bool.false_eq_true, if_false]
  cases he : (tlbLost s (pageOf la)).tlbLookup (pageOf la) with
  | none => rfl
  | some e =>
    obtain ⟨rfl, hd⟩ := h e he
    simp only [hd]
    rfl

end Paged

/-- A translation leaves the other masters alone. -/
theorem translate_masters {s t : State} {la p : Word32} {write user : Bool} (hm : s.masters = [])
    (h : translate la write user s = .ok p t) : t.masters = [] := by
  have hlost := (tlbLost_masters s (pageOf la)).trans hm
  by_cases hp : s.cr0.pg = true
  case neg =>
    rw [translate_flat (by simpa using hp)] at h
    cases h
    exact hm
  by_cases hhit : ∃ e, (tlbLost s (pageOf la)).tlbLookup (pageOf la) = some e ∧ (write = true → e.dirty = true)
  · obtain ⟨e, he, hd⟩ := hhit
    rw [translate_hit hp user he hd] at h
    split at h
    · cases h
      exact hlost
    · cases h
  · have hmiss : ∀ e, (tlbLost s (pageOf la)).tlbLookup (pageOf la) = some e → write = true ∧ e.dirty = false :=
      fun e he => by simpa using fun hd => hhit ⟨e, he, hd⟩
    rw [translate_miss hp user hmiss, walkPages_alone hlost] at h
    split at h
    · cases h
    · split at h
      · cases h
      · cases h
        exact (walked_masters _ _ _).trans hlost

/-! ## Operands -/

theorem userLevel_eq (s : State) : s.userLevel = operandUser s := beq_eq_toNat_beq s.cpl 3

/-- The addresses of an operand that crosses a page boundary. -/
theorem byteAddrs_pages (p q : Word32) {first n : Nat} (h : first ≤ n) :
    ((List.range n).map fun k => if k < first then p + BitVec.ofNat 32 k else q + BitVec.ofNat 32 (k - first)) =
      byteAddrs p first ++ byteAddrs q (n - first) := by
  obtain ⟨m, rfl⟩ := Nat.exists_eq_add_of_le h
  rw [List.range_add, List.map_append, List.map_map, Nat.add_sub_cancel_left]
  refine congrArg₂ _ (List.map_congr_left fun k hk => if_pos (List.mem_range.1 hk))
    (List.map_congr_left fun k _ => ?_)
  simp

/-- What comes after the translations of an operand, where no other master uses the bus. -/
theorem translateRange_bind {α : Type} {s : State} (hm : s.masters = []) {la : Word32} {n : Nat} {write : Bool}
    {f : List Word32 → M α} {done : State → List Word32 → EStateM.Result Stop State α}
    (hf : ∀ (t : State) (as : List Word32), t.masters = [] → as.length = n → f as t = done t as) :
    (translateRange la n write s.userLevel >>= f) s = afterTranslation s la n write done := by
  rw [userLevel_eq]
  simp only [M_bind, translateRange, afterTranslation]
  cases hfirst : translate la write (operandUser s) s with
  | error e t => rfl
  | ok p t =>
    have ht := translate_masters hm hfirst
    dsimp only
    by_cases hn : n ≤ 4096 - la.toNat % 4096
    · rw [if_pos hn, if_pos hn]
      exact hf _ _ ht (by simp)
    · rw [if_neg hn, if_neg hn]
      simp only [M_bind]
      cases hnext : translate (la + BitVec.ofNat 32 (4096 - la.toNat % 4096)) write (operandUser s) t with
      | error e u => rfl
      | ok q u =>
        simp only [M_pure, byteAddrs_pages p q (Nat.le_of_not_le hn)]
        exact hf _ _ (translate_masters ht hnext) (by simp; omega)

theorem accessAddrs_run {s : State} {r : SReg} {off : Word32} {n : Nat} {write : Bool}
    (h : s.segAllows r off n write = true) :
    accessAddrs r off n write s = translateRange (linear (s.seg r) off) n write s.userLevel s :=
  M_bind_ok (segCheck_run h)

theorem lreadBytes_paged {s : State} (hm : s.masters = []) {r : SReg} {off : Word32} {n : Nat}
    (h : s.segAllows r off n false = true) :
    lreadBytes r off n s = afterTranslation s (linear (s.seg r) off) n false fun t as =>
      .ok (as.map t.physByte) (t.noteAccess (linear (s.seg r) off) n false) := by
  rw [lreadBytes, M_get_bind, M_bind, accessAddrs_run h, ← M_bind]
  refine translateRange_bind hm fun t as ht hl => ?_
  rw [readChecked_flat ht, hl]

theorem lwriteBytes_paged {s : State} (hm : s.masters = []) {r : SReg} {off : Word32} {bs : List Byte}
    (h : s.segAllows r off bs.length true = true) :
    lwriteBytes r off bs s = afterTranslation s (linear (s.seg r) off) bs.length true fun t as =>
      .ok () ((t.setPhysBytes as bs).noteAccess (linear (s.seg r) off) bs.length true) := by
  rw [lwriteBytes, M_get_bind, M_bind, accessAddrs_run h, ← M_bind]
  exact translateRange_bind hm fun t as ht _ => writeChecked_flat ht _ _ _ _

end Sys2Proof.Machine

open Sys2Proof Sys2Proof.Machine Sys2Proof.Claims

/-- Settles O14: a translation is a hit of the look-aside buffer or a walk, and an access is its translations and then
the move of its bytes. -/
theorem pageTranslation : Obligations.PageTranslation := by
  unfold Obligations.PageTranslation
  refine ⟨fun s la write user hp => translate_flat hp la write user, fun s r off hm => ⟨userLevel_eq s,
    fun n _ h => lreadBytes_paged hm h, fun bs _ h => lwriteBytes_paged hm h⟩, fun s la write user hp hm => ?_⟩
  have hwalk := walkPages_tlbLost hm (pageOf la) la write user
  have hlookup := tlbLookup_tlbLost s (pageOf la)
  refine ⟨fun e he hd => ?hit, fun hmiss => ?miss⟩
  case hit =>
    by_cases hforget : Config.tlbForgets s.tick (pageOf la).toNat = true
    · rw [if_pos hforget] at hlookup
      refine Eq.trans ?_ (if_pos hforget).symm
      exact (translate_miss hp user (by simp [hlookup])).trans hwalk
    · rw [if_neg hforget] at hlookup
      have hkept : tlbLost s (pageOf la) = s := if_neg hforget
      have hrun := translate_hit hp user (hlookup.trans he) hd
      rw [hkept] at hrun
      exact hrun.trans (if_neg hforget).symm
  case miss =>
    refine (translate_miss hp user fun e he => hmiss e ?_).trans hwalk
    rw [hlookup] at he
    split at he
    · cases he
    · exact he
end

section
/-!
PROOF. Legality: LOCK outside its list, the instructions of protected mode, the privileged ones and those sensitive to IOPL.
It settles O60.
-/
namespace Sys2Proof.Machine

open Sys2Proof.Claims

/-! ## Modes and levels in numbers -/

theorem realMode_iff (s : State) : s.realMode = true ↔ ¬s.cr0.pe = true := by simp [State.realMode]

theorem v86_iff (s : State) : s.v86 = true ↔ s.cr0.pe = true ∧ s.flags.vm = true := by simp [State.v86]

theorem protectedMode_iff (s : State) : s.protectedMode = true ↔ s.cr0.pe = true ∧ ¬s.flags.vm = true := by
  simp [State.protectedMode]

theorem iopl_beq_three (s : State) : (s.flags.iopl == 3) = decide (s.flags.iopl.toNat = 3) :=
  beq_eq_toNat_beq s.flags.iopl 3

theorem ifAllowed_iff (s : State) : s.ifAllowed = true ↔
    ¬s.cr0.pe = true ∨ (s.flags.vm = true ∧ s.flags.iopl.toNat = 3) ∨
      (¬s.flags.vm = true ∧ s.cpl.toNat ≤ s.flags.iopl.toNat) := by
  rw [State.ifAllowed, iopl_beq_three]
  cases hpe : s.cr0.pe <;> cases hvm : s.flags.vm <;> simp [State.realMode, State.v86, lvlLe, hpe, hvm]

theorem v86Allowed_iff (s : State) :
    s.v86Allowed = true ↔ (s.cr0.pe = true ∧ s.flags.vm = true → s.flags.iopl.toNat = 3) := by
  rw [State.v86Allowed, iopl_beq_three]
  cases hpe : s.cr0.pe <;> cases hvm : s.flags.vm <;> simp [State.v86, hpe, hvm]

/-! ## LOCK -/

/-- An exception raised before anything is changed leaves the state for its delivery as it was. -/
theorem runSteps_refused {s : State} {body : M Retire} {v : Byte} {c : Option Word32} (hv : v ≠ 8)
    (hb : body s.begun = .error (.exc { vector := v, code := c, newTask := false }) s.begun) :
    runSteps body s = deliver s (s.faultEvent v c) :=
  (congrArg (conclude s) hb).trans (conclude_exc (t := s.begun) hv)

theorem checkPrefixes_locked {s : State} (h : s.pfx.lock = true) :
    checkPrefixes false s = .error (.exc { vector := 6, code := none, newTask := false }) s := by
  rw [checkPrefixes, M_get_bind, h]
  exact M_bind_error (require_false_run 6 s)

section Locked

variable {s : State} (h : s.pfx.lock = true)
include h

/-- The instructions that check their prefixes first. -/
theorem runSteps_locked (f : Unit → M Retire) :
    runSteps (checkPrefixes false >>= f) s = deliver s (s.faultEvent 6 none) :=
  runSteps_refused (by decide) (M_bind_error (checkPrefixes_locked (s := s.begun) h))

theorem bitString_locked (body : M Unit) : bitString body s = deliver s (s.faultEvent 6 none) := by
  refine runSteps_refused (by decide) ?_
  rw [M_get_bind]
  cases hc : s.begun.cfg.hasIbtsXbts
  · exact M_bind_error (require_false_run 6 _)
  · exact (M_bind_ok (require_true_run 6 _)).trans (M_bind_error (checkPrefixes_locked (s := s.begun) h))

theorem stringSteps_locked (compares : Bool) (permit element : M Unit) :
    runSteps (stringSteps compares permit element) s = deliver s (s.faultEvent 6 none) := by
  refine runSteps_refused (by decide) ?_
  have hl : (!s.begun.pfx.lock) = false := by rw [show s.begun.pfx.lock = true from h]; rfl
  rw [stringSteps, M_get_bind, hl]
  exact M_bind_error (require_false_run 6 _)

/-- LOCK before anything but its list is exception 6 (R101). -/
theorem exec_locked {i : Instr} (hl : lockable i = false) (hi : prefixRecords i = none) :
    exec i s = deliver s (s.faultEvent 6 none) := by
  cases i
  case add | or | adc | sbb | and | sub | xor | inc | dec | neg | not | bts | btr | btc | xchg =>
    exact withLock_lock h hl
  case movsb | movswD | cmpsb | cmpswD | scasb | scaswD | lodsb | lodswD | stosb | stoswD | insb | inswD | outsb
      | outswD =>
    exact stringSteps_locked h _ _ _
  case xbts | ibts => exact bitString_locked h _
  case escReserved f => cases f <;> exact runSteps_locked h _
  case prefixEs | prefixCs | prefixSs | prefixDs | prefixFs | prefixGs | prefixOpsize | prefixAdsize | prefixLock
      | prefixRepne | prefixRep =>
    cases hi
  all_goals exact runSteps_locked h _

end Locked

/-! ## The mode and the level -/

/-- An instruction that a check refuses before anything is changed. -/
theorem plain_refused {s : State} {body : M Unit} {v : Byte} {c : Option Word32} (hp : s.prefixesOk false)
    (hv : v ≠ 8) (hb : body s.begun = .error (.exc { vector := v, code := c, newTask := false }) s.begun) :
    plain body s = deliver s (s.faultEvent v c) := plain_exc (t := s.begun) hp hv hb

theorem requireProtected_refused {s : State} (h : s.protectedMode = false) :
    requireProtected s = .error (.exc { vector := 6, code := none, newTask := false }) s := by
  rw [requireProtected, M_get_bind, h, require_false_run]

theorem requireProtected_run {s : State} (h : s.protectedMode = true) : requireProtected s = .ok () s := by
  rw [requireProtected, M_get_bind, h, require_true_run]

theorem requireCpl0_refused {s : State} (h : s.cpl ≠ 0) :
    requireCpl0 s = .error (.exc { vector := 13, code := some 0, newTask := false }) s := by
  rw [requireCpl0, M_get_bind, beq_false_of_ne h, require0_false_run]

theorem requireNumber_refused {s : State} {named : Fin 8 → Bool} {n : Fin 8} (hn : named n = true) (h : s.cpl ≠ 0) :
    requireNumber named n s = .error (.exc { vector := 13, code := some 0, newTask := false }) s := by
  rw [requireNumber, hn]
  exact (M_bind_ok (require_true_run 6 s)).trans (requireCpl0_refused h)

theorem exec_unprotected {s : State} {i : Instr} (hp : s.prefixesOk false) (hi : protectedOnly i = true)
    (h : s.protectedMode = false) : exec i s = deliver s (s.faultEvent 6 none) := by
  have hreq : requireProtected s.begun = _ := requireProtected_refused (s := s.begun) h
  unfold protectedOnly at hi
  split at hi
  case h_7 => exact plain_refused hp (by decide) ((M_get_bind _ _).trans (M_bind_error hreq))
  case h_10 => cases hi
  all_goals exact plain_refused hp (by decide) (M_bind_error hreq)

theorem namesCr_eq {b : Bool} {n : Fin 8} (h : (n == 1 || decide (4 ≤ n.val)) = b) : namesCr n = !b := by
  decide +revert

theorem namesDr_eq {b : Bool} {n : Fin 8} (h : (n == 4 || n == 5) = b) : namesDr n = !b := by decide +revert

theorem namesTr_eq {b : Bool} {n : Fin 8} (h : decide (n.val < 6) = b) : namesTr n = !b := by decide +revert

/-- A register number that does not exist is refused at every level (R275, R643). -/
theorem exec_unnamed {s : State} {i : Instr} (hp : s.prefixesOk false) (hi : unnamed i = true) :
    exec i s = deliver s (s.faultEvent 6 none) := by
  unfold unnamed at hi
  split at hi
  · exact mov_unnamed hp (movFromCr_unnamed (namesCr_eq hi) _ _)
  · exact mov_unnamed hp (movToCr_unnamed (namesCr_eq hi) _ _)
  · exact mov_unnamed hp (movFromDr_unnamed (namesDr_eq hi) _ _)
  · exact mov_unnamed hp (movToDr_unnamed (namesDr_eq hi) _ _)
  · exact mov_unnamed hp (movTest_unnamed (namesTr_eq hi) _)
  · exact mov_unnamed hp (movTest_unnamed (namesTr_eq hi) _)
  · cases hi

/-- The privileged instructions are refused above CPL 0, after the mode and the register number have been checked
(R558, R643). -/
theorem exec_unprivileged {s : State} {i : Instr} (hp : s.prefixesOk false) (hi : privileged i = true)
    (hn : unnamed i = false) (hm : protectedOnly i = true → s.protectedMode = true) (hc : s.cpl ≠ 0) :
    exec i s = deliver s (s.faultEvent 13 (some 0)) := by
  have hlevel := requireCpl0_refused (s := s.begun) hc
  have hnumber {named : Fin 8 → Bool} {n : Fin 8} (h : named n = true) := requireNumber_refused (s := s.begun) h hc
  have hafter (hprot : protectedOnly i = true) (f : Unit → M Unit) :
      (do requireProtected; requireCpl0 >>= f : M Unit) s.begun = _ :=
    (M_bind_ok (requireProtected_run (s := s.begun) (hm hprot))).trans (M_bind_error hlevel)
  unfold privileged at hi
  split at hi
  -- LGDT, LIDT
  case h_1 | h_2 => exact plain_refused hp (by decide) (M_bind_error (M_bind_error hlevel))
  -- LLDT, LTR
  case h_3 | h_4 => exact plain_refused hp (by decide) (hafter rfl _)
  -- the moves of control, debug and test registers
  case h_5 r n =>
    exact plain_refused hp (by decide) (show movFromCr r n s.begun = _ from M_bind_error (hnumber (namesCr_eq hn)))
  case h_7 n r =>
    exact plain_refused hp (by decide) (show movToCr n r s.begun = _ from M_bind_error (hnumber (namesCr_eq hn)))
  case h_6 r n =>
    exact plain_refused hp (by decide)
      (show movFromDr r n s.begun = _ from M_bind_error (M_bind_error (hnumber (namesDr_eq hn))))
  case h_8 n r =>
    exact plain_refused hp (by decide)
      (show movToDr n r s.begun = _ from M_bind_error (M_bind_error (hnumber (namesDr_eq hn))))
  case h_9 r n | h_10 n r =>
    exact plain_refused hp (by decide) (show movTest n s.begun = _ from M_bind_error (hnumber (namesTr_eq hn)))
  -- LMSW, CLTS, HLT
  case h_11 | h_12 | h_13 => exact plain_refused hp (by decide) (M_bind_error hlevel)
  case h_14 => cases hi

/-! ## IOPL -/

/-- CLI and STI need IOPL (R536, R537). -/
theorem exec_ifRefused {s : State} {i : Instr} (hp : s.prefixesOk false) (hi : i = .cli ∨ i = .sti)
    (h : s.ifAllowed = false) : exec i s = deliver s (s.faultEvent 13 (some 0)) := by
  have hreq : require0 s.begun.ifAllowed 13 s.begun = .error (checkStop 13 0) s.begun := by
    rw [show s.begun.ifAllowed = false from h, require0_false_run]
  obtain rfl | rfl := hi
  all_goals exact plain_refused hp (by decide) ((M_get_bind _ _).trans (M_bind_error hreq))

theorem v86Allowed_eq_false {s : State} (hv : s.v86 = true) (h : s.flags.iopl ≠ 3) : s.v86Allowed = false := by
  rw [State.v86Allowed, hv, beq_false_of_ne h]
  rfl

theorem iretOp_refused {s : State} (hv : s.v86 = true) (h : s.flags.iopl ≠ 3) :
    iretOp s = .error (.exc { vector := 13, code := some 0, newTask := false }) s := by
  have hmode : s.protectedMode = false := by
    obtain ⟨-, hvm⟩ := (v86_iff s).1 hv
    simp [State.protectedMode, hvm]
  have hreal : iretReal s.osz s = .error (.exc { vector := 13, code := some 0, newTask := false }) s := by
    rw [iretReal, M_get_bind, show (!s.v86 || s.flags.iopl == 3) = false from v86Allowed_eq_false hv h]
    exact M_bind_error (require0_false_run 13 s)
  rw [iretOp, M_get_bind, hmode]
  exact M_bind_error hreal

/-- PUSHF, POPF, INT n and IRET need IOPL 3 in virtual-8086 mode (R686). -/
theorem exec_v86Refused {s : State} {i : Instr} (hp : s.prefixesOk false) (hi : v86Sensitive i = true)
    (hv : s.v86 = true) (h : s.flags.iopl ≠ 3) : exec i s = deliver s (s.faultEvent 13 (some 0)) := by
  have hreq : require0 s.begun.v86Allowed 13 s.begun = .error (checkStop 13 0) s.begun := by
    rw [show s.begun.v86Allowed = false from v86Allowed_eq_false hv h, require0_false_run]
  unfold v86Sensitive at hi
  split at hi
  case h_1 | h_2 => exact plain_refused hp (by decide) ((M_get_bind _ _).trans (M_bind_error hreq))
  case h_3 => exact transfer_exc (t := s.begun) hp (by decide) ((M_get_bind _ _).trans (M_bind_error hreq))
  case h_4 => exact transfer_exc (t := s.begun) hp (by decide) (M_bind_error (iretOp_refused (s := s.begun) hv h))
  case h_5 => cases hi

end Sys2Proof.Machine

open Sys2Proof Sys2Proof.Machine Sys2Proof.Claims

/-- Settles O60: each instruction named checks its prefixes, then its mode, its register number or its level, before
anything else. -/
theorem legalityFaults : Obligations.LegalityFaults := by
  unfold Obligations.LegalityFaults
  refine ⟨fun s v code => ⟨realMode_iff s, v86_iff s, protectedMode_iff s, ifAllowed_iff s, v86Allowed_iff s,
    rfl⟩, fun i s => ⟨fun h hl hi => exec_locked h hl hi, fun hp => ?_⟩⟩
  exact ⟨exec_unprotected hp, exec_unnamed hp, exec_unprivileged hp, exec_ifRefused hp, exec_v86Refused hp⟩
end

section
/-!
PROOF. What every step keeps of the mode: CR0.PE, CR0.PG, CPL and EFLAGS.VM. Most functions of the model that make
steps leave the four as they are (`InMode`), in the order of the model's files. Those that change them come after: they
keep the mode legal, because of the checks they make or of the mode they begin in. It settles O6.
-/
namespace Sys2Proof.Machine

/-! ## The mode -/

/-- The part of the state that `State.modeOk` speaks of. -/
structure Mode where
  pe : Bool
  pg : Bool
  cpl : BitVec 2
  vm : Bool

/-- The mode of a state. -/
def State.mode (s : State) : Mode := { pe := s.cr0.pe, pg := s.cr0.pg, cpl := s.cpl, vm := s.flags.vm }

/-- The state is in mode `m`. -/
def InMode (m : Mode) (s : State) : Prop := s.mode = m

theorem InMode.vm {m : Mode} {s : State} (h : InMode m s) : s.flags.vm = m.vm := congrArg Mode.vm h

variable {μ : Mode} {α β : Type}

@[simp] theorem State.setReg_mode (s : State) (w : Width) (i : Fin 8) (v : BitVec w.bits) :
    (s.setReg w i v).mode = s.mode := by simp [State.mode]

@[simp] theorem State.setAddrReg_mode (s : State) (z : Size) (i : Fin 8) (v : Word32) :
    (s.setAddrReg z i v).mode = s.mode := by simp [State.mode]

@[simp] theorem State.setSp_mode (s : State) (v : Word32) : (s.setSp v).mode = s.mode := by simp [State.mode]

@[simp] theorem State.setSeg_mode (s : State) (r : SReg) (g : SegReg) : (s.setSeg r g).mode = s.mode := by
  simp [State.mode]

@[simp] theorem State.setPhysBytes_mode (s : State) (as : List Word32) (bs : List Byte) :
    (s.setPhysBytes as bs).mode = s.mode := by simp [State.mode]

@[simp] theorem State.turned_mode (s : State) : s.turned.mode = s.mode := by simp [State.mode]

@[simp] theorem State.busWrite_mode (s : State) (k : Nat) (as : List Word32) (bs : List Byte) :
    (s.busWrite k as bs).mode = s.mode := by simp [State.mode]

@[simp] theorem State.busRead_mode (s : State) (k : Nat) (as : List Word32) : (s.busRead k as).2.mode = s.mode := by
  simp [State.mode]

@[simp] theorem State.checkedWrite_mode (s : State) (k : Nat) (la : Word32) (as : List Word32) (bs : List Byte) :
    (s.checkedWrite k la as bs).mode = s.mode := by simp [State.mode]

@[simp] theorem State.markEntry_mode (s : State) (a bits : Word32) : (s.markEntry a bits).mode = s.mode :=
  (State.setPhysBytes_mode ..).trans s.turned_mode

@[simp] theorem State.tlbForget_mode (s : State) (page : BitVec 20) : (s.tlbForget page).mode = s.mode := by
  simp [State.mode]

@[simp] theorem State.copStored_mode (s : State) : s.copStored.mode = s.mode := by simp [State.mode]

/-! ## Steps -/

theorem modify_inMode {f : State → State} (hf : ∀ s, (f s).mode = s.mode) : Keeps (InMode μ) (modify f) :=
  keeps_modify _ _ fun s hs => (hf s).trans hs

/-- The rest after a read may use what holds of the state read. -/
theorem keeps_readIn {p : State → Prop} {f : State → M β} (h : ∀ s, p s → Keeps p (f s)) : Keeps p (get >>= f) :=
  fun s hs => h s hs s hs

theorem locked_inMode {x : M α} (hx : Keeps (InMode μ) x) : Keeps (InMode μ) (locked x) := by
  intro s hs
  have h := hx { s.turned with masters := [] } (s.turned_mode.trans hs)
  simp only [locked]
  generalize hr : x { s.turned with masters := [] } = r at h
  cases r <;> exact h

theorem turn_inMode : Keeps (InMode μ) (modify State.turned) := modify_inMode State.turned_mode

/-! ## Accesses -/

theorem pageFault_inMode {la : Word32} {present write user : Bool} :
    Keeps (InMode μ) (pageFault la present write user : M α) :=
  keeps_bind (keeps_modify _ _ fun _ h => h) fun _ => keeps_throw _ _

theorem walkPages_inMode {la : Word32} {write user : Bool} : Keeps (InMode μ) (walkPages la write user) :=
  keeps_bind turn_inMode fun _ => keeps_read fun _ => keeps_when pageFault_inMode fun _ =>
  keeps_bind turn_inMode fun _ => keeps_read fun _ => keeps_when pageFault_inMode fun _ =>
  keeps_when pageFault_inMode fun _ =>
  keeps_when (modify_inMode fun _ => State.markEntry_mode ..) fun _ =>
  keeps_when (modify_inMode fun _ => State.markEntry_mode ..) fun _ =>
  keeps_bind (keeps_modify _ _ fun _ h => h) fun _ => keeps_pure _ _


theorem translate_inMode {la : Word32} {write user : Bool} : Keeps (InMode μ) (translate la write user) := by
  refine keeps_read fun s => ?_
  refine keeps_ite (keeps_pure _ _) ?_
  refine keeps_bind (modify_inMode fun _ => State.tlbForget_mode ..) fun _ => keeps_read fun s => ?_
  split
  · exact keeps_ite walkPages_inMode (keeps_ite (keeps_pure _ _) pageFault_inMode)
  · exact walkPages_inMode

theorem translateRange_inMode {la : Word32} {n : Nat} {write user : Bool} :
    Keeps (InMode μ) (translateRange la n write user) :=
  keeps_bind translate_inMode fun _ => keeps_ite (keeps_pure _ _) (keeps_bind translate_inMode fun _ => keeps_pure _ _)

theorem linRead_inMode {la : Word32} {n : Nat} {user : Bool} : Keeps (InMode μ) (linRead la n user) :=
  keeps_bind translateRange_inMode fun _ => fun s h => (s.busRead_mode 4 _).trans h

theorem linWrite_inMode {la : Word32} {bs : List Byte} {user : Bool} : Keeps (InMode μ) (linWrite la bs user) :=
  keeps_bind translateRange_inMode fun _ => modify_inMode fun _ => State.busWrite_mode ..

theorem sysRead_inMode {w : Width} {la : Word32} : Keeps (InMode μ) (sysRead w la) :=
  keeps_bind linRead_inMode fun _ => keeps_pure _ _

theorem sysWrite_inMode {w : Width} {la : Word32} {v : BitVec w.bits} : Keeps (InMode μ) (sysWrite w la v) :=
  linWrite_inMode

theorem accessAddrs_inMode {r : SReg} {off : Word32} {n : Nat} {write : Bool} :
    Keeps (InMode μ) (accessAddrs r off n write) :=
  keeps_bind segCheck_keeps fun _ => keeps_read fun _ => translateRange_inMode

theorem readChecked_inMode {k : Nat} {la : Word32} {as : List Word32} : Keeps (InMode μ) (readChecked k la as) :=
  keeps_bind (fun s h => (s.busRead_mode k as).trans h) fun _ => keeps_bind (keeps_modify _ _ fun _ h => h) fun _ =>
  keeps_pure _ _

theorem writeChecked_inMode {k : Nat} {la : Word32} {as : List Word32} {bs : List Byte} :
    Keeps (InMode μ) (writeChecked k la as bs) := modify_inMode fun _ => State.checkedWrite_mode ..

theorem lreadBytes_inMode {r : SReg} {off : Word32} {n : Nat} : Keeps (InMode μ) (lreadBytes r off n) :=
  keeps_read fun _ => keeps_bind accessAddrs_inMode fun _ => readChecked_inMode

theorem lwriteBytes_inMode {r : SReg} {off : Word32} {bs : List Byte} : Keeps (InMode μ) (lwriteBytes r off bs) :=
  keeps_read fun _ => keeps_bind accessAddrs_inMode fun _ => writeChecked_inMode

theorem lread_inMode {w : Width} {r : SReg} {off : Word32} : Keeps (InMode μ) (lread w r off) :=
  keeps_bind lreadBytes_inMode fun _ => keeps_pure _ _

theorem lwrite_inMode {w : Width} {r : SReg} {off : Word32} {v : BitVec w.bits} : Keeps (InMode μ) (lwrite w r off v) :=
  lwriteBytes_inMode

theorem checkAccess_inMode {r : SReg} {off : Word32} {n : Nat} {write : Bool} :
    Keeps (InMode μ) (checkAccess r off n write) := keeps_bind accessAddrs_inMode fun _ => keeps_pure _ _

theorem pushBytes_inMode {bs : List Byte} : Keeps (InMode μ) (pushBytes bs) :=
  keeps_read fun _ => keeps_bind lwriteBytes_inMode fun _ => modify_inMode fun _ => State.setSp_mode ..

theorem push_inMode {sz : Size} {v : Word32} : Keeps (InMode μ) (push sz v) := by
  cases sz <;> exact pushBytes_inMode

theorem stackRead_inMode {sz : Size} {sp : Word32} : Keeps (InMode μ) (stackRead sz sp) := by
  cases sz
  · exact keeps_bind lread_inMode fun _ => keeps_pure _ _
  · exact lread_inMode

theorem pop_inMode {sz : Size} : Keeps (InMode μ) (pop sz) :=
  keeps_read fun _ => keeps_bind stackRead_inMode fun _ =>
  keeps_bind (modify_inMode fun _ => State.setSp_mode ..) fun _ => keeps_pure _ _

/-! ## Operands -/

theorem putFlags_inMode {f : EFlags} (hf : f.vm = μ.vm) : Keeps (InMode μ) (putFlags f) :=
  keeps_modify _ _ fun s hs => by
    rw [InMode] at hs
    subst hs
    exact congrArg (Mode.mk s.cr0.pe s.cr0.pg s.cpl) hf

theorem putReg_inMode {w : Width} {r : Fin 8} {v : BitVec w.bits} : Keeps (InMode μ) (putReg w r v) :=
  modify_inMode fun _ => State.setReg_mode ..

theorem readLoc_inMode {w : Width} {l : Loc} : Keeps (InMode μ) (readLoc w l) := by
  cases l
  · exact getReg_keeps
  · exact lread_inMode

theorem writeLoc_inMode {w : Width} {l : Loc} {v : BitVec w.bits} : Keeps (InMode μ) (writeLoc w l v) := by
  cases l
  · exact putReg_inMode
  · exact lwrite_inMode

theorem checkLoc_inMode {w : Width} {l : Loc} : Keeps (InMode μ) (checkLoc w l) := by
  cases l
  · exact keeps_pure _ _
  · exact checkAccess_inMode

theorem readRM_inMode {w : Width} {rm : RM} : Keeps (InMode μ) (readRM w rm) := keeps_read fun _ => readLoc_inMode

theorem writeRM_inMode {w : Width} {rm : RM} {v : BitVec w.bits} : Keeps (InMode μ) (writeRM w rm v) :=
  keeps_read fun _ => writeLoc_inMode

theorem lockedIf_inMode {lock : Bool} {l : Loc} {x : M α} (hx : Keeps (InMode μ) x) :
    Keeps (InMode μ) (lockedIf lock l x) := by
  cases l
  · exact hx
  · exact keeps_ite (locked_inMode hx) hx

theorem modifyRM_inMode {w : Width} {rm : RM} {f : BitVec w.bits → M (BitVec w.bits)}
    (hf : ∀ v, Keeps (InMode μ) (f v)) : Keeps (InMode μ) (modifyRM w rm f) :=
  keeps_read fun _ => keeps_bind checkLoc_inMode fun _ => lockedIf_inMode <|
  keeps_bind readLoc_inMode fun _ => keeps_bind (hf _) fun _ => writeLoc_inMode

/-! ## Selectors and descriptors -/

theorem readDesc_inMode {la : Word32} : Keeps (InMode μ) (readDesc la) :=
  keeps_bind sysRead_inMode fun _ => keeps_bind sysRead_inMode fun _ => keeps_pure _ _

theorem fetchDesc_inMode {v : Byte} {sel : Word16} : Keeps (InMode μ) (fetchDesc v sel) := by
  refine keeps_read fun s => ?_
  split
  · exact keeps_bind readDesc_inMode fun _ => keeps_pure _ _
  · exact raiseSel_keeps

theorem orDescHigh_inMode {la bits : Word32} : Keeps (InMode μ) (orDescHigh la bits) :=
  locked_inMode (keeps_bind sysRead_inMode fun _ => sysWrite_inMode)

theorem clearDescHigh_inMode {la bits : Word32} : Keeps (InMode μ) (clearDescHigh la bits) :=
  locked_inMode (keeps_bind sysRead_inMode fun _ => sysWrite_inMode)

theorem setAccessed_inMode {d : Desc} {la : Word32} : Keeps (InMode μ) (setAccessed d la) :=
  keeps_ite (keeps_pure _ _) orDescHigh_inMode

theorem putSeg_inMode {r : SReg} {g : SegReg} : Keeps (InMode μ) (putSeg r g) :=
  modify_inMode fun _ => State.setSeg_mode ..

theorem stackDesc_inMode {v : Byte} {cpl : BitVec 2} {sel : Word16} : Keeps (InMode μ) (stackDesc v cpl sel) :=
  keeps_bind fetchDesc_inMode fun _ => keeps_bind requireSel_keeps fun _ => keeps_bind requireSel_keeps fun _ =>
  keeps_pure _ _

theorem dataDesc_inMode {v : Byte} {cpl : BitVec 2} {sel : Word16} : Keeps (InMode μ) (dataDesc v cpl sel) :=
  keeps_bind fetchDesc_inMode fun _ => keeps_bind requireSel_keeps fun _ => keeps_bind requireSel_keeps fun _ =>
  keeps_bind requireSel_keeps fun _ => keeps_pure _ _

theorem loadSeg_inMode {r : SReg} {sel : Word16} : Keeps (InMode μ) (loadSeg r sel) :=
  keeps_read fun _ => keeps_ite putSeg_inMode <| keeps_ite putSeg_inMode <|
  keeps_ite (keeps_bind require0_keeps fun _ => putSeg_inMode) <|
  keeps_either stackDesc_inMode dataDesc_inMode fun _ => keeps_bind setAccessed_inMode fun _ => putSeg_inMode

/-! ## Control, and the task switch -/

theorem branchTo_inMode {t : Word32} : Keeps (InMode μ) (branchTo t) := keeps_modify _ _ fun _ h => h

theorem farReal_inMode {sel : Word16} {off : Word32} : Keeps (InMode μ) (farReal sel off) :=
  keeps_bind (keeps_modify _ _ fun _ h => h) fun _ => branchTo_inMode

theorem writeDwords_inMode {la : Word32} {vs : List Word32} : Keeps (InMode μ) (writeDwords la vs) := by
  induction vs generalizing la with
  | nil => exact keeps_pure _ _
  | cons v vs ih => exact keeps_bind sysWrite_inMode fun _ => ih

theorem writeWords_inMode {la step : Word32} {vs : List Word16} : Keeps (InMode μ) (writeWords la step vs) := by
  induction vs generalizing la with
  | nil => exact keeps_pure _ _
  | cons v vs ih => exact keeps_bind sysWrite_inMode fun _ => ih

theorem readSeries_inMode {w : Width} {la step : Word32} {n : Nat} : Keeps (InMode μ) (readSeries w la step n) := by
  induction n generalizing la with
  | zero => exact keeps_pure _ _
  | succ n ih => exact keeps_bind sysRead_inMode fun _ => keeps_bind ih fun _ => keeps_pure _ _

theorem saveTask_inMode {s : State} {kind : SwitchKind} {ret : Word32} {rf : Bool} :
    Keeps (InMode μ) (saveTask s kind ret rf) :=
  keeps_ite
    (keeps_bind writeDwords_inMode fun _ => keeps_bind writeWords_inMode fun _ => keeps_bind sysWrite_inMode fun _ =>
      sysWrite_inMode)
    (keeps_bind writeWords_inMode fun _ => keeps_bind sysWrite_inMode fun _ => sysWrite_inMode)

theorem readTask_inMode {base : Word32} {is386 : Bool} : Keeps (InMode μ) (readTask base is386) :=
  keeps_ite
    (keeps_bind sysRead_inMode fun _ => keeps_bind readSeries_inMode fun _ => keeps_bind readSeries_inMode fun _ =>
      keeps_pure _ _)
    (keeps_bind sysRead_inMode fun _ => keeps_bind readSeries_inMode fun _ => keeps_read fun _ => keeps_pure _ _)

theorem loadTaskLdt_inMode {ldt : Word16} : Keeps (InMode μ) (loadTaskLdt ldt) :=
  keeps_ite (keeps_pure _ _) <| keeps_read fun _ => keeps_bind requireSel_keeps fun _ => keeps_bind readDesc_inMode
    fun _ => keeps_bind requireSel_keeps fun _ => keeps_modify _ _ fun _ h => h

theorem clearBusy_inMode {sel : Word16} : Keeps (InMode μ) (clearBusy sel) :=
  keeps_read fun _ => keeps_ite (keeps_pure _ _) <| keeps_bind requireSel_keeps fun _ => clearDescHigh_inMode

/-! ## Taking an interrupt or exception, and the return -/

theorem innerStack_inMode {n : BitVec 2} {b k : Nat} : Keeps (InMode μ) (innerStack n b k) :=
  keeps_read fun _ => keeps_bind requireSel_keeps fun _ => keeps_either sysRead_inMode sysRead_inMode fun _ =>
  keeps_either sysRead_inMode (keeps_map sysRead_inMode) fun _ => keeps_bind require0_keeps fun _ =>
  keeps_bind stackDesc_inMode fun _ => keeps_bind requireSel_keeps fun _ => keeps_pure _ _

theorem pushAll_inMode {sz : Size} {vs : List Word32} : Keeps (InMode μ) (pushAll sz vs) := by
  induction vs with
  | nil => exact keeps_pure _ _
  | cons v vs ih => exact keeps_bind push_inMode fun _ => ih

theorem enterReal_inMode {ev : Event} : Keeps (InMode μ) (enterReal ev) :=
  keeps_read fun _ => keeps_when (keeps_throw _ _) fun _ => keeps_bind sysRead_inMode fun _ =>
  keeps_bind pushAll_inMode fun _ => keeps_bind (keeps_modify _ _ fun _ h => h) fun _ => farReal_inMode

theorem returnDesc_inMode {csel : Word16} : Keeps (InMode μ) (returnDesc csel) :=
  keeps_read fun _ => keeps_bind require0_keeps fun _ => keeps_bind requireSel_keeps fun _ =>
  keeps_bind fetchDesc_inMode fun _ => keeps_bind requireSel_keeps fun _ => keeps_bind requireSel_keeps fun _ =>
  keeps_pure _ _

/-! ## Arithmetic and bits -/

/-! The status flags of a result do not touch VM. -/

theorem aluCompute_vm {n : Nat} (op : AluOp) (u : Nat → Bool) (a b : BitVec n) (f : EFlags) :
    (aluCompute op u a b f).flags.vm = f.vm := by cases op <;> rfl

theorem shiftCompute_vm {n : Nat} (op : ShiftOp) (u : Nat → Bool) (d : BitVec n) (count : Nat) (f : EFlags) :
    (shiftCompute op u d count f).flags.vm = f.vm := by
  unfold shiftCompute
  split
  · rfl
  · cases op <;> rfl

theorem doubleShift_vm {n : Nat} (left : Bool) (u : Nat → Bool) (v d s : BitVec n) (count : Nat) (f : EFlags) :
    (doubleShift left u v d s count f).flags.vm = f.vm := by
  unfold doubleShift
  split
  · rfl
  · split <;> rfl

/-- A result whose flags have the VM of the flags before. -/
theorem computed_inMode {n : Nat} {g : State → Result n} (hg : ∀ s, (g s).flags.vm = s.flags.vm) :
    Keeps (InMode μ) (do let s ← get; putFlags (g s).flags; return (g s).value) :=
  keeps_readIn fun s hs => keeps_bind (putFlags_inMode ((hg s).trans hs.vm)) fun _ => keeps_pure _ _

theorem aluRM_inMode {op : AluOp} {w : Width} {rm : RM} {b : BitVec w.bits} : Keeps (InMode μ) (aluRM op w rm b) :=
  keeps_ite
    (keeps_bind readRM_inMode fun _ => keeps_readIn fun _ hs => putFlags_inMode ((aluCompute_vm ..).trans hs.vm))
    (modifyRM_inMode fun _ => computed_inMode fun _ => aluCompute_vm ..)

theorem aluReg_inMode {op : AluOp} {w : Width} {d : Fin 8} {b : BitVec w.bits} : Keeps (InMode μ) (aluReg op w d b) :=
  keeps_readIn fun _ hs => keeps_when putReg_inMode fun _ => putFlags_inMode ((aluCompute_vm ..).trans hs.vm)

theorem aluForm_inMode {op : AluOp} {f : AluForm} : Keeps (InMode μ) (aluForm op f) := by
  refine keeps_read fun _ => ?_
  cases f
  case gbEb | gvEv => exact keeps_bind readRM_inMode fun _ => aluReg_inMode
  case alIb | eaxIv => exact aluReg_inMode
  all_goals exact aluRM_inMode

theorem unaryRM_inMode {w : Width} {rm : RM} {f : BitVec w.bits → EFlags → Result w.bits}
    (hf : ∀ a g, (f a g).flags.vm = g.vm) : Keeps (InMode μ) (unaryRM w rm f) :=
  modifyRM_inMode fun _ => computed_inMode fun _ => hf _ _

theorem incForm_inMode {op : (n : Nat) → BitVec n → EFlags → Result n} {f : IncForm}
    (hop : ∀ n a g, (op n a g).flags.vm = g.vm) : Keeps (InMode μ) (incForm op f) := by
  refine keeps_read fun _ => ?_
  cases f <;> exact unaryRM_inMode (hop _)

theorem mulForm_inMode {signed : Bool} {f : UnaryForm} : Keeps (InMode μ) (mulForm signed f) :=
  keeps_read fun _ => keeps_bind readRM_inMode fun _ => keeps_readIn fun _ hs => keeps_bind putReg_inMode fun _ =>
  keeps_bind putReg_inMode fun _ => putFlags_inMode hs.vm

theorem imulReg_inMode {w : Width} {r : Fin 8} {a b : BitVec w.bits} : Keeps (InMode μ) (imulReg w r a b) :=
  keeps_readIn fun _ hs => keeps_bind putReg_inMode fun _ => putFlags_inMode hs.vm

theorem imulForm_inMode {f : ImulForm} : Keeps (InMode μ) (imulForm f) := by
  refine keeps_read fun _ => ?_
  cases f
  case eb | ev => exact mulForm_inMode
  all_goals exact keeps_bind readRM_inMode fun _ => imulReg_inMode

theorem divForm_inMode {signed : Bool} {f : UnaryForm} : Keeps (InMode μ) (divForm signed f) :=
  keeps_read fun _ => keeps_bind readRM_inMode fun _ => keeps_readIn fun _ hs => keeps_bind require_keeps fun _ =>
  keeps_bind require_keeps fun _ => keeps_bind putReg_inMode fun _ => keeps_bind putReg_inMode fun _ =>
  putFlags_inMode hs.vm

theorem adjustAl_inMode {f : (Nat → Bool) → Byte → EFlags → Result 8}
    (hf : ∀ u a g, (f u a g).flags.vm = g.vm) : Keeps (InMode μ) (adjustAl f) :=
  keeps_readIn fun _ hs => keeps_bind putReg_inMode fun _ => putFlags_inMode ((hf ..).trans hs.vm)

theorem adjustAx_inMode {f : (Nat → Bool) → Word16 → EFlags → Result 16}
    (hf : ∀ u a g, (f u a g).flags.vm = g.vm) : Keeps (InMode μ) (adjustAx f) :=
  keeps_readIn fun _ hs => keeps_bind putReg_inMode fun _ => putFlags_inMode ((hf ..).trans hs.vm)

theorem bitAt_inMode {op : BitOp} {w : Width} {l : Loc} {k : Nat} : Keeps (InMode μ) (bitAt op w l k) := by
  unfold bitAt
  refine keeps_when checkLoc_inMode fun _ => keeps_read fun _ => lockedIf_inMode ?_
  exact keeps_bind readLoc_inMode fun _ => keeps_readIn fun _ hs => keeps_when writeLoc_inMode fun _ =>
    putFlags_inMode hs.vm

theorem bitForm_inMode {op : BitOp} {f : BitForm} : Keeps (InMode μ) (bitForm op f) := by
  refine keeps_read fun _ => ?_
  cases f <;> exact bitAt_inMode

theorem scanForm_inMode {find : (n : Nat) → BitVec n → Nat} {r : Fin 8} {rm : RM} :
    Keeps (InMode μ) (scanForm find r rm) :=
  keeps_read fun _ => keeps_bind readRM_inMode fun _ => keeps_readIn fun _ hs => keeps_bind putReg_inMode fun _ =>
  putFlags_inMode hs.vm

theorem xbtsSteps_inMode {r : Fin 8} {rm : RM} : Keeps (InMode μ) (xbtsSteps r rm) := by
  refine keeps_read fun _ => keeps_bind bitField_keeps fun _ => keeps_readIn fun _ hs => ?_
  split
  · exact keeps_when (keeps_throw _ _) fun _ => keeps_bind (keeps_pure _ _) fun _ => keeps_bind putReg_inMode fun _ =>
      putFlags_inMode hs.vm
  · exact keeps_ite
      (keeps_bind (keeps_pure _ _) fun _ => keeps_bind putReg_inMode fun _ => putFlags_inMode hs.vm)
      (keeps_bind lreadBytes_inMode fun _ => keeps_bind (keeps_pure _ _) fun _ => keeps_bind putReg_inMode fun _ =>
        putFlags_inMode hs.vm)

theorem ibtsSteps_inMode {r : Fin 8} {rm : RM} : Keeps (InMode μ) (ibtsSteps rm r) := by
  refine keeps_read fun _ => keeps_bind bitField_keeps fun _ => keeps_readIn fun _ hs => ?_
  dsimp only
  split
  · exact keeps_when (keeps_throw _ _) fun _ => keeps_bind putReg_inMode fun _ => putFlags_inMode hs.vm
  · exact keeps_ite (putFlags_inMode hs.vm) <| keeps_bind checkAccess_inMode fun _ =>
      keeps_bind lreadBytes_inMode fun _ =>
      keeps_bind lwriteBytes_inMode fun _ => putFlags_inMode hs.vm

theorem testFlags_inMode {w : Width} {a b : BitVec w.bits} : Keeps (InMode μ) (testFlags w a b) :=
  keeps_readIn fun _ hs => putFlags_inMode hs.vm

theorem testForm_inMode {f : TestForm} : Keeps (InMode μ) (testForm f) := by
  refine keeps_read fun _ => ?_
  cases f
  case alIb | eaxIv => exact testFlags_inMode
  all_goals exact keeps_bind readRM_inMode fun _ => testFlags_inMode

theorem shiftRM_inMode {op : ShiftOp} {w : Width} {rm : RM} {count : Byte} : Keeps (InMode μ) (shiftRM op w rm count) :=
  keeps_ite
    (keeps_read fun _ => keeps_bind checkLoc_inMode fun _ => keeps_bind readLoc_inMode fun _ => keeps_pure _ _)
    (modifyRM_inMode fun _ => computed_inMode fun _ => shiftCompute_vm ..)

theorem shiftForm_inMode {op : ShiftOp} {f : ShiftForm} : Keeps (InMode μ) (shiftForm op f) := by
  refine keeps_read fun _ => ?_
  cases f <;> exact shiftRM_inMode

theorem doubleShiftRM_inMode {left : Bool} {rm : RM} {r : Fin 8} {count : Byte} :
    Keeps (InMode μ) (doubleShiftRM left rm r count) :=
  keeps_read fun _ => keeps_ite (keeps_pure _ _) (modifyRM_inMode fun _ => computed_inMode fun _ => doubleShift_vm ..)

theorem shdForm_inMode {left : Bool} {f : ShdForm} : Keeps (InMode μ) (shdForm left f) := by
  cases f
  · exact doubleShiftRM_inMode
  · exact keeps_read fun _ => doubleShiftRM_inMode

theorem modifyFlags_inMode {f : EFlags → EFlags} (hf : ∀ g, (f g).vm = g.vm) : Keeps (InMode μ) (modifyFlags f) :=
  modify_inMode fun s => congrArg (Mode.mk s.cr0.pe s.cr0.pg s.cpl) (hf s.flags)

theorem setByte_inMode {cc : Cond} {rm : RM} : Keeps (InMode μ) (setByte cc rm) := keeps_read fun _ => writeRM_inMode

/-! ## Ports and strings -/

theorem bitmapBits_inMode {base port n : Nat} : Keeps (InMode μ) (bitmapBits base port n) := by
  induction n generalizing port with
  | zero => exact keeps_pure _ _
  | succ n ih =>
    exact keeps_read fun _ => keeps_bind require0_keeps fun _ => keeps_bind sysRead_inMode fun _ =>
      keeps_bind require0_keeps fun _ => ih

theorem bitmapCheck_inMode {port : Word16} {n : Nat} : Keeps (InMode μ) (bitmapCheck port n) :=
  keeps_read fun _ => keeps_bind require0_keeps fun _ => keeps_bind sysRead_inMode fun _ => bitmapBits_inMode

theorem ioCheck_inMode {port : Word16} {n : Nat} : Keeps (InMode μ) (ioCheck port n) :=
  keeps_read fun _ => keeps_ite (keeps_pure _ _) <| keeps_ite bitmapCheck_inMode (keeps_throw _ _)

theorem ioRead_inMode {w : Width} {port : Word16} : Keeps (InMode μ) (ioRead w port) :=
  keeps_read fun _ => keeps_bind (keeps_modify _ _ fun _ h => h) fun _ => keeps_pure _ _

theorem ioWrite_inMode {w : Width} {port : Word16} {v : BitVec w.bits} : Keeps (InMode μ) (ioWrite w port v) :=
  keeps_modify _ _ fun _ h => h

theorem inSteps_inMode {w : Width} {port : Word16} : Keeps (InMode μ) (inSteps w port) :=
  keeps_bind ioCheck_inMode fun _ => keeps_bind ioRead_inMode fun _ => putReg_inMode

theorem outSteps_inMode {w : Width} {port : Word16} : Keeps (InMode μ) (outSteps w port) :=
  keeps_bind ioCheck_inMode fun _ => keeps_read fun _ => ioWrite_inMode

theorem advance_inMode {w : Width} {i : Fin 8} : Keeps (InMode μ) (advance w i) :=
  modify_inMode fun _ => State.setAddrReg_mode ..

theorem readSource_inMode {w : Width} : Keeps (InMode μ) (readSource w) := keeps_read fun _ => lread_inMode

theorem readDest_inMode {w : Width} : Keeps (InMode μ) (readDest w) := keeps_read fun _ => lread_inMode

theorem writeDest_inMode {w : Width} {v : BitVec w.bits} : Keeps (InMode μ) (writeDest w v) :=
  keeps_read fun _ => lwrite_inMode

theorem compareFlags_inMode {w : Width} {a b : BitVec w.bits} : Keeps (InMode μ) (compareFlags w a b) :=
  keeps_readIn fun _ hs => putFlags_inMode hs.vm

theorem movsElement_inMode {byte : Bool} : Keeps (InMode μ) (movsElement byte) :=
  keeps_read fun _ => keeps_bind readSource_inMode fun _ => keeps_bind writeDest_inMode fun _ =>
  keeps_bind advance_inMode fun _ => advance_inMode

theorem cmpsElement_inMode {byte : Bool} : Keeps (InMode μ) (cmpsElement byte) :=
  keeps_read fun _ => keeps_bind readSource_inMode fun _ => keeps_bind readDest_inMode fun _ =>
  keeps_bind compareFlags_inMode fun _ => keeps_bind advance_inMode fun _ => advance_inMode

theorem scasElement_inMode {byte : Bool} : Keeps (InMode μ) (scasElement byte) :=
  keeps_read fun _ => keeps_bind readDest_inMode fun _ => keeps_read fun _ => keeps_bind compareFlags_inMode fun _ =>
  advance_inMode

theorem lodsElement_inMode {byte : Bool} : Keeps (InMode μ) (lodsElement byte) :=
  keeps_read fun _ => keeps_bind readSource_inMode fun _ => keeps_bind putReg_inMode fun _ => advance_inMode

theorem stosElement_inMode {byte : Bool} : Keeps (InMode μ) (stosElement byte) :=
  keeps_read fun _ => keeps_read fun _ => keeps_bind writeDest_inMode fun _ => advance_inMode

theorem insElement_inMode {byte : Bool} : Keeps (InMode μ) (insElement byte) :=
  keeps_read fun _ => keeps_bind ioCheck_inMode fun _ => keeps_bind accessAddrs_inMode fun _ =>
  keeps_bind ioRead_inMode fun _ => keeps_bind writeChecked_inMode fun _ => advance_inMode

theorem outsElement_inMode {byte : Bool} : Keeps (InMode μ) (outsElement byte) :=
  keeps_read fun _ => keeps_bind ioCheck_inMode fun _ => keeps_bind readSource_inMode fun _ =>
  keeps_bind ioWrite_inMode fun _ => advance_inMode

theorem stringSteps_inMode {compares : Bool} {permit element : M Unit} (hp : Keeps (InMode μ) permit)
    (he : Keeps (InMode μ) element) : Keeps (InMode μ) (stringSteps compares permit element) := by
  refine keeps_read fun _ => keeps_bind require_keeps fun _ => keeps_when (keeps_throw _ _) fun _ =>
    keeps_bind hp fun _ => ?_
  split
  · exact keeps_bind he fun _ => keeps_pure _ _
  · exact keeps_ite (keeps_pure _ _) <| keeps_bind he fun _ =>
      keeps_bind (modify_inMode fun _ => State.setAddrReg_mode ..) fun _ => keeps_read fun _ =>
      keeps_ite (keeps_pure _ _) (keeps_pure _ _)

theorem memString_inMode {compares : Bool} {element : M Unit} (h : Keeps (InMode μ) element) :
    Keeps (InMode μ) (memString compares element) := stringSteps_inMode (keeps_pure _ _) h

theorem portString_inMode {element : M Unit} (h : Keeps (InMode μ) element) : Keeps (InMode μ) (portString element) :=
  stringSteps_inMode ioPrivilege_keeps h

/-! ## System instructions -/

theorem storeWord_inMode {rm : RM} {v : Word16} : Keeps (InMode μ) (storeWord rm v) := by
  refine keeps_read fun _ => ?_
  split
  · exact putReg_inMode
  · exact writeRM_inMode

theorem readTable_inMode {m : MemOp} : Keeps (InMode μ) (readTable m) :=
  keeps_bind requireCpl0_keeps fun _ => keeps_read fun _ => keeps_bind checkAccess_inMode fun _ =>
  keeps_bind lread_inMode fun _ => keeps_bind lread_inMode fun _ => keeps_pure _ _

theorem storeTable_inMode {m : MemOp} {t : TableReg} : Keeps (InMode μ) (storeTable m t) :=
  keeps_read fun _ => keeps_bind accessAddrs_inMode fun _ => keeps_bind writeChecked_inMode fun _ => writeChecked_inMode

theorem systemDesc_inMode {sel : Word16} {types : List Nat} : Keeps (InMode μ) (systemDesc sel types) :=
  keeps_read fun _ => keeps_bind requireSel_keeps fun _ => keeps_bind readDesc_inMode fun _ =>
  keeps_bind requireSel_keeps fun _ => keeps_bind requireSel_keeps fun _ => keeps_pure _ _

theorem freeFlags_inMode : Keeps (InMode μ) freeFlags := keeps_readIn fun _ hs => putFlags_inMode hs.vm

theorem movFromCr_inMode {r n : Fin 8} : Keeps (InMode μ) (movFromCr r n) := by
  refine keeps_bind requireNumber_keeps fun _ => keeps_read fun _ => ?_
  dsimp only
  split <;> exact keeps_bind putReg_inMode fun _ => freeFlags_inMode

theorem debugGuard_inMode {n : Fin 8} : Keeps (InMode μ) (debugGuard n) :=
  keeps_bind requireNumber_keeps fun _ => keeps_read fun _ =>
  keeps_ite (keeps_bind (keeps_modify _ _ fun _ h => h) fun _ => keeps_throw _ _) (keeps_pure _ _)

theorem movFromDr_inMode {r n : Fin 8} : Keeps (InMode μ) (movFromDr r n) :=
  keeps_bind debugGuard_inMode fun _ => keeps_read fun _ => keeps_bind putReg_inMode fun _ => freeFlags_inMode

theorem movToDr_inMode {n r : Fin 8} : Keeps (InMode μ) (movToDr n r) := by
  refine keeps_bind debugGuard_inMode fun _ => keeps_read fun _ => ?_
  dsimp only
  split
  case h_6 =>
    exact keeps_when (keeps_throw _ _) fun _ => keeps_bind (keeps_modify _ _ fun _ h => h) fun _ => freeFlags_inMode
  all_goals exact keeps_bind (keeps_modify _ _ fun _ h => h) fun _ => freeFlags_inMode

theorem putZf_inMode {z : Bool} : Keeps (InMode μ) (putZf z) := keeps_modify _ _ fun _ h => h

theorem queryDesc_inMode {sel : Word16} {ok : BitVec 2 → Desc → Bool} : Keeps (InMode μ) (queryDesc sel ok) := by
  refine keeps_read fun _ => keeps_ite (keeps_pure _ _) ?_
  split
  · exact keeps_pure _ _
  · exact keeps_bind readDesc_inMode fun _ => keeps_pure _ _

theorem queryLoad_inMode {types : List Nat} {result : Desc → Word32} {r : Fin 8} {rm : RM} :
    Keeps (InMode μ) (queryLoad types result r rm) := by
  refine keeps_bind requireProtected_keeps fun _ => keeps_read fun _ => keeps_bind readRM_inMode fun _ =>
    keeps_bind queryDesc_inMode fun _ => ?_
  split
  · exact keeps_bind putReg_inMode fun _ => putZf_inMode
  · exact putZf_inMode

/-! ## Moves -/

theorem loadDirect_inMode {w : Width} {off : ImmV} : Keeps (InMode μ) (loadDirect w off) :=
  keeps_read fun _ => keeps_bind lread_inMode fun _ => putReg_inMode

theorem storeDirect_inMode {w : Width} {off : ImmV} : Keeps (InMode μ) (storeDirect w off) :=
  keeps_read fun _ => lwrite_inMode

theorem movToSeg_inMode {sr : SReg} {rm : RM} : Keeps (InMode μ) (movToSeg sr rm) :=
  keeps_bind require_keeps fun _ => keeps_bind readRM_inMode fun _ => keeps_bind loadSeg_inMode fun _ =>
  keeps_ite (keeps_modify _ _ fun _ h => h) (keeps_pure _ _)

theorem movxForm_inMode {ext : (n m : Nat) → BitVec n → BitVec m} {f : MovxForm} : Keeps (InMode μ) (movxForm ext f)
    := by
  refine keeps_read fun _ => ?_
  cases f <;> exact keeps_bind readRM_inMode fun _ => putReg_inMode

theorem readFar_inMode {m : MemOp} : Keeps (InMode μ) (readFar m) :=
  keeps_read fun _ => keeps_bind lread_inMode fun _ => keeps_bind lread_inMode fun _ => keeps_pure _ _

theorem loadFar_inMode {sr : SReg} {r : Fin 8} {m : MemOp} : Keeps (InMode μ) (loadFar sr r m) :=
  keeps_read fun _ => keeps_bind readFar_inMode fun _ => keeps_bind loadSeg_inMode fun _ => putReg_inMode

theorem xchgRM_inMode {w : Width} {rm : RM} {r : Fin 8} : Keeps (InMode μ) (xchgRM w rm r) :=
  keeps_read fun _ => keeps_bind checkLoc_inMode fun _ => keeps_bind
    (lockedIf_inMode <| keeps_bind readLoc_inMode fun _ => keeps_bind writeLoc_inMode fun _ => keeps_pure _ _)
    fun _ => putReg_inMode

theorem xchgForm_inMode {f : XchgForm} : Keeps (InMode μ) (xchgForm f) := by
  refine keeps_read fun _ => ?_
  cases f <;> exact xchgRM_inMode

/-! ## The stack -/

theorem putSized_inMode {sz : Size} {r : Fin 8} {v : Word32} : Keeps (InMode μ) (putSized sz r v) :=
  modify_inMode fun _ => State.setAddrReg_mode ..

theorem readSized_inMode {sz : Size} {rm : RM} : Keeps (InMode μ) (readSized sz rm) :=
  keeps_bind readRM_inMode fun _ => keeps_pure _ _

theorem pushForm_inMode {f : PushForm} : Keeps (InMode μ) (pushForm f) := by
  refine keeps_read fun _ => ?_
  cases f
  case ev => exact keeps_bind readSized_inMode fun _ => push_inMode
  all_goals exact push_inMode

theorem pushSeg_inMode {r : SReg} : Keeps (InMode μ) (pushSeg r) := keeps_read fun _ => pushBytes_inMode

theorem popForm_inMode {f : PopForm} : Keeps (InMode μ) (popForm f) := by
  refine keeps_read fun _ => keeps_bind pop_inMode fun _ => ?_
  cases f
  · exact putSized_inMode
  · exact writeRM_inMode

theorem popSeg_inMode {r : SReg} : Keeps (InMode μ) (popSeg r) :=
  keeps_read fun _ => keeps_bind stackRead_inMode fun _ => keeps_bind loadSeg_inMode fun _ =>
  keeps_bind (modify_inMode fun _ => State.setSp_mode ..) fun _ => keeps_ite (keeps_modify _ _ fun _ h =>
  h) (keeps_pure _ _)

theorem stackItems_inMode {sz : Size} {sp : Word32} {n : Nat} : Keeps (InMode μ) (stackItems sz sp n) := by
  induction n generalizing sp with
  | zero => exact keeps_pure _ _
  | succ n ih =>
    exact keeps_bind stackRead_inMode fun _ => keeps_read fun _ => keeps_bind ih fun _ => keeps_pure _ _

theorem popaSteps_inMode : Keeps (InMode μ) popaSteps :=
  keeps_read fun _ => keeps_bind stackItems_inMode fun _ => keeps_bind (modify_inMode fun _ =>
  State.setSp_mode ..) fun _ =>
  keeps_bind putSized_inMode fun _ => keeps_bind putSized_inMode fun _ => keeps_bind putSized_inMode fun _ =>
  keeps_bind putSized_inMode fun _ => keeps_bind putSized_inMode fun _ => keeps_bind putSized_inMode fun _ =>
  putSized_inMode

theorem copyDisplay_inMode {sz : Size} {n : Nat} : Keeps (InMode μ) (copyDisplay sz n) := by
  induction n with
  | zero => exact keeps_pure _ _
  | succ n ih =>
    exact keeps_bind (modify_inMode fun _ => State.setAddrReg_mode ..) fun _ => keeps_read fun _ =>
      keeps_bind stackRead_inMode fun _ => keeps_bind push_inMode fun _ => ih

theorem enterSteps_inMode {iw : Word16} {ib : Byte} : Keeps (InMode μ) (enterSteps iw ib) :=
  have hend {sz v iw} : Keeps (InMode μ) (do putSized sz ebp v; modify fun s => s.setSp (s.spBelow s.sp iw) : M Unit) :=
    keeps_bind putSized_inMode fun _ => modify_inMode fun _ => State.setSp_mode ..
  keeps_read fun _ => keeps_read fun _ => keeps_bind push_inMode fun _ => keeps_read fun _ =>
  keeps_ite hend <| keeps_bind copyDisplay_inMode fun _ => keeps_bind push_inMode fun _ => hend

/-! ## Control transfer -/

theorem nearBranch_inMode {t : Word32} : Keeps (InMode μ) (nearBranch t) :=
  keeps_read fun _ => keeps_bind requireTarget_keeps fun _ => keeps_bind branchTo_inMode fun _ => keeps_pure _ _

theorem branchBy_inMode {disp : Word32} : Keeps (InMode μ) (branchBy disp) := keeps_read fun _ => nearBranch_inMode

theorem branchIf_inMode {b : Bool} {disp : Word32} : Keeps (InMode μ) (branchIf b disp) :=
  keeps_ite branchBy_inMode (keeps_pure _ _)

theorem jccSteps_inMode {cc : Cond} {f : JccForm} : Keeps (InMode μ) (jccSteps cc f) := keeps_read fun _ =>
    branchIf_inMode

theorem loopSteps_inMode {test : Bool → Bool} {disp : Byte} : Keeps (InMode μ) (loopSteps test disp) :=
  keeps_bind (modify_inMode fun _ => State.setAddrReg_mode ..) fun _ => keeps_read fun _ => branchIf_inMode

theorem pushReturn_inMode {via : Via} {sz : Size} : Keeps (InMode μ) (pushReturn via sz) := by
  refine keeps_read fun _ => ?_
  cases via
  · exact keeps_pure _ _
  · exact pushAll_inMode

theorem farRealSteps_inMode {via : Via} {sel : Word16} {off : Word32} : Keeps (InMode μ) (farRealSteps via sel off) :=
  keeps_read fun _ => keeps_bind callRoom_keeps fun _ => keeps_bind requireTarget_keeps fun _ =>
  keeps_bind pushReturn_inMode fun _ => keeps_bind farReal_inMode fun _ => keeps_pure _ _

theorem callNear_inMode {t : Word32} : Keeps (InMode μ) (callNear t) :=
  keeps_read fun _ => keeps_bind requireTarget_keeps fun _ => keeps_bind push_inMode fun _ =>
  keeps_bind branchTo_inMode fun _ => keeps_pure _ _

theorem retNear_inMode {iw : Word16} : Keeps (InMode μ) (retNear iw) :=
  keeps_read fun _ => keeps_bind pop_inMode fun _ => keeps_bind requireTarget_keeps fun _ =>
  keeps_bind (modify_inMode fun _ => State.setSp_mode ..) fun _ => keeps_bind branchTo_inMode fun _ => keeps_pure _ _

/-! ## The coprocessor -/

theorem copIssue_inMode {e : Esc} {sel : Word16} {off : Word32} : Keeps (InMode μ) (copIssue e sel off) :=
  keeps_read fun _ => keeps_bind (keeps_modify _ _ fun _ h => h) fun _ =>
  keeps_ite (keeps_modify _ _ fun _ h => h) (keeps_pure _ _)

theorem copMoved_inMode {f : List Byte → BusEvent} {bs : List Byte} :
    Keeps (InMode μ) (modify fun t => t.copMoved f bs) := keeps_modify _ _ fun _ h => h

theorem makeDueStore_inMode : Keeps (InMode μ) makeDueStore :=
  keeps_read fun _ => keeps_when (keeps_throw _ _) fun _ => keeps_bind (modify_inMode State.copStored_mode) fun _ =>
  keeps_pure _ _

theorem copTransfer_inMode {e : Esc} : Keeps (InMode μ) (copTransfer e) := by
  refine keeps_read fun _ => ?_
  split
  · exact copIssue_inMode
  · exact keeps_bind accessAddrs_inMode fun _ => keeps_bind copIssue_inMode fun _ =>
      keeps_bind readChecked_inMode fun _ => copMoved_inMode
  · exact keeps_bind accessAddrs_inMode fun _ => keeps_bind copIssue_inMode fun _ =>
      keeps_ite (keeps_modify _ _ fun _ h => h) (keeps_bind copMoved_inMode fun _ => writeChecked_inMode)
  · exact keeps_bind copIssue_inMode fun _ => keeps_bind copMoved_inMode fun _ => putReg_inMode

theorem escSteps_inMode {e : Esc} : Keeps (InMode μ) (escSteps e) :=
  keeps_read fun _ => keeps_bind require_keeps fun _ => keeps_when (keeps_throw _ _) fun _ =>
  keeps_ite (keeps_pure _ _) <| keeps_ite makeDueStore_inMode <|
  keeps_bind require_keeps fun _ => keeps_bind copTransfer_inMode fun _ => keeps_pure _ _

theorem iretReal_inMode {sz : Size} : Keeps (InMode μ) (iretReal sz) :=
  keeps_read fun _ => keeps_bind require0_keeps fun _ => keeps_bind stackRead_inMode fun _ =>
  keeps_bind stackRead_inMode fun _ => keeps_bind stackRead_inMode fun _ => keeps_bind require0_keeps fun _ =>
  keeps_bind (modify_inMode fun s => by simp [State.mode, State.iretFlags, State.poppedFlags]) fun _ => farReal_inMode

theorem fetchByte_inMode {off : Nat} : Keeps (InMode μ) (fetchByte off) := by
  refine keeps_read fun _ => keeps_bind require0_keeps fun _ => ?_
  dsimp only
  split
  · exact keeps_pure _ _
  · exact keeps_bind translate_inMode fun _ => keeps_bind turn_inMode fun _ => keeps_read fun _ => keeps_pure _ _

theorem fetchFrom_inMode {n : Nat} {bs : List Byte} : Keeps (InMode μ) (fetchFrom n bs) := by
  induction n generalizing bs with
  | zero => exact keeps_throw _ _
  | succ n ih =>
    refine keeps_read fun _ => keeps_bind fetchByte_inMode fun _ => keeps_bind require0_keeps fun _ => ?_
    split
    · exact ih
    · exact keeps_bind (keeps_modify _ _ fun _ h => h) fun _ => keeps_pure _ _

/-! ## Legal modes -/

/-- The mode is legal: `State.modeOk` as a proposition. -/
def Mode.Legal (m : Mode) : Prop :=
  (m.pe = true ∨ m.cpl = 0 ∧ m.vm = false) ∧ (m.vm = true → m.cpl = 3) ∧ (m.pg = true → m.pe = true)

/-- A legal mode with PE set: protected or virtual-8086 mode. -/
def Mode.Guarded (m : Mode) : Prop := m.pe = true ∧ (m.vm = true → m.cpl = 3)

/-- Protected mode (R136), which is legal at every level. -/
def Mode.Protected (m : Mode) : Prop := m.pe = true ∧ m.vm = false

/-- A legal mode at CPL 0, in which alone CR0 may be loaded. -/
def Mode.Privileged (m : Mode) : Prop := m.cpl = 0 ∧ m.vm = false ∧ (m.pg = true → m.pe = true)

theorem Mode.Protected.guarded {m : Mode} (h : m.Protected) : m.Guarded := ⟨h.1, by simp [h.2]⟩

theorem Mode.Guarded.legal {m : Mode} (h : m.Guarded) : m.Legal := ⟨.inl h.1, h.2, fun _ => h.1⟩

theorem Mode.Privileged.legal {m : Mode} (h : m.Privileged) : m.Legal := by
  obtain ⟨hcpl, hvm, hpg⟩ := h
  exact ⟨.inr ⟨hcpl, hvm⟩, by simp [hvm], hpg⟩

theorem Mode.Legal.guarded {m : Mode} (h : m.Legal) (hpe : m.pe = true) : m.Guarded := ⟨hpe, h.2.1⟩

theorem Mode.Legal.privileged {m : Mode} (h : m.Legal) (hcpl : m.cpl = 0) : m.Privileged := by
  obtain ⟨-, hvm, hpg⟩ := h
  refine ⟨hcpl, ?_, hpg⟩
  by_contra hne
  exact absurd (hcpl.symm.trans (hvm (Bool.not_eq_false _ ▸ hne))) (by decide)

/-- The mode of the state has `P`. -/
def Has (P : Mode → Prop) (s : State) : Prop := P s.mode

theorem modeOk_iff (s : State) : s.modeOk = true ↔ Has Mode.Legal s := by
  cases hpe : s.cr0.pe <;> cases hpg : s.cr0.pg <;> cases hvm : s.flags.vm <;>
    simp [State.modeOk, Has, Mode.Legal, State.mode, hpe, hpg, hvm]

theorem protectedMode_has (s : State) : s.protectedMode = true ↔ Has Mode.Protected s := by
  simp [State.protectedMode, Has, Mode.Protected, State.mode]

variable {P Q R : Mode → Prop}

theorem inMode_has {s : State} (hμ : P μ) (hs : InMode μ s) : Has P s := by
  rw [InMode] at hs
  subst hs
  exact hμ

/-- What leaves the mode as it is keeps every property of the mode. -/
theorem keeps_has {x : M α} (hx : ∀ {μ}, Keeps (InMode μ) x) : Keeps (Has P) x := by
  intro s hs
  have h := hx (μ := s.mode) s rfl
  generalize x s = r at h
  cases r <;> exact inMode_has hs h

/-! ## From one mode to another -/

/-- Steps that lead from a state with `p` to one with `q`: where they stop, they have done so or not. -/
def Leads (p q : State → Prop) (x : M α) : Prop :=
  ∀ s, p s → match x s with
    | .ok _ t => q t
    | .error _ t => p t ∨ q t

variable {p q r : State → Prop}

theorem leads_after {x : M α} {f : α → M β} (hx : Keeps p x) (hf : ∀ a, Leads p q (f a)) : Leads p q (x >>= f) := by
  intro s hs
  have h := hx s hs
  rw [M_bind]
  generalize x s = r at h
  cases r with
  | ok a t => exact hf a t h
  | error e t => exact .inl h

theorem leads_then {x : M α} {f : α → M β} (hx : Leads p q x) (hf : ∀ a, Keeps q (f a)) : Leads p q (x >>= f) := by
  intro s hs
  have h := hx s hs
  rw [M_bind]
  generalize x s = r at h
  cases r with
  | error e t => exact h
  | ok a t =>
    have h' := hf a t h
    dsimp only
    generalize f a t = r at h'
    cases r with
    | ok => exact h'
    | error => exact .inr h'

theorem leads_read {f : State → M β} (h : ∀ s, p s → Leads p q (f s)) : Leads p q (get >>= f) := fun s hs => h s hs s hs

theorem leads_modify {f : State → State} (h : ∀ s, p s → q (f s)) : Leads p q (modify f) := fun s hs => h s hs

theorem leads_ite {c : Prop} [Decidable c] {x y : M α} (hx : c → Leads p q x) (hy : ¬c → Leads p q y) :
    Leads p q (if c then x else y) := by
  split
  · exact hx ‹_›
  · exact hy ‹_›

/-- `if b then stop` before the rest. -/
theorem leads_unless {c : Prop} [Decidable c] {x : M Unit} {f : Unit → M β} (hx : Keeps p x) (hf : ∀ a, Leads p q (f
    a)) :
    Leads p q (if c then x >>= f else f ()) := leads_ite (fun _ => leads_after hx hf) fun _ => hf ()

theorem leads_mono {x : M α} (hqr : ∀ s, q s → r s) (hx : Leads p q x) : Leads p r x := by
  intro s hs
  have h := hx s hs
  revert h
  cases x s with
  | ok => exact hqr _
  | error => exact Or.imp_right (hqr _)

/-- Steps that keep a property between `p` and `q`. -/
theorem leads_within {x : M α} (hx : Keeps r x) (hpr : ∀ s, p s → r s) (hrq : ∀ s, r s → q s) : Leads p q x := by
  intro s hs
  have h := hx s (hpr s hs)
  revert h
  cases x s with
  | ok => exact hrq _
  | error => exact fun h => .inr (hrq _ h)

/-- A check has passed in the steps that follow it. -/
theorem leads_requireSel {b : Bool} {v : Byte} {sel : Word16} {f : Unit → M β} (h : b = true → Leads p q (f ())) :
    Leads p q (requireSel b v sel >>= f) := by
  cases b
  · exact fun s hs => .inl hs
  · exact h rfl

theorem inNewTask_leads {x : M α} (hx : Leads p q x) : Leads p q (inNewTask x) := by
  intro s hs
  have h := hx s hs
  simp only [inNewTask]
  generalize x s = r at h
  obtain ⟨_, _⟩ | ⟨e, _⟩ := r
  · exact h
  · cases e <;> exact h

/-- Steps that begin with a read lead on from the very mode of the state read. -/
theorem keeps_readMode {f : State → M β} (h : ∀ s, P s.mode → Leads (InMode s.mode) (Has P) (f s)) :
    Keeps (Has P) (get >>= f) := by
  intro s hs
  have h' := h s hs s rfl
  rw [M_get_bind]
  revert h'
  cases f s s with
  | ok => exact id
  | error e t => exact fun ht => ht.elim (inMode_has hs) id

/-- In mode `μ` with `P`, steps that leave the mode as it is or keep `P`. -/
theorem leads_keeps {x : M α} (hμ : P μ) (hPQ : ∀ m, P m → Q m) (hx : Keeps (Has P) x) :
    Leads (InMode μ) (Has Q) x := leads_within hx (fun _ => inMode_has hμ) fun s => hPQ s.mode

/-! ## Transfers in protected mode -/

theorem loadCs_protected {sel : Word16} {d : Desc} {la : Word32} {cpl : BitVec 2} :
    Keeps (Has Mode.Protected) (loadCs sel d la cpl) :=
  keeps_bind (keeps_has setAccessed_inMode) fun _ => keeps_modify _ _ fun _ h => h

/-- Virtual-8086 mode ends with the change to the inner stack (R648). -/
theorem switchStack_leads {i : InnerStack} {n : BitVec 2} (hP : ∀ m, P m → m.pe = true) :
    Leads (Has P) (Has Mode.Protected) (switchStack i n) :=
  leads_after (keeps_has setAccessed_inMode) fun _ => leads_modify fun s hs => by
    have hpe : s.cr0.pe = true := hP _ hs
    simp [Has, Mode.Protected, State.mode, hpe]

theorem switchStack_protected {i : InnerStack} {n : BitVec 2} : Keeps (Has Mode.Protected) (switchStack i n) := by
  intro s hs
  have h := switchStack_leads (i := i) (n := n) (fun m (hm : m.Protected) => hm.1) s hs
  revert h
  cases switchStack i n s with
  | ok => exact id
  | error => exact fun h => h.elim id id

theorem sameLevel_protected {via : Via} {sz : Size} {sel : Word16} {d : Desc} {la off : Word32} :
    Keeps (Has Mode.Protected) (sameLevel via sz sel d la off) :=
  keeps_bind callRoom_keeps fun _ => keeps_bind require0_keeps fun _ =>
  keeps_bind (keeps_has pushReturn_inMode) fun _ =>
  keeps_read fun _ => keeps_bind loadCs_protected fun _ => keeps_bind (keeps_has branchTo_inMode) fun _ =>
  keeps_pure _ _

theorem innerCall_protected {g : Desc} {csel : Word16} {d : Desc} {la off : Word32} :
    Keeps (Has Mode.Protected) (innerCall g csel d la off) :=
  keeps_read fun _ => keeps_bind (keeps_has innerStack_inMode) fun _ => keeps_bind require0_keeps fun _ =>
  keeps_bind (keeps_has stackItems_inMode) fun _ => keeps_bind switchStack_protected fun _ =>
  keeps_bind (keeps_has pushAll_inMode) fun _ => keeps_bind loadCs_protected fun _ =>
  keeps_bind (keeps_has branchTo_inMode) fun _ => keeps_pure _ _

theorem throughGate_protected {via : Via} {sel : Word16} {g : Desc} :
    Keeps (Has Mode.Protected) (throughGate via sel g) :=
  keeps_read fun _ => keeps_bind requireSel_keeps fun _ => keeps_bind requireSel_keeps fun _ =>
  keeps_bind require0_keeps fun _ => keeps_bind (keeps_has fetchDesc_inMode) fun _ =>
  keeps_bind requireSel_keeps fun _ =>
  keeps_bind requireSel_keeps fun _ => keeps_bind requireSel_keeps fun _ =>
  keeps_ite innerCall_protected sameLevel_protected

theorem returnTo_protected {csel : Word16} {off : Word32} {sz : Size} {used : Nat} {iw : Word16} :
    Keeps (Has Mode.Protected) (returnTo csel off sz used iw) :=
  keeps_read fun _ => keeps_bind (keeps_has returnDesc_inMode) fun _ => keeps_ite
    (keeps_bind require0_keeps fun _ => keeps_bind loadCs_protected fun _ =>
      keeps_bind (keeps_has <| modify_inMode fun _ => State.setSp_mode ..) fun _ => keeps_has branchTo_inMode)
    (keeps_bind requireHeld_keeps fun _ => keeps_bind (keeps_has stackRead_inMode) fun _ =>
      keeps_bind (keeps_has stackRead_inMode) fun _ => keeps_bind require0_keeps fun _ =>
      keeps_bind (keeps_has stackDesc_inMode) fun _ => keeps_bind require0_keeps fun _ =>
      keeps_bind loadCs_protected fun _ => keeps_bind (keeps_has setAccessed_inMode) fun _ =>
      keeps_bind (keeps_has <| modify_inMode fun _ => by cases sz <;> simp [State.outerSp, State.mode]) fun _ =>
      keeps_has branchTo_inMode)

/-! ## The task switch -/

/-- The image of the new task gives CPL 3 in virtual-8086 mode (R520). -/
theorem loadImage_guarded {s : State} (hs : s.cr0.pe = true) (t : TaskImage) (nested : Bool) :
    Has Mode.Guarded (s.loadImage t nested) := ⟨hs, fun h => if_pos h⟩

theorem loadTaskCs_protected {sel : Word16} : Keeps (Has Mode.Protected) (loadTaskCs sel) :=
  keeps_bind requireSel_keeps fun _ => keeps_bind (keeps_has fetchDesc_inMode) fun _ =>
  keeps_bind requireSel_keeps fun _ =>
  keeps_bind requireSel_keeps fun _ => loadCs_protected

theorem loadTaskSs_inMode {sel : Word16} : Keeps (InMode μ) (loadTaskSs sel) :=
  keeps_bind requireSel_keeps fun _ => keeps_read fun _ => keeps_bind stackDesc_inMode fun _ =>
  keeps_bind setAccessed_inMode fun _ => putSeg_inMode

theorem loadTaskData_inMode {r : SReg} {sel : Word16} : Keeps (InMode μ) (loadTaskData r sel) :=
  keeps_ite (keeps_pure _ _) <| keeps_read fun _ => keeps_bind dataDesc_inMode fun _ =>
  keeps_bind setAccessed_inMode fun _ => putSeg_inMode

/-- CS is loaded with a level of its own outside virtual-8086 mode only. -/
theorem loadTaskSegs_guarded : Keeps (Has Mode.Guarded) loadTaskSegs :=
  keeps_readMode fun _ hs => leads_ite
    (fun _ => leads_keeps hs (fun _ => id) <| keeps_modify _ _ fun _ h => h)
    (fun hvm => leads_keeps (P := Mode.Protected) ⟨hs.1, Bool.eq_false_of_not_eq_true hvm⟩
      (fun _ => Mode.Protected.guarded) <|
      keeps_bind loadTaskCs_protected fun _ => keeps_bind (keeps_has loadTaskSs_inMode) fun _ =>
      keeps_bind (keeps_has loadTaskData_inMode) fun _ => keeps_bind (keeps_has loadTaskData_inMode) fun _ =>
      keeps_bind (keeps_has loadTaskData_inMode) fun _ => keeps_has loadTaskData_inMode)

theorem commitSwitch_leads {tsel : Word16} {nd : Desc} {kind : SwitchKind} {ret : Word32} {rf : Bool}
    (hμ : μ.pe = true) : Leads (InMode μ) (Has Mode.Guarded) (commitSwitch tsel nd kind ret rf) :=
  leads_read fun _ _ => leads_after saveTask_inMode fun _ => leads_unless clearBusy_inMode fun _ =>
  leads_unless orDescHigh_inMode fun _ => leads_unless sysWrite_inMode fun _ =>
  leads_after (keeps_modify _ _ fun _ h => h) fun _ =>
  have himage {f : Unit → M Unit} {t : TaskImage} {nested : Bool} (hf : ∀ a, Keeps (Has Mode.Guarded) (f a)) :
      Leads (InMode μ) (Has Mode.Guarded) (modify (fun s => s.loadImage t nested) >>= f) :=
    leads_then (leads_modify fun _ hs => loadImage_guarded ((congrArg Mode.pe hs).trans hμ) _ _) hf
  have hend : Keeps (Has Mode.Guarded) (do
      let s ← get
      require0 (decide (s.eip.toNat ≤ s.cs.limit.toNat)) 13
      if decide (9 ≤ nd.type) then
        let w ← sysRead .w16 (nd.base + 0x64)
        if w.getLsbD 0 then modify fun s => { s with trap := { s.trap with task := true } }) :=
    keeps_read fun _ => keeps_bind require0_keeps fun _ => keeps_ite
      (keeps_bind (keeps_has sysRead_inMode) fun _ => keeps_ite (keeps_modify _ _ fun _ h => h) (keeps_pure _ _))
      (keeps_pure _ _)
  have hrest (t : TaskImage) (nested : Bool) := himage (t := t) (nested := nested) fun _ =>
    keeps_bind (keeps_has loadTaskLdt_inMode) fun _ => keeps_bind loadTaskSegs_guarded fun _ => hend
  leads_ite
    (fun _ => leads_after sysRead_inMode fun _ => leads_after (keeps_modify _ _ fun _ h => h) fun _ =>
      leads_after readTask_inMode fun _ => hrest _ _)
    (fun _ => leads_after readTask_inMode fun _ => hrest _ _)

theorem taskSwitch_leads {tsel : Word16} {kind : SwitchKind} {ret : Word32} {rf : Bool} (hμ : μ.pe = true) :
    Leads (InMode μ) (Has Mode.Guarded) (taskSwitch tsel kind ret rf) :=
  leads_read fun _ _ => leads_after requireSel_keeps fun _ => leads_after readDesc_inMode fun _ =>
  leads_after requireSel_keeps fun _ => leads_after requireSel_keeps fun _ => leads_after requireSel_keeps fun _ =>
  inNewTask_leads (commitSwitch_leads hμ)

/-! ## Far transfers, interrupts and returns -/

theorem toTask_leads {via : Via} {sel : Word16} {d : Desc} (hμ : μ.pe = true) :
    Leads (InMode μ) (Has Mode.Guarded) (toTask via sel d) :=
  leads_read fun _ _ => leads_after requireSel_keeps fun _ => leads_ite
    (fun _ => leads_after requireSel_keeps fun _ => leads_then (taskSwitch_leads hμ) fun _ => keeps_pure _ _)
    (fun _ => leads_then (taskSwitch_leads hμ) fun _ => keeps_pure _ _)

theorem farProtectedSteps_leads {via : Via} {sel : Word16} {off : Word32} (hμ : μ.Protected) :
    Leads (InMode μ) (Has Mode.Guarded) (farProtectedSteps via sel off) :=
  have hkeeps {x : M Retire} (hx : Keeps (Has Mode.Protected) x) : Leads (InMode μ) (Has Mode.Guarded) x :=
    leads_keeps hμ (fun _ => Mode.Protected.guarded) hx
  leads_after require0_keeps fun _ => leads_after fetchDesc_inMode fun _ => leads_read fun _ _ => leads_ite
    (fun _ => hkeeps <| keeps_bind directCode_keeps fun _ => sameLevel_protected) fun _ => leads_ite
    (fun _ => hkeeps throughGate_protected) fun _ => leads_ite (fun _ => toTask_leads hμ.1) fun _ =>
        hkeeps raiseSel_keeps

theorem farSteps_legal {via : Via} {sel : Word16} {off : Word32} : Keeps (Has Mode.Legal) (farSteps via sel off) :=
  keeps_readMode fun s hs => leads_ite
    (fun hp => leads_mono (fun _ => Mode.Guarded.legal) (farProtectedSteps_leads ((protectedMode_has s).1 hp)))
    (fun _ => leads_keeps hs (fun _ => id) (keeps_has farRealSteps_inMode))

theorem callForm_legal {f : CallForm} : Keeps (Has Mode.Legal) (callForm f) := by
  refine keeps_read fun _ => ?_
  cases f
  case farAp => exact farSteps_legal
  case jv => exact keeps_has callNear_inMode
  case ev => exact keeps_has (keeps_bind readSized_inMode fun _ => callNear_inMode)
  case farMp => exact keeps_bind (keeps_has readFar_inMode) fun _ => farSteps_legal

theorem jmpForm_legal {f : JmpForm} : Keeps (Has Mode.Legal) (jmpForm f) := by
  refine keeps_read fun _ => ?_
  cases f
  case farAp => exact farSteps_legal
  case jv | jb => exact keeps_has branchBy_inMode
  case ev => exact keeps_has (keeps_bind readSized_inMode fun _ => nearBranch_inMode)
  case farMp => exact keeps_bind (keeps_has readFar_inMode) fun _ => farSteps_legal

theorem retFar_legal {iw : Word16} : Keeps (Has Mode.Legal) (retFar iw) :=
  keeps_readMode fun s hs => leads_ite
    (fun hp => leads_keeps ((protectedMode_has s).1 hp) (fun _ hm => hm.guarded.legal) <|
      keeps_bind requireHeld_keeps fun _ => keeps_bind (keeps_has stackRead_inMode) fun _ =>
      keeps_bind (keeps_has stackRead_inMode) fun _ => keeps_bind returnTo_protected fun _ => keeps_pure _ _)
    (fun _ => leads_keeps hs (fun _ => id) <| keeps_has <|
      keeps_bind stackRead_inMode fun _ => keeps_bind stackRead_inMode fun _ => keeps_bind requireTarget_keeps fun _ =>
      keeps_bind (modify_inMode fun _ => State.setSp_mode ..) fun _ => keeps_bind farReal_inMode fun _ =>
      keeps_pure _ _)

theorem retForm_legal {f : RetForm} : Keeps (Has Mode.Legal) (retForm f) := by
  cases f
  case nearIw | near => exact keeps_has retNear_inMode
  case farIw | far => exact retFar_legal

theorem enterTask_leads {g : Desc} {ev : Event} (hμ : μ.pe = true) :
    Leads (InMode μ) (Has Mode.Guarded) (enterTask g ev) :=
  leads_read fun _ _ => leads_after requireSel_keeps fun _ => leads_then (taskSwitch_leads hμ) fun _ => by
    split
    · exact keeps_read fun _ => inNewTask_keeps (keeps_has push_inMode)
    · exact keeps_pure _ _

/-- From virtual-8086 mode only an inner level is entered, and the change of the stack ends that mode (R646 to R648). -/
theorem enterGate_leads {g : Desc} {ev : Event} (hμ : μ.pe = true) :
    Leads (InMode μ) (Has Mode.Protected) (enterGate g ev) :=
  have hend {off : Word32} : Keeps (Has Mode.Protected)
      (do modify fun s => { s with flags := s.flags.onEntry (g.type % 2 == 0) }; branchTo off) :=
    keeps_bind (keeps_modify _ _ fun _ h => ⟨h.1, rfl⟩) fun _ => keeps_has branchTo_inMode
  leads_read fun s hs => leads_after require0_keeps fun _ => leads_after fetchDesc_inMode fun _ =>
  leads_after requireSel_keeps fun _ => leads_after requireSel_keeps fun _ => leads_requireSel fun hv86 =>
  leads_unless (keeps_throw _ _) fun _ => leads_ite
    (fun _ => leads_after innerStack_inMode fun _ => leads_after require0_keeps fun _ =>
      leads_then (switchStack_leads (P := (· = μ)) fun _ h => h ▸ hμ) fun _ =>
      keeps_bind (keeps_has pushAll_inMode) fun _ => keeps_when (keeps_modify _ _ fun _ h => h) fun _ =>
      keeps_bind loadCs_protected fun _ => hend)
    (fun hinner =>
      have hpe : s.cr0.pe = true := (congrArg Mode.pe hs).trans hμ
      have hvm : μ.vm = false := by
        rw [← hs.vm]
        simpa [State.v86, hpe, Bool.eq_false_of_not_eq_true hinner] using hv86
      leads_keeps (P := Mode.Protected) ⟨hμ, hvm⟩ (fun _ => id) <|
        keeps_bind requireRoom_keeps fun _ => keeps_bind require0_keeps fun _ =>
        keeps_bind (keeps_has pushAll_inMode) fun _ => keeps_bind loadCs_protected fun _ => hend)

theorem enterProtected_leads {ev : Event} (hμ : μ.pe = true) :
    Leads (InMode μ) (Has Mode.Guarded) (enterProtected ev) :=
  leads_read fun _ _ => leads_unless (keeps_throw _ _) fun _ => leads_after readDesc_inMode fun _ =>
  leads_unless (keeps_throw _ _) fun _ => leads_unless (keeps_throw _ _) fun _ =>
  leads_unless (keeps_throw _ _) fun _ =>
  leads_ite (fun _ => enterTask_leads hμ) fun _ => leads_mono (fun _ => Mode.Protected.guarded) (enterGate_leads hμ)

theorem enter_legal {ev : Event} : Keeps (Has Mode.Legal) (enter ev) := by
  have hend : Keeps (Has Mode.Legal) (do
      if ev.vector == 1 then modify fun s => { s with dr7 := s.dr7 &&& 0xFFFFDFFF }
      modify fun s : State =>
        { s with stale := Stale.none, pfx := Pfx.none, shadow := .none, midRep := false, run := .executing }) :=
    keeps_when (keeps_modify _ _ fun _ h => h) fun _ => keeps_modify _ _ fun _ h => h
  refine keeps_readMode fun s hs => leads_ite (fun _ => ?_) fun hr => ?_
  · exact leads_keeps hs (fun _ => id) (keeps_bind (keeps_has enterReal_inMode) fun _ => hend)
  · have hpe : s.mode.pe = true := by simpa [State.realMode, State.mode] using hr
    exact leads_then (leads_mono (fun _ => Mode.Guarded.legal) (enterProtected_leads hpe)) fun _ => hend

theorem softInt_legal {v : Byte} : Keeps (Has Mode.Legal) (softInt v) :=
  keeps_read fun _ => keeps_bind enter_legal fun _ => keeps_pure _ _

theorem iretV86_leads (hμ : μ.pe = true) : Leads (InMode μ) (Has Mode.Guarded) iretV86 :=
  leads_read fun _ _ => leads_after requireHeld_keeps fun _ => leads_after stackRead_inMode fun _ =>
  leads_after stackRead_inMode fun _ => leads_after stackRead_inMode fun _ => leads_after stackRead_inMode fun _ =>
  leads_after stackRead_inMode fun _ => leads_after stackRead_inMode fun _ => leads_after stackRead_inMode fun _ =>
  leads_after stackRead_inMode fun _ => leads_after stackRead_inMode fun _ =>
  leads_then (leads_modify fun _ hs => ⟨(congrArg Mode.pe hs).trans hμ, fun _ => rfl⟩) fun _ =>
  keeps_has branchTo_inMode

theorem iretProtected_leads {sz : Size} (hμ : μ.Protected) : Leads (InMode μ) (Has Mode.Guarded) (iretProtected sz) :=
  leads_read fun _ hs => leads_ite (fun _ => leads_after sysRead_inMode fun _ => taskSwitch_leads hμ.1) fun _ =>
  leads_after requireHeld_keeps fun _ => leads_after stackRead_inMode fun _ => leads_after stackRead_inMode fun _ =>
  leads_after stackRead_inMode fun _ => leads_ite (fun _ => iretV86_leads hμ.1) fun _ =>
  leads_keeps hμ (fun _ => Mode.Protected.guarded) <|
  keeps_bind returnTo_protected fun _ => keeps_modify _ _ fun _ h => ⟨h.1, hs.vm.trans hμ.2⟩

theorem iretOp_legal : Keeps (Has Mode.Legal) iretOp :=
  have hend : Keeps (Has Mode.Legal) (modify fun s : State => { s with nmiBlocked := false }) :=
    keeps_modify _ _ fun _ h => h
  keeps_readMode fun s hs => leads_ite
    (fun hp => leads_then (leads_mono (fun _ => Mode.Guarded.legal) (iretProtected_leads ((protectedMode_has s).1 hp)))
      fun _ => hend)
    (fun _ => leads_keeps hs (fun _ => id) (keeps_bind (keeps_has iretReal_inMode) fun _ => hend))

/-! ## CR0 -/

/-- After the check of CPL the mode is legal at level 0. -/
theorem requireCpl0_leads : Leads (Has Mode.Legal) (Has Mode.Privileged) requireCpl0 := by
  intro s hs
  rw [requireCpl0, M_get_bind]
  cases hc : s.cpl == 0
  · exact .inl hs
  · exact hs.privileged (eq_of_beq hc)

/-- What follows the check of CPL. -/
theorem keeps_requireCpl0 {f : Unit → M β} (hf : ∀ a, Keeps (Has Mode.Privileged) (f a)) :
    Keeps (Has Mode.Legal) (requireCpl0 >>= f) := by
  intro s hs
  have h := leads_then requireCpl0_leads hf s hs
  revert h
  cases (requireCpl0 >>= f) s with
  | ok => exact fun h => h.legal
  | error => exact fun h => h.elim id fun h => h.legal

theorem loadCr0_privileged {v : Word32} : Keeps (Has Mode.Privileged) (loadCr0 v) := by
  intro s hs
  unfold loadCr0
  cases hv : (!v.getLsbD 31 || v.getLsbD 0)
  · exact hs
  · obtain ⟨hcpl, hvm, -⟩ := hs
    refine ⟨(State.keepMap_cpl ..).trans hcpl, ?_, fun hpg => ?_⟩
    · exact (congrArg EFlags.vm (State.keepMap_flags ..)).trans hvm
    · rw [show v.getLsbD 31 = true from hpg] at hv
      exact hv

theorem movToCr_legal {n r : Fin 8} : Keeps (Has Mode.Legal) (movToCr n r) := by
  unfold movToCr requireNumber
  simp only [bind_assoc]
  refine keeps_bind require_keeps fun _ => keeps_requireCpl0 fun _ => keeps_read fun _ => ?_
  split
  · exact keeps_bind loadCr0_privileged fun _ => keeps_has freeFlags_inMode
  · exact keeps_bind (keeps_modify _ _ fun _ h => h) fun _ => keeps_has freeFlags_inMode
  · exact keeps_bind (keeps_has <| modify_inMode fun _ => by simp [State.mode]) fun _ => keeps_has freeFlags_inMode

theorem movForm_legal {f : MovForm} : Keeps (Has Mode.Legal) (movForm f) := by
  refine keeps_read fun _ => ?_
  cases f
  case ebGb | evGv | ebIb | evIv => exact keeps_has writeRM_inMode
  case gbEb | gvEv => exact keeps_has (keeps_bind readRM_inMode fun _ => putReg_inMode)
  case ewSw => exact keeps_has storeWord_inMode
  case swEw => exact keeps_has movToSeg_inMode
  case alOb | eaxOv => exact keeps_has loadDirect_inMode
  case obAl | ovEax => exact keeps_has storeDirect_inMode
  case r8Ib | rIv => exact keeps_has putReg_inMode
  case r32Cr => exact keeps_has movFromCr_inMode
  case r32Dr => exact keeps_has movFromDr_inMode
  case crR32 => exact movToCr_legal
  case drR32 => exact keeps_has movToDr_inMode
  case r32Tr | trR32 => exact movTest_keeps

/-! ## The end of an instruction -/

theorem deliverDouble_legal {s : State} (hs : Has Mode.Legal s) (ret : Word32) :
    Ends (Has Mode.Legal) (deliverDouble s ret) := by
  unfold deliverDouble
  split
  next h => exact enter_legal.ok hs h
  next h =>
    have ht := enter_legal.error hs h
    split
    · exact ht
    · exact hs
  next => trivial
  next => trivial

theorem deliverFuel_legal {s : State} (hs : Has Mode.Legal s) (ev : Event) (n : Nat) :
    Ends (Has Mode.Legal) (deliverFuel s ev n) := by
  induction n generalizing s ev with
  | zero => exact hs
  | succ n ih =>
    unfold deliverFuel
    split
    next h => exact enter_legal.ok hs h
    next t h =>
      have ht := enter_legal.error hs h
      have hback : Has Mode.Legal (s.rollback t) := hs
      dsimp only
      split
      · exact ht
      · split
        · exact deliverDouble_legal hback _
        · exact ih hback _
    next => trivial
    next => trivial

theorem deliver_legal {s : State} (hs : Has Mode.Legal s) (ev : Event) : Ends (Has Mode.Legal) (deliver s ev) :=
  deliverFuel_legal hs ev 4

theorem conclude_legal {s : State} (hs : Has Mode.Legal s) {r : EStateM.Result Stop State Retire}
    (hok : ∀ a t, r = .ok a t → Has Mode.Legal t) (herror : ∀ e t, r = .error e t → Has Mode.Legal t) :
    Ends (Has Mode.Legal) (conclude s r) := by
  unfold conclude
  split
  next r t =>
    have ht : Has Mode.Legal t := hok _ _ rfl
    exact ht
  next t =>
    have hback : Has Mode.Legal (s.rollback t) := hs
    have ht : Has Mode.Legal t := herror _ _ rfl
    split
    · exact ht
    · split
      · exact deliverDouble_legal hback _
      · exact deliver_legal hback _
  next => trivial
  next => trivial

theorem conclude_error_legal {s t : State} (hs : Has Mode.Legal s) (ht : Has Mode.Legal t) {e : Stop} :
    Ends (Has Mode.Legal) (conclude s (.error e t)) := by
  refine conclude_legal hs (fun _ _ h => ?_) fun _ _ h => ?_
  · cases h
  · cases h
    exact ht

theorem runSteps_legal {s : State} (hs : Has Mode.Legal s) {body : M Retire} (hb : Keeps (Has Mode.Legal) body) :
    Ends (Has Mode.Legal) (runSteps body s) :=
  have hbegun : Has Mode.Legal s.begun := hs
  conclude_legal hs (fun _ _ => hb.ok hbegun) fun _ _ => hb.error hbegun

theorem withLock_legal {s : State} (hs : Has Mode.Legal s) {lockable : Bool} {body : M Unit}
    (hb : Keeps (Has Mode.Legal) body) : Ends (Has Mode.Legal) (withLock lockable body s) :=
  runSteps_legal hs <| keeps_bind checkPrefixes_keeps fun _ => keeps_bind hb fun _ => keeps_pure _ _

theorem plain_legal {s : State} (hs : Has Mode.Legal s) {body : M Unit} (hb : Keeps (Has Mode.Legal) body) :
    Ends (Has Mode.Legal) (plain body s) := withLock_legal hs hb

theorem transfer_legal {s : State} (hs : Has Mode.Legal s) {body : M Retire} (hb : Keeps (Has Mode.Legal) body) :
    Ends (Has Mode.Legal) (transfer body s) := runSteps_legal hs <| keeps_bind checkPrefixes_keeps fun _ => hb

theorem bitString_legal {s : State} (hs : Has Mode.Legal s) {body : M Unit} (hb : Keeps (Has Mode.Legal) body) :
    Ends (Has Mode.Legal) (bitString body s) :=
  runSteps_legal hs <| keeps_read fun _ => keeps_bind require_keeps fun _ => keeps_bind checkPrefixes_keeps fun _ =>
    keeps_bind hb fun _ => keeps_pure _ _

section Ordinary

/-! Instructions that leave the mode as it is. -/

variable {s : State} (hs : Has Mode.Legal s)
include hs

theorem withLock_inMode {lockable : Bool} {body : M Unit} (hb : ∀ {μ}, Keeps (InMode μ) body) :
    Ends (Has Mode.Legal) (withLock lockable body s) := withLock_legal hs (keeps_has hb)

theorem plain_inMode {body : M Unit} (hb : ∀ {μ}, Keeps (InMode μ) body) : Ends (Has Mode.Legal) (plain body s) :=
  plain_legal hs (keeps_has hb)

theorem transfer_inMode {body : M Retire} (hb : ∀ {μ}, Keeps (InMode μ) body) :
    Ends (Has Mode.Legal) (transfer body s) := transfer_legal hs (keeps_has hb)

theorem runSteps_inMode {body : M Retire} (hb : ∀ {μ}, Keeps (InMode μ) body) :
    Ends (Has Mode.Legal) (runSteps body s) := runSteps_legal hs (keeps_has hb)

end Ordinary

/-! ## The instructions -/

theorem exec_legal {s : State} (hs : Has Mode.Legal s) (i : Instr) : Ends (Has Mode.Legal) (exec i s) := by
  cases i
  -- the instructions that may change the mode
  case mov => exact plain_legal hs movForm_legal
  case call => exact transfer_legal hs callForm_legal
  case jmp => exact transfer_legal hs jmpForm_legal
  case ret => exact transfer_legal hs retForm_legal
  case int3 => exact transfer_legal hs softInt_legal
  case int => exact transfer_legal hs (keeps_read fun _ => keeps_bind require0_keeps fun _ => softInt_legal)
  case into => exact transfer_legal hs (keeps_read fun _ => keeps_ite softInt_legal (keeps_pure _ _))
  case iret => exact transfer_legal hs (keeps_bind iretOp_legal fun _ => keeps_pure _ _)
  case lmsw =>
    exact plain_legal hs <| keeps_requireCpl0 fun _ => keeps_bind (keeps_has readRM_inMode) fun _ =>
      keeps_modify _ _ fun _ h => ⟨h.1, h.2.1, fun hpg => Bool.or_eq_true_iff.2 (.inl (h.2.2 hpg))⟩
  -- the others
  case add | adc | sub | sbb | and | or | xor => exact withLock_inMode hs aluForm_inMode
  case cmp => exact plain_inMode hs aluForm_inMode
  case inc | dec => exact withLock_inMode hs (incForm_inMode fun _ _ _ => rfl)
  case neg => exact withLock_inMode hs (keeps_read fun _ => unaryRM_inMode fun _ _ => rfl)
  case not => exact withLock_inMode hs (keeps_read fun _ => modifyRM_inMode fun _ => keeps_pure _ _)
  case mul => exact plain_inMode hs mulForm_inMode
  case imul => exact plain_inMode hs imulForm_inMode
  case div | idiv => exact plain_inMode hs divForm_inMode
  case daa | das => exact plain_inMode hs (adjustAl_inMode fun _ _ _ => rfl)
  case aaa | aas | aad => exact plain_inMode hs (adjustAx_inMode fun _ _ _ => rfl)
  case aam => exact plain_inMode hs (keeps_bind require_keeps fun _ => adjustAx_inMode fun _ _ _ => rfl)
  case test => exact plain_inMode hs testForm_inMode
  case rol | ror | rcl | rcr | shl | shr | sar => exact plain_inMode hs shiftForm_inMode
  case shld | shrd => exact plain_inMode hs shdForm_inMode
  case bt => exact plain_inMode hs bitForm_inMode
  case bts | btr | btc => exact withLock_inMode hs bitForm_inMode
  case bsf | bsr => exact plain_inMode hs scanForm_inMode
  case xbts => exact bitString_legal hs (keeps_has xbtsSteps_inMode)
  case ibts => exact bitString_legal hs (keeps_has ibtsSteps_inMode)
  case movzx | movsx => exact plain_inMode hs movxForm_inMode
  case xchg => exact withLock_inMode hs xchgForm_inMode
  case lds | les | lss | lfs | lgs => exact plain_inMode hs loadFar_inMode
  case lea | cwdCdq => exact plain_inMode hs (keeps_read fun _ => putReg_inMode)
  case cbwCwde =>
    refine plain_inMode hs (keeps_read fun _ => ?_)
    split <;> exact putReg_inMode
  case xlat => exact plain_inMode hs (keeps_read fun _ => keeps_bind lread_inMode fun _ => putReg_inMode)
  case nop => exact plain_inMode hs (keeps_pure _ _)
  case push => exact plain_inMode hs pushForm_inMode
  case pushEs | pushCs | pushSs | pushDs | pushFs | pushGs => exact plain_inMode hs pushSeg_inMode
  case pusha => exact plain_inMode hs (keeps_read fun _ => keeps_bind requireRoom_keeps fun _ => pushAll_inMode)
  case pushf => exact plain_inMode hs (keeps_read fun _ => keeps_bind require0_keeps fun _ => push_inMode)
  case pop => exact plain_inMode hs popForm_inMode
  case popEs | popSs | popDs | popFs | popGs => exact plain_inMode hs popSeg_inMode
  case popa => exact plain_inMode hs popaSteps_inMode
  case popf =>
    exact plain_inMode hs <| keeps_read fun _ => keeps_bind require0_keeps fun _ => keeps_bind pop_inMode fun _ =>
      keeps_modify _ _ fun _ h => h
  case enter => exact plain_inMode hs enterSteps_inMode
  case leave =>
    exact plain_inMode hs <| keeps_bind (modify_inMode fun _ => State.setSp_mode ..) fun _ => keeps_read fun _ =>
      keeps_bind pop_inMode fun _ => putSized_inMode
  case jo | jno | jb | jae | je | jne | jbe | ja | js | jns | jp | jnp | jl | jge | jle | jg =>
    exact transfer_inMode hs jccSteps_inMode
  case loop | loope | loopne => exact transfer_inMode hs loopSteps_inMode
  case jcxz => exact transfer_inMode hs (keeps_read fun _ => branchIf_inMode)
  case bound =>
    exact plain_inMode hs <| keeps_read fun _ => keeps_bind lread_inMode fun _ => keeps_bind lread_inMode fun _ =>
      require_keeps
  case clc | stc | cmc | cld | std => exact plain_inMode hs (modifyFlags_inMode fun _ => rfl)
  case cli =>
    exact plain_inMode hs (keeps_read fun _ => keeps_bind require0_keeps fun _ => modifyFlags_inMode fun _ => rfl)
  case sti =>
    exact plain_inMode hs <| keeps_read fun _ => keeps_bind require0_keeps fun _ =>
      keeps_bind (keeps_modify _ _ fun _ h => h) fun _ => modifyFlags_inMode fun _ => rfl
  case lahf => exact plain_inMode hs (keeps_read fun _ => putReg_inMode)
  case sahf => exact plain_inMode hs (keeps_read fun _ => modifyFlags_inMode fun _ => rfl)
  case seto | setno | setb | setae | sete | setne | setbe | seta | sets | setns | setp | setnp | setl | setge | setle
      | setg =>
    exact plain_inMode hs setByte_inMode
  case movsb | movswD => exact runSteps_inMode hs (memString_inMode movsElement_inMode)
  case cmpsb | cmpswD => exact runSteps_inMode hs (memString_inMode cmpsElement_inMode)
  case scasb | scaswD => exact runSteps_inMode hs (memString_inMode scasElement_inMode)
  case lodsb | lodswD => exact runSteps_inMode hs (memString_inMode lodsElement_inMode)
  case stosb | stoswD => exact runSteps_inMode hs (memString_inMode stosElement_inMode)
  case insb | inswD => exact runSteps_inMode hs (portString_inMode insElement_inMode)
  case outsb | outswD => exact runSteps_inMode hs (portString_inMode outsElement_inMode)
  case inPort f =>
    refine plain_inMode hs (keeps_read fun _ => ?_)
    cases f <;> exact inSteps_inMode
  case outPort f =>
    refine plain_inMode hs (keeps_read fun _ => ?_)
    cases f <;> exact outSteps_inMode
  case hlt => exact plain_inMode hs (keeps_bind requireCpl0_keeps fun _ => keeps_modify _ _ fun _ h => h)
  case lgdt | lidt => exact plain_inMode hs (keeps_bind readTable_inMode fun _ => keeps_modify _ _ fun _ h => h)
  case sgdt | sidt => exact plain_inMode hs (keeps_read fun _ => storeTable_inMode)
  case lldt =>
    exact plain_inMode hs <| keeps_bind requireProtected_keeps fun _ => keeps_bind requireCpl0_keeps fun _ =>
      keeps_bind readRM_inMode fun _ => keeps_ite (keeps_modify _ _ fun _ h => h) <|
      keeps_bind systemDesc_inMode fun _ => keeps_modify _ _ fun _ h => h
  case ltr =>
    exact plain_inMode hs <| keeps_bind requireProtected_keeps fun _ => keeps_bind requireCpl0_keeps fun _ =>
      keeps_bind readRM_inMode fun _ => keeps_bind require0_keeps fun _ => keeps_bind systemDesc_inMode fun _ =>
      keeps_read fun _ => keeps_bind orDescHigh_inMode fun _ => keeps_modify _ _ fun _ h => h
  case sldt | str =>
    exact plain_inMode hs (keeps_bind requireProtected_keeps fun _ => keeps_read fun _ => storeWord_inMode)
  case smsw => exact plain_inMode hs (keeps_read fun _ => storeWord_inMode)
  case clts => exact plain_inMode hs (keeps_bind requireCpl0_keeps fun _ => keeps_modify _ _ fun _ h => h)
  case lar => exact plain_inMode hs (keeps_read fun _ => queryLoad_inMode)
  case lsl => exact plain_inMode hs queryLoad_inMode
  case verr | verw =>
    exact plain_inMode hs <| keeps_bind requireProtected_keeps fun _ => keeps_bind readRM_inMode fun _ =>
      keeps_bind queryDesc_inMode fun _ => putZf_inMode
  case arpl =>
    exact plain_inMode hs <| keeps_bind requireProtected_keeps fun _ => keeps_read fun _ =>
      keeps_bind readRM_inMode fun _ => keeps_ite (keeps_bind writeLoc_inMode fun _ => putZf_inMode) putZf_inMode
  case wait =>
    exact transfer_inMode hs <| keeps_read fun _ => keeps_bind require_keeps fun _ => keeps_ite (keeps_pure _ _) <|
      keeps_ite makeDueStore_inMode <| keeps_bind require_keeps fun _ => keeps_pure _ _
  case escReserved f => cases f <;> exact transfer_inMode hs reservedSteps_keeps
  case prefixEs | prefixCs | prefixSs | prefixDs | prefixFs | prefixGs | prefixOpsize | prefixAdsize | prefixLock
      | prefixRepne | prefixRep =>
    exact hs
  all_goals exact transfer_inMode hs escSteps_inMode

/-! ## The step -/

theorem fetchExec_legal {s : State} (hs : Has Mode.Legal s) : Ends (Has Mode.Legal) (fetchExec s) := by
  have hfetch : Keeps (Has Mode.Legal) fetchInstr := keeps_has fetchFrom_inMode
  unfold fetchExec
  split
  next h => exact exec_legal (hfetch.ok hs h) _
  next h => exact conclude_error_legal (hfetch.ok hs h) (hfetch.ok hs h)
  next => trivial
  next h => exact conclude_error_legal hs (hfetch.error hs h)

theorem startInstr_legal {s : State} (hs : Has Mode.Legal s) : Ends (Has Mode.Legal) (startInstr s) := by
  unfold startInstr
  dsimp only
  split
  · exact deliver_legal (by exact hs) _
  · exact fetchExec_legal (by exact hs)

theorem atBoundary_legal {s : State} (hs : Has Mode.Legal s) : Ends (Has Mode.Legal) (atBoundary s) := by
  have hq : Has Mode.Legal s.settleQuiet := hs
  unfold atBoundary
  split
  · exact deliver_legal (by exact hs) _
  · dsimp only
    split
    · split
      · exact deliver_legal (by exact hq) _
      · exact hq
    · split
      · exact deliver_legal (by exact hq) _
      · split
        · exact deliver_legal (by exact hq) _
        · split
          · exact deliver_legal (by exact hq) _
          · split
            · exact hq
            · exact startInstr_legal hq

theorem runStep_legal {s : State} (hs : Has Mode.Legal s) : Ends (Has Mode.Legal) (runStep s) := by
  unfold runStep
  split
  · split
    · trivial
    · exact inMode_has hs s.copStored_mode
  · split
    · exact atBoundary_legal hs
    · exact fetchExec_legal hs

/-- Every step keeps the mode legal. -/
theorem step_legal {s : State} (hs : Has Mode.Legal s) : Ends (Has Mode.Legal) (step s) := by
  have ht : Has Mode.Legal ({ s with tick := s.tick + 1 } : State).turned := inMode_has hs (State.turned_mode _)
  unfold step stepOnce
  dsimp only
  split
  · exact (modeOk_iff _).1 rfl
  · split
    · exact ht
    · exact runStep_legal ht

end Sys2Proof.Machine

open Sys2Proof Sys2Proof.Machine

/-- Settles O6: CPL and VM change together only in protected and virtual-8086 mode, and CR0 is loaded at CPL 0 only. -/
theorem modeStaysLegal : Obligations.ModeStaysLegal := by
  unfold Obligations.ModeStaysLegal
  intro s t hs hst
  have ht := step_legal ((modeOk_iff s).1 hs)
  rw [hst] at ht
  exact (modeOk_iff t).2 ht
end

section
/-!
PROOF. Segment checks: which offsets and rights they refuse, in numbers, and the exception they raise before anything is
accessed. It settles O13.
-/
namespace Sys2Proof.Machine

/-! ## The checks in numbers -/

theorem hasRights_eq_false_iff (g : SegReg) (write : Bool) :
    hasRights g write = false ↔
      (write = true ∧ (g.code = true ∨ g.writable = false)) ∨ (write = false ∧ g.readable = false) := by
  cases write <;> simp [hasRights, Classical.or_iff_not_imp_left]

theorem inLimit_eq_false_iff (g : SegReg) (off : Word32) (n : Nat) :
    inLimit g off n = false ↔
      if g.code = false ∧ g.ec = true then
        off.toNat ≤ g.limit.toNat ∨ (if g.db = true then 0xFFFFFFFF < off.toNat + n - 1 else 0xFFFF < off.toNat + n - 1)
      else g.limit.toNat < off.toNat + n - 1 := by
  unfold inLimit
  generalize off.toNat + n - 1 = last
  cases g.code <;> cases g.ec <;> cases g.db <;> simp [Classical.or_iff_not_imp_left]

theorem inReach_eq_false_iff (s : State) (g : SegReg) (off : Word32) (n : Nat) :
    s.inReach g off n = false ↔ inLimit g off n = false ∨ (s.realMode = true ∧ 0xFFFF < off.toNat + n - 1) := by
  unfold State.inReach
  generalize off.toNat + n - 1 = last
  cases inLimit g off n <;> cases s.realMode <;> simp

/-- One of the three checks of R140 fails. -/
theorem segAllows_eq_false_iff (s : State) (r : SReg) (off : Word32) (n : Nat) (write : Bool) :
    s.segAllows r off n write = false ↔
      (s.realMode = false ∧ ((s.seg r).usable = false ∨ hasRights (s.seg r) write = false)) ∨
        s.inReach (s.seg r) off n = false := by
  unfold State.segAllows
  cases s.realMode <;> cases (s.seg r).usable <;> cases hasRights (s.seg r) write <;> simp

/-! ## The exception -/

section Refused

variable {s : State} {r : SReg} {off : Word32} {n : Nat} {write : Bool} (h : s.segAllows r off n write = false)
include h

theorem segCheck_refused : segCheck r off n write s = .error (checkStop (segVector r) 0) s := by
  unfold segCheck
  rw [M_get_bind]
  unfold State.segAllows at h
  simp only [M_bind, require0_run]
  cases h1 : (s.realMode || (s.seg r).usable)
  · rfl
  · cases h2 : (s.realMode || hasRights (s.seg r) write)
    · rfl
    · rw [h1, h2, Bool.true_and, Bool.true_and] at h
      rw [h]
      rfl

theorem accessAddrs_refused : accessAddrs r off n write s = .error (checkStop (segVector r) 0) s :=
  M_bind_error (segCheck_refused h)

theorem checkAccess_refused : checkAccess r off n write s = .error (checkStop (segVector r) 0) s :=
  M_bind_error (accessAddrs_refused h)

end Refused

theorem lreadBytes_refused {s : State} {r : SReg} {off : Word32} {n : Nat} (h : s.segAllows r off n false = false) :
    lreadBytes r off n s = .error (checkStop (segVector r) 0) s :=
  (M_get_bind _ _).trans (M_bind_error (accessAddrs_refused h))

theorem lwriteBytes_refused {s : State} {r : SReg} {off : Word32} {bs : List Byte}
    (h : s.segAllows r off bs.length true = false) : lwriteBytes r off bs s = .error (checkStop (segVector r) 0) s :=
  (M_get_bind _ _).trans (M_bind_error (accessAddrs_refused h))

theorem readRM_refused {s : State} {w : Width} {m : MemOp} {r : SReg} {off : Word32} (hm : s.ea m = (r, off))
    (h : s.segAllows r off w.bytes false = false) :
    readRM w (.mem m) s = .error (checkStop (segVector r) 0) s := by
  have hl : s.locate (.mem m) = .mem r off := by rw [State.locate, hm]
  rw [readRM, M_get_bind, hl]
  exact M_bind_error (lreadBytes_refused h)

/-- A move from memory whose segment checks fail. -/
theorem exec_movFromMem_refused {s : State} {w : Width} {m : MemOp} {r : SReg} {off : Word32} (d : Fin 8)
    (hp : s.prefixesOk false) (hw : w = .w8 ∨ w = s.osz.width) (hm : s.ea m = (r, off))
    (h : s.segAllows r off w.bytes false = false) :
    exec (.mov (if w = .w8 then .gbEb d (.mem m) else .gvEv d (.mem m))) s =
      deliver s (s.faultEvent (segVector r) (some 0)) := by
  have hv : segVector r ≠ 8 := by cases r <;> decide
  have hread : readRM w (.mem m) s.begun = _ := readRM_refused (s := s.begun) hm h
  refine plain_refused hp hv ?_
  rw [movForm, M_get_bind]
  split
  next hb =>
    subst hb
    exact M_bind_error hread
  next hb =>
    obtain rfl := hw.resolve_left hb
    exact M_bind_error hread

end Sys2Proof.Machine

open Sys2Proof Sys2Proof.Machine

/-- Settles O13: each of the three checks of R140 in numbers, and none of the accesses goes on where one fails. -/
theorem segmentFaults : Obligations.SegmentFaults := by
  unfold Obligations.SegmentFaults
  refine ⟨fun s r off n write _ => ?_, fun s r off n write h => ?_⟩
  · dsimp only
    rw [segAllows_eq_false_iff, hasRights_eq_false_iff, inReach_eq_false_iff, inLimit_eq_false_iff,
      or_comm (b := s.realMode = true ∧ _)]
  · refine ⟨checkAccess_refused h, fun hw => ?_, fun hw bs hn => ?_, fun w m d hw hn hm hv hp => ?_⟩
    · subst hw
      exact lreadBytes_refused h
    · subst hw hn
      exact lwriteBytes_refused h
    · subst hw hn
      exact exec_movFromMem_refused d hp hv hm h
end

section
/-!
PROOF. Selectors and descriptors: the steps that check a selector are the list of checks of its rule, one after the other,
with paging off; and the loads of segment registers. The lemmas serve the loads of segment registers and the task switch.
-/
namespace Sys2Proof.Machine

open Sys2Proof.Claims

variable {α β : Type}

/-! ## Lists of checks -/

/-- The checks of a list are made in state `s`: the first that fails is the exception, and where none does the result is
`r`. -/
def afterChecks (l : List Check) (s : State) (r : EStateM.Result Stop State α) : EStateM.Result Stop State α :=
  match firstFailing l with
  | none => r
  | some e => .error (checkStop e.1 e.2) s

theorem firstFailing_cons (b : Bool) (e : Byte × Word32) (l : List Check) :
    firstFailing ((b, e) :: l) = if b then firstFailing l else some e := by
  cases b <;> rfl

theorem mem_of_firstFailing {l : List Check} {e : Byte × Word32} (h : firstFailing l = some e) : (false, e) ∈ l := by
  induction l with
  | nil => cases h
  | cons c l ih =>
    obtain ⟨b, e'⟩ := c
    rw [firstFailing_cons] at h
    cases b
    · cases h
      exact List.mem_cons_self
    · exact List.mem_cons_of_mem _ (ih h)

theorem afterChecks_nil (s : State) (r : EStateM.Result Stop State α) : afterChecks [] s r = r := rfl

theorem afterChecks_cons (b : Bool) (v : Byte) (c : Word32) (l : List Check) (s : State)
    (r : EStateM.Result Stop State α) :
    afterChecks ((b, v, c) :: l) s r = if b then afterChecks l s r else .error (checkStop v c) s := by
  cases b <;> rfl

theorem afterChecks_of_none {l : List Check} (h : firstFailing l = none) (s : State)
    (r : EStateM.Result Stop State α) : afterChecks l s r = r := by rw [afterChecks, h]

theorem afterChecks_of_some {l : List Check} {e : Byte × Word32} (h : firstFailing l = some e) (s : State)
    (r : EStateM.Result Stop State α) : afterChecks l s r = .error (checkStop e.1 e.2) s := by rw [afterChecks, h]

/-- What comes after steps that make checks comes after the checks. -/
theorem bind_afterChecks {x : M α} {l : List Check} {s : State} {r : EStateM.Result Stop State α}
    (h : x s = afterChecks l s r) (f : α → M β) :
    (x >>= f) s = afterChecks l s (match r with
      | .ok a t => f a t
      | .error e t => .error e t) := by
  rw [M_bind, h]
  unfold afterChecks
  cases firstFailing l <;> rfl

theorem requireSel_bind (b : Bool) (v : Byte) (sel : Word16) (f : Unit → M β) (s : State) :
    (requireSel b v sel >>= f) s = if b then f () s else .error (checkStop v (selCode sel)) s := by
  rw [M_bind, requireSel_run, selectorCode_eq]
  cases b <;> rfl

theorem require0_bind (b : Bool) (v : Byte) (f : Unit → M β) (s : State) :
    (require0 b v >>= f) s = if b then f () s else .error (checkStop v 0) s := by
  rw [M_bind, require0_run]
  cases b <;> rfl

/-! ## Descriptors -/

/-- The address of the descriptor a selector names; for a selector outside its table it does not count. -/
def namedAddr (s : State) (sel : Word16) : Word32 := (s.descAddr sel).getD 0

theorem namedDesc_of_some {s : State} {sel : Word16} {la : Word32} (h : s.descAddr sel = some la) :
    namedDesc s sel = descAt s la := by rw [namedDesc, h]

theorem namedAddr_of_some {s : State} {sel : Word16} {la : Word32} (h : s.descAddr sel = some la) :
    namedAddr s sel = la := by rw [namedAddr, h, Option.getD_some]

theorem fetchDesc_checks {s : State} (h : s.flat = true) (v : Byte) (sel : Word16) :
    fetchDesc v sel s =
      afterChecks [((s.descAddr sel).isSome, v, selCode sel)] s (.ok (namedDesc s sel, namedAddr s sel) s) := by
  rw [fetchDesc_flat h, afterChecks_cons, afterChecks_nil, selectorCode_eq, namedDesc, namedAddr]
  cases s.descAddr sel <;> rfl

/-- The checks on the selector of a stack segment (R145). -/
theorem stackDesc_checks {s : State} (h : s.flat = true) (v : Byte) (n : BitVec 2) (sel : Word16) :
    stackDesc v n sel s = afterChecks (stackChecks s v n sel) s (.ok (namedDesc s sel, namedAddr s sel) s) := by
  rw [stackDesc, bind_afterChecks (fetchDesc_checks h v sel), stackChecks]
  simp only [afterChecks_cons, afterChecks_nil, requireSel_bind, M_pure, Bool.and_eq_true]
  cases selRpl sel == n <;> cases (namedDesc s sel).writable <;> cases (namedDesc s sel).dpl == n <;> rfl

/-- The checks on the selector of a data segment (R145). -/
theorem dataDesc_checks {s : State} (h : s.flat = true) (v : Byte) (sel : Word16) :
    dataDesc v s.cpl sel s = afterChecks (dataChecks s v sel) s (.ok (namedDesc s sel, namedAddr s sel) s) := by
  rw [dataDesc, bind_afterChecks (fetchDesc_checks h v sel), dataChecks]
  simp only [afterChecks_cons, afterChecks_nil, requireSel_bind, M_pure]

theorem sysWrite_flat {s : State} (h : s.flat = true) (w : Width) (la : Word32) (v : BitVec w.bits) :
    sysWrite w la v s = .ok () (withField s w la v) := by
  rw [sysWrite, linWrite_flat (flat_pg h) (flat_masters h), bytesOf_length, withField]

theorem byteAddrs_four (la : Word32) : byteAddrs la 4 = dwordAddrs la := by
  simp [byteAddrs, dwordAddrs, List.range_succ]

theorem withField_dword (s : State) (la v : Word32) : withField s .w32 la v = s.setPhysDword la v := by
  rw [withField, State.setPhysDword, ← byteAddrs_four]

theorem fieldAt_dword (s : State) (la : Word32) : Claims.fieldAt s .w32 la = s.physDword la := by
  rw [Claims.fieldAt, State.physDword, ← byteAddrs_four]
  rfl

theorem sysRead_field {s : State} (h : s.flat = true) (w : Width) (la : Word32) :
    sysRead w la s = .ok (Claims.fieldAt s w la) s := sysRead_flat h w la

/-- A read and a write of a double word as one locked sequence. -/
theorem locked_update_flat {s : State} (h : s.flat = true) (la : Word32) (f : Word32 → Word32) :
    locked (do let v ← sysRead .w32 la; sysWrite .w32 la (f v)) s =
      .ok () (withField s .w32 la (f (Claims.fieldAt s .w32 la))) := by
  have hm := flat_masters h
  refine locked_alone hm ?_ ((M_bind_ok (sysRead_field h .w32 la)).trans (sysWrite_flat h .w32 la _))
  rw [withField, State.setPhysBytes_masters, hm]

theorem orDescHigh_flat {s : State} (h : s.flat = true) (la bits : Word32) :
    orDescHigh la bits s = .ok () (withField s .w32 (la + 4) (Claims.fieldAt s .w32 (la + 4) ||| bits)) :=
  locked_update_flat h (la + 4) (· ||| bits)

theorem clearDescHigh_flat {s : State} (h : s.flat = true) (la bits : Word32) :
    clearDescHigh la bits s = .ok () (withField s .w32 (la + 4) (Claims.fieldAt s .w32 (la + 4) &&& ~~~bits)) :=
  locked_update_flat h (la + 4) (· &&& ~~~bits)

theorem setAccessed_flat {s : State} (h : s.flat = true) (d : Desc) (la : Word32) :
    setAccessed d la s = .ok () (accessedSet s d la) := by
  unfold setAccessed accessedSet
  split
  · rfl
  · rw [orDescHigh_flat h, withField_dword, fieldAt_dword]

theorem markAccessed_eq (s : State) (la : Word32) : markAccessed s la = accessedSet s (descAt s la) la := rfl

/-! ## Loads of segment registers -/

theorem afterSegLoad_null {s : State} {r : SReg} {sel : Word16} (hp : s.protectedMode = true)
    (hn : selNull sel = true) :
    afterSegLoad s r sel = s.setSeg r { s.seg r with selector := sel, usable := false } := by
  obtain ⟨hpe, hvm⟩ := (protectedMode_iff s).1 hp
  simp [afterSegLoad, State.realMode, State.v86, hpe, hvm, hn]

/-- A selector that names a descriptor loads the segment register from it, and marks it accessed. -/
theorem afterSegLoad_named {s : State} {r : SReg} {sel : Word16} {la : Word32} (hp : s.protectedMode = true)
    (hn : selNull sel = false) (ha : s.descAddr sel = some la) :
    afterSegLoad s r sel = (accessedSet s (descAt s la) la).setSeg r ((descAt s la).toSeg sel) := by
  obtain ⟨hpe, hvm⟩ := (protectedMode_iff s).1 hp
  simp [afterSegLoad, State.realMode, State.v86, hpe, hvm, hn, ha, markAccessed_eq]

/-- The end of a load: the descriptor becomes accessed, the register takes it. -/
theorem setAccessed_putSeg_flat {s : State} {r : SReg} {sel : Word16} (hf : s.flat = true)
    (hp : s.protectedMode = true) (hn : selNull sel = false) (ha : (s.descAddr sel).isSome = true) :
    (do setAccessed (namedDesc s sel) (namedAddr s sel); putSeg r ((namedDesc s sel).toSeg sel) : M Unit) s =
      .ok () (afterSegLoad s r sel) := by
  obtain ⟨la, hla⟩ := Option.isSome_iff_exists.1 ha
  rw [M_bind_ok (setAccessed_flat hf _ _), afterSegLoad_named hp hn hla, namedDesc_of_some hla, namedAddr_of_some hla]
  rfl

/-- A load of a segment register from a selector that is not null, its checks being `l`. -/
theorem checked_load {s : State} {r : SReg} {sel : Word16} {x : M (Desc × Word32)} {v : Byte} {c : Word32}
    {l : List Check} (hf : s.flat = true) (hp : s.protectedMode = true) (hn : selNull sel = false)
    (hx : x s = afterChecks (((s.descAddr sel).isSome, v, c) :: l) s (.ok (namedDesc s sel, namedAddr s sel) s)) :
    (do let (d, la) ← x; setAccessed d la; putSeg r (d.toSeg sel) : M Unit) s =
      afterChecks (((s.descAddr sel).isSome, v, c) :: l) s (.ok () (afterSegLoad s r sel)) := by
  refine (bind_afterChecks hx _).trans ?_
  rw [afterChecks_cons, afterChecks_cons]
  split
  next ha => exact congrArg (afterChecks l s) (setAccessed_putSeg_flat hf hp hn ha)
  next => rfl

/-- `LoadSeg` in protected mode. -/
theorem loadSeg_protected {s : State} {r : SReg} {sel : Word16} (hp : s.protectedMode = true) :
    loadSeg r sel s = (if selNull sel then do
        require0 (r != .ss) 13
        putSeg r { s.seg r with selector := sel, usable := false }
      else do
        let (d, la) ← if r = .ss then stackDesc 13 s.cpl sel else dataDesc 13 s.cpl sel
        setAccessed d la
        putSeg r (d.toSeg sel) : M Unit) s := by
  obtain ⟨hpe, hvm⟩ := (protectedMode_iff s).1 hp
  rw [loadSeg, M_get_bind, if_neg (by simp [State.realMode, hpe]), if_neg (by simp [State.v86, hvm])]

/-- In real and in virtual-8086 mode every selector is loaded (R135). -/
theorem loadSeg_unprotected {s : State} {r : SReg} {sel : Word16} (hp : s.protectedMode = false) :
    loadSeg r sel s = .ok () (afterSegLoad s r sel) := by
  rw [loadSeg, M_get_bind, afterSegLoad]
  cases hr : s.realMode
  · have hv86 : s.v86 = true := by
      have hpe : s.cr0.pe = true := by simpa [State.realMode] using hr
      simpa [State.protectedMode, State.v86, hpe] using hp
    rw [hv86]
    rfl
  · rfl

/-- `LoadSeg` in protected mode makes the checks of R145, and then loads the register. -/
theorem loadSeg_checks {s : State} {r : SReg} {sel : Word16} (hf : s.flat = true) (hp : s.protectedMode = true) :
    loadSeg r sel s = afterChecks (segChecks s r sel) s (.ok () (afterSegLoad s r sel)) := by
  rw [loadSeg_protected hp, segChecks]
  cases hn : selNull sel
  · by_cases hr : r = .ss
    · simp only [hr, if_true, if_false, Bool.false_eq_true]
      exact checked_load hf hp hn (stackDesc_checks hf 13 s.cpl sel)
    · simp only [hr, if_false, Bool.false_eq_true]
      exact checked_load hf hp hn (dataDesc_checks hf 13 sel)
  · rw [afterSegLoad_null hp hn]
    cases r <;> rfl

theorem firstFailing_isNone (l : List Check) : (firstFailing l).isNone = l.all fun c => c.1 := by
  induction l with
  | nil => rfl
  | cons c l ih =>
    rw [firstFailing_cons, List.all_cons, ← ih]
    cases c.1 <;> rfl

/-- The selectors that `LoadSeg` accepts in protected mode are those for which no check of R145 fails. -/
theorem segLoads_eq {s : State} (r : SReg) (sel : Word16) (hf : s.flat = true) (hp : s.protectedMode = true) :
    segLoads s r sel = (firstFailing (segChecks s r sel)).isNone := by
  rw [firstFailing_isNone]
  unfold segLoads segChecks
  rw [hp]
  cases hn : selNull sel
  · by_cases hr : r = .ss
    · simp only [hr, stackChecks, namedDesc]
      cases s.descAddr sel <;> simp [descLoads, hf, Bool.and_assoc]
    · simp only [hr, dataChecks, namedDesc]
      cases s.descAddr sel <;> simp [descLoads, hf, hr, Bool.and_assoc]
  · cases r <;> rfl

/-- `LoadSeg` completes, in every mode. -/
theorem loadSeg_run {s : State} {r : SReg} {sel : Word16} (h : segLoads s r sel = true) :
    loadSeg r sel s = .ok () (afterSegLoad s r sel) := by
  cases hp : s.protectedMode
  · exact loadSeg_unprotected hp
  · cases hn : selNull sel
    · have hflat : s.flat = true := by
        revert h
        unfold segLoads
        rw [hp, hn]
        cases s.descAddr sel <;> simp +contextual
      rw [segLoads_eq r sel hflat hp, Option.isNone_iff_eq_none] at h
      rw [loadSeg_checks hflat hp, afterChecks_of_none h]
    · have hr : (r != .ss) = true := by simpa [segLoads, hp, hn] using h
      rw [loadSeg_protected hp, afterSegLoad_null hp hn, hn, if_pos rfl, require0_bind, hr]
      rfl

end Sys2Proof.Machine
end

section
/-!
PROOF. The layout of selectors, descriptors and gates in numbers, and the instructions that load segment registers. It
settles O31.
-/
namespace Sys2Proof.Machine

open Sys2Proof.Claims

/-! ## Layouts in numbers -/

theorem getLsbD_eq_div {n : Nat} (x : BitVec n) (k : Nat) : x.getLsbD k = (x.toNat / 2 ^ k % 2 == 1) := by
  rw [BitVec.getLsbD, Nat.testBit_eq_decide_div_mod_eq]
  rfl

theorem extractLsb'_toNat_div {n : Nat} (x : BitVec n) (k m : Nat) :
    (x.extractLsb' k m).toNat = x.toNat / 2 ^ k % 2 ^ m := by
  rw [BitVec.extractLsb'_toNat, Nat.shiftRight_eq_div_pow]

/-- Two fields side by side. -/
theorem append_toNat {n m : Nat} (x : BitVec n) (y : BitVec m) : (x ++ y).toNat = x.toNat * 2 ^ m + y.toNat := by
  rw [BitVec.toNat_append, ← Nat.shiftLeft_add_eq_or_of_lt y.isLt, Nat.shiftLeft_eq]

theorem Desc.base_toNat (d : Desc) : d.base.toNat = d.toNat / 2 ^ 56 * 2 ^ 24 + d.toNat / 2 ^ 16 % 2 ^ 24 := by
  have := d.isLt
  rw [Desc.base, append_toNat, extractLsb'_toNat_div, extractLsb'_toNat_div, Nat.mod_eq_of_lt (by omega)]

theorem Desc.limit_toNat (d : Desc) :
    let raw := d.toNat / 2 ^ 48 % 2 ^ 4 * 2 ^ 16 + d.toNat % 2 ^ 16
    d.limit.toNat = if d.toNat / 2 ^ 55 % 2 == 1 then raw * 4096 + 4095 else raw := by
  intro raw
  have hraw : (d.extractLsb' 48 4 ++ d.extractLsb' 0 16).toNat = raw := by
    rw [append_toNat, extractLsb'_toNat_div, extractLsb'_toNat_div, pow_zero, Nat.div_one]
  unfold Desc.limit
  rw [getLsbD_eq_div]
  dsimp only
  split
  · rw [append_toNat, hraw]
    rfl
  · rw [BitVec.toNat_setWidth, hraw]
    omega

theorem Desc.type_eq (d : Desc) : d.type = d.toNat / 2 ^ 40 % 16 := extractLsb'_toNat_div d 40 4

theorem gateOffset_s16_toNat (g : Desc) : (gateOffset g .s16).toNat = g.toNat % 2 ^ 16 := by
  rw [gateOffset, BitVec.toNat_setWidth, extractLsb'_toNat_div]
  omega

theorem gateOffset_s32_toNat (g : Desc) :
    (gateOffset g .s32).toNat = g.toNat / 2 ^ 48 * 2 ^ 16 + g.toNat % 2 ^ 16 := by
  have := g.isLt
  rw [gateOffset, append_toNat, extractLsb'_toNat_div, extractLsb'_toNat_div]
  omega

theorem gateSize_eq (g : Desc) : gateSize g = if 12 ≤ g.toNat / 2 ^ 40 % 16 then .s32 else .s16 := by
  rw [gateSize, Desc.type_eq]

theorem selIndex_eq (sel : Word16) : selIndex sel = sel.toNat / 8 := by
  have := sel.isLt
  rw [selIndex, extractLsb'_toNat_div]
  omega

theorem selLocal_eq (sel : Word16) : selLocal sel = (sel.toNat / 4 % 2 == 1) := getLsbD_eq_div sel 2

theorem selRpl_toNat (sel : Word16) : (selRpl sel).toNat = sel.toNat % 4 := by
  rw [selRpl, extractLsb'_toNat_div, pow_zero, Nat.div_one]
  rfl

theorem selNull_eq (sel : Word16) : selNull sel = decide (sel.toNat < 4) := by
  have := sel.isLt
  rw [selNull, beq_eq_toNat_beq, extractLsb'_toNat_div]
  exact decide_eq_decide.2 (by rw [show (0 : BitVec 14).toNat = 0 from rfl]; omega)

theorem gdtAddr_eq (s : State) (sel : Word16) : s.gdtAddr sel = s.gdtr.base + BitVec.ofNat 32 (sel.toNat / 8 * 8) := by
  rw [State.gdtAddr, selIndex_eq, Nat.mul_comm]

theorem inGdt_iff (s : State) (sel : Word16) :
    s.inGdt sel = true ↔ 4 ≤ sel.toNat ∧ sel.toNat / 4 % 2 = 0 ∧ sel.toNat / 8 * 8 + 7 ≤ s.gdtr.limit.toNat := by
  simp only [State.inGdt, selNull_eq, selLocal_eq, selIndex_eq, Bool.and_eq_true, Bool.not_eq_true', decide_eq_true_eq,
    decide_eq_false_iff_not, beq_eq_false_iff_ne]
  omega

theorem descAddr_eq (s : State) (sel : Word16) : s.descAddr sel =
    if sel.toNat / 4 % 2 = 1 then
      (if s.ldtr.valid = true ∧ sel.toNat / 8 * 8 + 7 ≤ s.ldtr.limit.toNat then
        some (s.ldtr.base + BitVec.ofNat 32 (sel.toNat / 8 * 8)) else none)
    else if sel.toNat / 8 * 8 + 7 ≤ s.gdtr.limit.toNat then
      some (s.gdtr.base + BitVec.ofNat 32 (sel.toNat / 8 * 8)) else none := by
  simp only [State.descAddr, selLocal_eq, selIndex_eq, beq_iff_eq, Bool.and_eq_true, decide_eq_true_eq,
    Nat.mul_comm 8]

theorem v86Base (sel : Word16) : sel.zeroExtend 32 <<< 4 = BitVec.ofNat 32 (16 * sel.toNat) := by
  apply BitVec.eq_of_toNat_eq
  simp only [BitVec.truncate_eq_setWidth, BitVec.toNat_shiftLeft, BitVec.toNat_setWidth, BitVec.toNat_ofNat,
    Nat.shiftLeft_eq]
  have := sel.isLt
  omega

theorem lvlLe_iff (a b : BitVec 2) : lvlLe a b = true ↔ a.toNat ≤ b.toNat := decide_eq_true_iff

theorem privOk_iff (cpl : BitVec 2) (sel : Word16) (d : Desc) :
    privOk cpl sel d = true ↔ cpl.toNat ≤ d.dpl.toNat ∧ sel.toNat % 4 ≤ d.dpl.toNat := by
  rw [privOk, Bool.and_eq_true, lvlLe_iff, lvlLe_iff, selRpl_toNat]

theorem seg_setSeg_same (s : State) (r : SReg) (g : SegReg) : (s.setSeg r g).seg r = g := by cases r <;> rfl

theorem seg_setSeg_other (s : State) {r q : SReg} (g : SegReg) (h : q ≠ r) : (s.setSeg r g).seg q = s.seg q := by
  cases r <;> cases q <;> first | rfl | exact absurd rfl h

/-! ## Far pointers in memory -/

theorem canAccess_congr {s t : State} (hc : t.cr0 = s.cr0) (hm : t.masters = s.masters) (hs : ∀ r, t.seg r = s.seg r)
    (r : SReg) (off : Word32) (n : Nat) (w : Bool) : t.canAccess r off n w = s.canAccess r off n w := by
  simp only [State.canAccess, State.flat, segAllows_congr hc hs, hc, hm]

theorem farReadable_begun (s : State) (m : MemOp) : farReadable s.begun m = farReadable s m := by
  have h := canAccess_congr (s := s) (t := s.begun) rfl rfl (seg_begun s)
  exact congrArg₂ and (h ..) (h ..)

theorem operand_afterLoad (s : State) (w : Width) (r q : SReg) (off at' : Word32) (n : Nat) :
    (s.afterLoad q at' n).operand w r off = s.operand w r off := by
  rw [State.operand, State.operandBytes, seg_afterLoad]
  rfl

theorem readFar_flat {s : State} {m : MemOp} (h : farReadable s m = true) :
    readFar m s = .ok (farPointer s m) (afterFar s m) := by
  simp only [farReadable, Bool.and_eq_true] at h
  obtain ⟨h1, h2⟩ := h
  have hw : s.osz.bytes = s.osz.width.bytes := by cases s.osz <;> rfl
  have h1' : s.canAccess (s.ea m).1 (s.ea m).2 s.osz.width.bytes false = true := by rw [← hw]; exact h1
  have h2' : (s.afterLoad (s.ea m).1 (s.ea m).2 s.osz.width.bytes).canAccess (s.ea m).1
      ((s.ea m).2 + BitVec.ofNat 32 s.osz.bytes) Width.w16.bytes false = true := by
    rw [canAccess_congr rfl rfl (fun r => seg_afterLoad s _ r _ _)]
    exact h2
  rw [readFar, M_get_bind]
  refine (M_bind_ok (lread_flat h1')).trans ((M_bind_ok (lread_flat h2')).trans ?_)
  rw [M_pure, operand_afterLoad, ← hw]
  rfl

/-! ## The instructions -/

/-- What the checks of a selector look at is not changed by a read of the selector. -/
theorem segLoads_afterRead (s : State) (l : Loc) (r : SReg) (sel : Word16) :
    segLoads (s.begun.afterRead .w16 l) r sel = segLoads s r sel := by cases l <;> rfl

theorem segChecks_afterRead (s : State) (l : Loc) (r : SReg) (sel : Word16) :
    segChecks (s.begun.afterRead .w16 l) r sel = segChecks s r sel := by cases l <;> rfl

theorem segLoads_afterFar (s : State) (m : MemOp) (r : SReg) (sel : Word16) :
    segLoads (afterFar s.begun m) r sel = segLoads s r sel := rfl

theorem segChecks_afterFar (s : State) (m : MemOp) (r : SReg) (sel : Word16) :
    segChecks (afterFar s.begun m) r sel = segChecks s r sel := rfl

theorem valueAt_begun (s : State) (w : Width) (l : Loc) : s.begun.valueAt w l = s.valueAt w l := by
  cases l with
  | reg => rfl
  | mem r off =>
    rw [State.valueAt, State.operand, State.operandBytes, seg_begun]
    rfl

/-- A read changes nothing that a fault does not restore. -/
theorem rollback_afterRead (s : State) (w : Width) (l : Loc) : s.rollback (s.begun.afterRead w l) = s := by
  cases l <;> rfl

theorem rollback_afterFar (s : State) (m : MemOp) : s.rollback (afterFar s.begun m) = s := rfl

/-- No check of `LoadSeg` raises exception 8. -/
theorem segChecks_vector {s : State} {r : SReg} {sel : Word16} {v : Byte} {c : Word32}
    (h : firstFailing (segChecks s r sel) = some (v, c)) : v ≠ 8 := by
  have hmem := mem_of_firstFailing h
  unfold segChecks stackChecks dataChecks at hmem
  rintro rfl
  split at hmem
  · simp at hmem
  · split at hmem <;> simp at hmem

theorem movToSeg_run {s : State} {sr : SReg} {rm : RM} (hcs : sr ≠ .cs) (hr : s.readable .w16 (s.locate rm) = true) :
    movForm (.swEw sr rm) s = (do
      loadSeg sr (s.valueAt .w16 (s.locate rm))
      if sr = .ss then modify fun s => { s with shadow := .ss } : M Unit) (s.afterRead .w16 (s.locate rm)) := by
  have hne : (sr != .cs) = true := bne_iff_ne.2 hcs
  rw [movForm, M_get_bind]
  show movToSeg sr rm s = _
  rw [movToSeg, hne]
  exact (M_bind_ok (require_true_run 6 s)).trans (M_bind_ok (readRM_flat hr))

theorem exec_movToSeg {s : State} {sr : SReg} {rm : RM} (hp : s.prefixesOk false) (hcs : sr ≠ .cs)
    (hr : s.readable .w16 (s.locate rm) = true) (hl : segLoads s sr (s.valueAt .w16 (s.locate rm)) = true) :
    exec (.mov (.swEw sr rm)) s = .next (retire s (ssShadow (afterSegLoad (s.begun.afterRead .w16 (s.locate rm)) sr
      (s.valueAt .w16 (s.locate rm))) sr) .next) := by
  have hv : s.begun.valueAt .w16 (s.begun.locate rm) = s.valueAt .w16 (s.locate rm) := valueAt_begun s _ _
  have hload := loadSeg_run ((segLoads_afterRead s (s.locate rm) sr _).trans hl)
  refine plain_next hp ((movToSeg_run (s := s.begun) hcs ((readable_begun s _ _).trans hr)).trans ?_)
  rw [hv]
  refine (M_bind_ok hload).trans ?_
  rw [ssShadow]
  split <;> rfl

theorem exec_movToSeg_refused {s : State} {sr : SReg} {rm : RM} {v : Byte} {c : Word32} (hp : s.prefixesOk false)
    (hpm : s.protectedMode = true) (hf : s.flat = true) (hcs : sr ≠ .cs) (hr : s.readable .w16 (s.locate rm) = true)
    (hc : firstFailing (segChecks s sr (s.valueAt .w16 (s.locate rm))) = some (v, c)) :
    exec (.mov (.swEw sr rm)) s = deliver s (s.faultEvent v (some c)) := by
  have hload : loadSeg sr (s.valueAt .w16 (s.locate rm)) (s.begun.afterRead .w16 (s.locate rm)) =
      .error (checkStop v c) (s.begun.afterRead .w16 (s.locate rm)) := by
    rw [loadSeg_checks (by cases s.locate rm <;> exact hf) (by cases s.locate rm <;> exact hpm), segChecks_afterRead,
      afterChecks_of_some hc]
  have hbody := movToSeg_run (s := s.begun) hcs ((readable_begun s _ _).trans hr)
  rw [show s.begun.locate rm = s.locate rm from rfl, valueAt_begun, M_bind_error hload] at hbody
  refine (plain_exc hp (segChecks_vector hc) hbody).trans ?_
  rw [rollback_afterRead]

/-- The five loads of a far pointer are one sequence of steps. -/
theorem exec_farLoad (i : FarLoad) (r : Fin 8) (m : MemOp) (s : State) :
    exec (i.instr r m) s = plain (loadFar i.seg r m) s := by cases i <;> rfl

theorem loadFar_run {s : State} {sr : SReg} {r : Fin 8} {m : MemOp} (hr : farReadable s m = true) :
    loadFar sr r m s = (do
      loadSeg sr (farPointer s m).2
      putReg s.osz.width r ((farPointer s m).1.truncate _) : M Unit) (afterFar s m) := by
  rw [loadFar, M_get_bind]
  exact M_bind_ok (readFar_flat hr)

theorem farPointer_begun (s : State) (m : MemOp) : farPointer s.begun m = farPointer s m := by
  have h (w : Width) (r : SReg) (off : Word32) : s.begun.operand w r off = s.operand w r off :=
    valueAt_begun s w (.mem r off)
  exact congrArg₂ Prod.mk (congrArg (BitVec.setWidth 32) (h ..)) (h ..)

theorem exec_farLoad_loads {i : FarLoad} {r : Fin 8} {m : MemOp} {s : State} (hp : s.prefixesOk false)
    (hr : farReadable s m = true) (hl : segLoads s i.seg (farPointer s m).2 = true) :
    exec (i.instr r m) s = .next (retire s (i.after r m s.begun) .next) := by
  have hload := loadSeg_run ((segLoads_afterFar s m i.seg _).trans hl)
  rw [exec_farLoad]
  refine plain_next hp ((loadFar_run (s := s.begun) ((farReadable_begun s m).trans hr)).trans ?_)
  rw [FarLoad.after, farPointer_begun, M_bind_ok hload, putReg_run]

theorem exec_farLoad_refused {i : FarLoad} {r : Fin 8} {m : MemOp} {s : State} {v : Byte} {c : Word32}
    (hp : s.prefixesOk false) (hpm : s.protectedMode = true) (hf : s.flat = true) (hr : farReadable s m = true)
    (hc : firstFailing (segChecks s i.seg (farPointer s m).2) = some (v, c)) :
    exec (i.instr r m) s = deliver s (s.faultEvent v (some c)) := by
  have hload : loadSeg i.seg (farPointer s m).2 (afterFar s.begun m) = .error (checkStop v c) (afterFar s.begun m) := by
    rw [loadSeg_checks (s := afterFar s.begun m) hf hpm, segChecks_afterFar, afterChecks_of_some hc]
  have hbody := loadFar_run (s := s.begun) (sr := i.seg) (r := r) ((farReadable_begun s m).trans hr)
  rw [farPointer_begun, M_bind_error hload] at hbody
  rw [exec_farLoad]
  refine (plain_exc hp (segChecks_vector hc) hbody).trans ?_
  rw [rollback_afterFar]

end Sys2Proof.Machine

open Sys2Proof Sys2Proof.Machine Sys2Proof.Claims

/-- Settles O31: the layouts field by field, and the loads as the checks of R145 followed by the load. -/
theorem segmentLoadResult : Obligations.SegmentLoadResult := by
  unfold Obligations.SegmentLoadResult
  refine ⟨fun d sel => ?layout, descAddr_eq, fun s sel d cpl r g => ?numbers, fun sr rm s => ?mov, fun i r m s => ?far,
    fun s hp hpm hf =>
      ⟨fun r sel => segLoads_eq r sel hf hpm, fun v c => ⟨fun sr rm => ?movRefused, fun i r m => ?farRefused⟩⟩⟩
  case layout =>
    have bit := getLsbD_eq_div d
    refine ⟨d.base_toNat, d.limit_toNat, d.type_eq, extractLsb'_toNat_div d 45 2, bit 47, bit 44, ?_, ?_, ?_, ?_, ?_,
      bit 40, ?_, extractLsb'_toNat_div d 16 16, gateOffset_s16_toNat d, gateOffset_s32_toNat d, gateSize_eq d,
      selIndex_eq sel, selLocal_eq sel, selRpl_toNat sel, selNull_eq sel⟩
    all_goals simp only [Desc.isCode, Desc.isData, Desc.conforming, Desc.readable, Desc.writable, Desc.isSegment,
      Desc.toSeg, bit]
    cases d.toNat / 2 ^ 44 % 2 == 1 <;> cases d.toNat / 2 ^ 43 % 2 == 1 <;> rfl
  case numbers =>
    refine ⟨?_, lvlLe_iff _ _, privOk_iff cpl sel d, gdtAddr_eq s sel, inGdt_iff s sel, seg_setSeg_same s r g,
      fun q => seg_setSeg_other s g, rfl⟩
    rw [SegReg.v86, v86Base]
  case mov => exact fun hcs hp hr hl => exec_movToSeg hp hcs hr hl
  case far => exact fun hp hr hl => exec_farLoad_loads hp hr hl
  case movRefused => exact fun hcs hr hc => exec_movToSeg_refused hp hpm hf hcs hr hc
  case farRefused => exact fun hr hc => exec_farLoad_refused hp hpm hf hr hc
end

section
/-!
PROOF. The task switch with paging off, up to the load of the new image: the outgoing task is saved, the busy bits, the
back link, TR and CR0.TS are written (R520 steps 2 to 4), and the image is read (step 5).
-/
namespace Sys2Proof.Machine

open Sys2Proof.Claims

/-! ## Fields of a task state segment -/

@[simp] theorem withField_flat (s : State) (w : Width) (la : Word32) (v : BitVec w.bits) :
    (withField s w la v).flat = s.flat := by simp [State.flat, withField]

/-- Values at rising offsets, `step` apart. -/
def atOffsets {β : Type} (k step : Nat) : List β → List (Nat × β)
  | [] => []
  | v :: vs => (k, v) :: atOffsets (k + step) step vs

/-- `s` with values of width `w` stored at offsets from `base`. -/
def withFields (s : State) (w : Width) (base : Word32) (l : List (Nat × BitVec w.bits)) : State :=
  l.foldl (fun t p => withField t w (base + BitVec.ofNat 32 p.1) p.2) s

theorem withFields_cons (s : State) (w : Width) (base : Word32) (p : Nat × BitVec w.bits)
    (l : List (Nat × BitVec w.bits)) :
    withFields s w base (p :: l) = withFields (withField s w (base + BitVec.ofNat 32 p.1) p.2) w base l := rfl

theorem withFields_append (s : State) (w : Width) (base : Word32) (l l' : List (Nat × BitVec w.bits)) :
    withFields s w base (l ++ l') = withFields (withFields s w base l) w base l' := List.foldl_append

@[simp] theorem withFields_flat (s : State) (w : Width) (base : Word32) (l : List (Nat × BitVec w.bits)) :
    (withFields s w base l).flat = s.flat := by
  induction l generalizing s with
  | nil => rfl
  | cons p l ih => rw [withFields_cons, ih, withField_flat]

theorem add_offset (base : Word32) (k n : Nat) :
    base + BitVec.ofNat 32 k + BitVec.ofNat 32 n = base + BitVec.ofNat 32 (k + n) := by
  rw [BitVec.add_assoc, BitVec.ofNat_add]

theorem writeDwords_flat {s : State} (h : s.flat = true) (base : Word32) (k : Nat) (vs : List Word32) :
    writeDwords (base + BitVec.ofNat 32 k) vs s = .ok () (withFields s .w32 base (atOffsets k 4 vs)) := by
  induction vs generalizing s k with
  | nil => rfl
  | cons v vs ih =>
    have hrest := ih (s := withField s .w32 (base + BitVec.ofNat 32 k) v) (by rw [withField_flat, h]) (k + 4)
    rw [← add_offset] at hrest
    exact (M_bind_ok (sysWrite_flat h .w32 _ v)).trans hrest

theorem writeWords_flat {s : State} (h : s.flat = true) (base : Word32) (k step : Nat) (vs : List Word16) :
    writeWords (base + BitVec.ofNat 32 k) (BitVec.ofNat 32 step) vs s =
      .ok () (withFields s .w16 base (atOffsets k step vs)) := by
  induction vs generalizing s k with
  | nil => rfl
  | cons v vs ih =>
    have hrest := ih (s := withField s .w16 (base + BitVec.ofNat 32 k) v) (by rw [withField_flat, h]) (k + step)
    rw [← add_offset] at hrest
    exact (M_bind_ok (sysWrite_flat h .w16 _ v)).trans hrest

theorem readSeries_flat {s : State} (h : s.flat = true) (w : Width) (base : Word32) (k step n : Nat) :
    readSeries w (base + BitVec.ofNat 32 k) (BitVec.ofNat 32 step) n s =
      .ok ((List.range n).map fun i =>
        (Claims.fieldAt s w (base + BitVec.ofNat 32 (k + step * i))).zeroExtend 32) s := by
  induction n generalizing k with
  | zero => rfl
  | succ n ih =>
    have hrest := ih (k + step)
    rw [← add_offset] at hrest
    rw [readSeries, M_bind_ok (sysRead_field h w _), M_bind_ok hrest, M_pure, List.range_succ_eq_map, List.map_cons,
      List.map_map]
    congr 3
    funext i
    simp only [Function.comp_apply, Nat.succ_eq_add_one]
    congr 4
    ring

/-! ## The outgoing task -/

theorem regs_toList (s : State) : s.regs.toList = (List.finRange 8).map s.reg32 := by
  apply List.ext_getElem
  · simp
  · intro i h1 h2
    simp [State.reg32]

theorem atOffsets_append {β : Type} (k step : Nat) (l l' : List β) :
    atOffsets k step (l ++ l') = atOffsets k step l ++ atOffsets (k + step * l.length) step l' := by
  induction l generalizing k with
  | nil => rfl
  | cons v l ih => rw [List.cons_append, atOffsets, ih, atOffsets, List.cons_append, List.length_cons, Nat.add_assoc,
      Nat.mul_succ, Nat.add_comm step]

theorem map_finRange_eight {β : Type} (k step : Nat) (g : Fin 8 → β) :
    (List.finRange 8).map (fun i => (k + step * i.val, g i)) = atOffsets k step ((List.finRange 8).map g) := by
  simp [List.finRange_succ, atOffsets]
  omega

/-- The values of the old image, as `taskSaved` lists them. -/
theorem taskSaved_eq (s : State) (ret : Word32) (f : EFlags) : taskSaved s ret f =
    if s.tr.is386 then
      withFields (withFields (withFields (withFields s
        .w32 s.tr.base (atOffsets 0x28 4 ((List.finRange 8).map s.reg32)))
        .w16 s.tr.base (atOffsets 0x48 4 [s.es.selector, s.cs.selector, s.ss.selector, s.ds.selector, s.fs.selector,
          s.gs.selector])) .w32 s.tr.base [(0x24, f.toWord)]) .w32 s.tr.base [(0x20, ret)]
    else
      withFields (withFields (withFields s .w16 s.tr.base (atOffsets 0x12 2
        (((List.finRange 8).map s.reg32).map (fun v => v.truncate 16) ++
          [s.es.selector, s.cs.selector, s.ss.selector, s.ds.selector])))
        .w16 s.tr.base [(0x10, f.toWord.truncate 16)]) .w16 s.tr.base [(0x0E, ret.truncate 16)] := by
  rw [taskSaved]
  split
  · rw [← map_finRange_eight]
    simp only [withFields, atOffsets, List.foldl_cons, List.foldl_nil, Nat.reduceAdd]
  · rw [← withFields_append, ← withFields_append, List.map_map, atOffsets_append, ← map_finRange_eight]
    simp only [withFields, atOffsets, List.foldl_append, List.foldl_cons, List.foldl_nil, Nat.reduceAdd,
      List.length_map, List.length_finRange, Nat.reduceMul, Function.comp_apply]

/-- Step 2 of R520: the old image. -/
theorem saveTask_flat {s : State} (h : s.flat = true) (kind : SwitchKind) (ret : Word32) (rf : Bool) :
    saveTask s kind ret rf s =
      .ok () (taskSaved s ret { s.flags with rf := rf, nt := s.flags.nt && decide (kind ≠ .iret) }) := by
  have hk : (kind != .iret) = decide (kind ≠ .iret) := by cases kind <;> rfl
  have hflat (w : Width) (l : List (Nat × BitVec w.bits)) {t : State} (ht : t.flat = true) :
      (withFields t w s.tr.base l).flat = true := (withFields_flat ..).trans ht
  have hwrite (w : Width) (k : Nat) (v : BitVec w.bits) {t : State} (ht : t.flat = true) :
      sysWrite w (s.tr.base + BitVec.ofNat 32 k) v t = .ok () (withFields t w s.tr.base [(k, v)]) :=
    sysWrite_flat ht w _ v
  rw [saveTask, hk, taskSaved_eq, regs_toList]
  generalize ({ s.flags with rf := rf, nt := s.flags.nt && decide (kind ≠ .iret) } : EFlags) = f
  cases s.tr.is386
  · exact (M_bind_ok (writeWords_flat h _ 0x12 2 _)).trans <|
      (M_bind_ok (hwrite .w16 0x10 _ (hflat .w16 _ h))).trans <| hwrite .w16 0x0E _ (hflat .w16 _ (hflat .w16 _ h))
  · exact (M_bind_ok (writeDwords_flat h _ 0x28 _)).trans <|
      (M_bind_ok (writeWords_flat (hflat .w32 _ h) _ 0x48 4 _)).trans <|
      (M_bind_ok (hwrite .w32 0x24 _ (hflat .w16 _ (hflat .w32 _ h)))).trans <|
      hwrite .w32 0x20 _ (hflat .w32 _ (hflat .w16 _ (hflat .w32 _ h)))

/-! ## The commit point -/

theorem withField_same (s : State) (w : Width) (la : Word32) (v : BitVec w.bits) :
    s.SameButMemory (withField s w la v) :=
  State.setPhysBytes_same ..

theorem withFields_same (s : State) (w : Width) (base : Word32) (l : List (Nat × BitVec w.bits)) :
    s.SameButMemory (withFields s w base l) := by
  induction l generalizing s with
  | nil => exact .refl s
  | cons p l ih => exact (withField_same ..).trans (ih _)

theorem taskSaved_same (s : State) (ret : Word32) (f : EFlags) : s.SameButMemory (taskSaved s ret f) := by
  rw [taskSaved_eq]
  split
  · exact (((withFields_same ..).trans (withFields_same ..)).trans (withFields_same ..)).trans (withFields_same ..)
  · exact ((withFields_same ..).trans (withFields_same ..)).trans (withFields_same ..)

theorem taskSaved_flat (s : State) (ret : Word32) (f : EFlags) : (taskSaved s ret f).flat = s.flat := by
  rw [taskSaved_eq]
  split <;> simp only [withFields_flat]

theorem clearBusy_flat {s : State} (h : s.flat = true) {sel : Word16} (hs : (selNull sel || s.inGdt sel) = true) :
    clearBusy sel s = .ok () (if selNull sel = false then
      withField s .w32 (busyWord s sel) (Claims.fieldAt s .w32 (busyWord s sel) &&& ~~~0x200) else s) := by
  rw [clearBusy, M_get_bind]
  cases hn : selNull sel
  · have hin : s.inGdt sel = true := by simpa [hn] using hs
    rw [if_neg Bool.false_ne_true, if_pos rfl, requireSel_bind, if_pos hin]
    exact clearDescHigh_flat h _ _
  · rfl

/-- The outgoing task's descriptor can be marked free where it must (R124, log entry 37). -/
def canLeave (s : State) (kind : SwitchKind) : Bool :=
  kind == .call || kind == .int || selNull s.tr.selector || s.inGdt s.tr.selector

/-- `t` is `s` but for its memory, and paging is off. -/
structure FlatSame (s t : State) : Prop where
  same : s.SameButMemory t
  flat : t.flat = true

theorem FlatSame.withField {s t : State} (h : FlatSame s t) (w : Width) (la : Word32) (v : BitVec w.bits) :
    FlatSame s (withField t w la v) :=
  ⟨h.same.trans (withField_same ..), (withField_flat ..).trans h.flat⟩

theorem FlatSame.ite {c : Prop} [Decidable c] {s t u : State} (ht : FlatSame s t) (hu : FlatSame s u) :
    FlatSame s (if c then t else u) := by
  split
  · exact ht
  · exact hu

theorem FlatSame.busyWord {s t : State} (h : FlatSame s t) (sel : Word16) : busyWord t sel = busyWord s sel :=
  h.same.field (Claims.busyWord · sel) fun _ _ _ => rfl

theorem FlatSame.inGdt {s t : State} (h : FlatSame s t) (sel : Word16) : t.inGdt sel = s.inGdt sel :=
  h.same.field (State.inGdt · sel) fun _ _ _ => rfl

theorem FlatSame.cr0 {s t : State} (h : FlatSame s t) : t.cr0 = s.cr0 := h.same.field State.cr0 fun _ _ _ => rfl

/-- Step 9 of R520: the T bit of an 80386 task. -/
def loadTaskTrap (base : Word32) (is386 : Bool) : M Unit := do
  if is386 then
    let w ← sysRead .w16 (base + 0x64)
    if w.getLsbD 0 then modify fun s => { s with trap := { s.trap with task := true } }

/-- Steps 6 to 9 of R520: what the new image names. -/
def loadTaskNamed (base : Word32) (is386 : Bool) (ldt : Word16) : M Unit := do
  loadTaskLdt ldt
  loadTaskSegs
  let s ← get
  require0 (decide (s.eip.toNat ≤ s.cs.limit.toNat)) 13
  loadTaskTrap base is386

/-- A step that is made only where `c` holds. -/
theorem optional_bind {β : Type} {c : Prop} [Decidable c] {x : M Unit} {k : Unit → M β} {t u : State}
    (hx : c → x t = .ok () u) (hu : ¬c → u = t) : (if c then x >>= k else k ()) t = k () u := by
  split
  next hc => exact M_bind_ok (hx hc)
  next hc => rw [hu hc]

/-- CR3 of an 80386 task (R520 step 5). -/
def cr3Loaded (t : State) : State :=
  if t.tr.is386 then
    ({ t with cr3 := Claims.fieldAt t .w32 (t.tr.base + 0x1C) &&& 0xFFFFF000 } : State).tlbFlush
  else t

/-- Steps 5 to 9 of R520: the new image, and what it names. -/
def takeImage (base : Word32) (is386 nested : Bool) : M Unit := do
  let t ← readTask base is386
  modify fun s => s.loadImage t nested
  loadTaskNamed base is386 t.ldt

theorem cr3_bind {β : Type} {t : State} (h : t.flat = true) {base : Word32} {is386 : Bool} (hb : t.tr.base = base)
    (hi : t.tr.is386 = is386) {k : Unit → M β} :
    (if is386 then do
        let cr3 ← sysRead .w32 (base + 0x1C)
        let r ← modify fun s => ({ s with cr3 := cr3 &&& 0xFFFFF000 } : State).tlbFlush
        k r
      else k () : M β) t = k () (cr3Loaded t) := by
  rw [cr3Loaded, hb, hi]
  cases is386
  · rfl
  · exact M_bind_ok (sysRead_field h .w32 _)

/-- Steps 2 to 4 of R520, and the read of CR3. -/
theorem commitSwitch_left {s : State} (h : s.flat = true) {tsel : Word16} {kind : SwitchKind} (ret : Word32) (rf : Bool)
    (hc : canLeave s kind = true) :
    let t := taskLeft s tsel kind ret rf
    commitSwitch tsel (gdtEntry s tsel) kind ret rf s =
      takeImage t.tr.base t.tr.is386 (kind == .call || kind == .int) (cr3Loaded t) := by
  dsimp only
  generalize hleft : taskLeft s tsel kind ret rf = left
  unfold taskLeft at hleft
  extract_lets nd f t1 t2 t3 t4 c at hleft
  have h1 : FlatSame s t1 := ⟨taskSaved_same .., (taskSaved_flat ..).trans h⟩
  have h2 : FlatSame s t2 := .ite (h1.withField ..) h1
  have h3 : FlatSame s t3 := .ite h2 (h2.withField ..)
  have h4 : FlatSame s t4 := .ite (h3.withField ..) h3
  have hold : (kind == .jmp || kind == .iret) = true → clearBusy s.tr.selector t1 = .ok () t2 := fun hk => by
    have hk : kind = .jmp ∨ kind = .iret := by simpa using hk
    rw [clearBusy_flat h1.flat (by rw [h1.inGdt]; rcases hk with rfl | rfl <;> exact hc), h1.busyWord]
    simp only [t2, hk, true_and]
  have hnew : (kind != .iret) = true → orDescHigh (s.gdtAddr tsel) 0x200 t2 = .ok () t3 := fun hk => by
    rw [orDescHigh_flat h2.flat]
    simp only [t3, bne_iff_ne.1 hk, if_false]
    rfl
  have hlink : (kind == .call || kind == .int) = true →
      sysWrite .w16 nd.base s.tr.selector t3 = .ok () t4 := fun hk => by
    have hk : kind = .call ∨ kind = .int := by simpa using hk
    rw [sysWrite_flat h3.flat]
    simp only [t4, hk, if_true]
  rw [commitSwitch, M_get_bind]
  refine (M_bind_ok (saveTask_flat h kind ret rf)).trans ?_
  refine (optional_bind hold fun hk => if_neg ?_).trans ?_
  · have hk : ¬kind = .jmp ∧ ¬kind = .iret := by simpa using hk
    exact fun h => h.1.elim hk.1 hk.2
  refine (optional_bind hnew fun hk => if_pos (by simpa using hk)).trans ?_
  refine (optional_bind hlink fun hk => if_neg (by simpa using hk)).trans ?_
  have htr : left.tr = { selector := tsel, base := nd.base, limit := nd.limit, is386 := decide (9 ≤ nd.type) } := by
    rw [← hleft]
  have hleft4 : ({ t4 with
      tr := { selector := tsel, base := nd.base, limit := nd.limit, is386 := decide (9 ≤ nd.type) }
      cr0 := { t4.cr0 with ts := true } } : State) = left := by
    rw [h4.cr0]
    exact hleft
  have hflat : left.flat = true := by
    rw [← hleft4]
    exact h4.flat
  refine (M_bind_ok (x := modify _) (t := left) (congrArg (EStateM.Result.ok ()) hleft4)).trans ?_
  refine (cr3_bind hflat (congrArg TaskReg.base htr) (congrArg TaskReg.is386 htr)).trans ?_
  rw [htr]
  rfl

/-! ## The new image -/

/-- The state in which the new image is taken is the old one, but for memory, TR and CR0.TS. -/
theorem taskLeft_flat {s : State} (h : s.flat = true) (tsel : Word16) (kind : SwitchKind) (ret : Word32) (rf : Bool) :
    (taskLeft s tsel kind ret rf).flat = true ∧ (taskLeft s tsel kind ret rf).cr0.pe = s.cr0.pe := by
  unfold taskLeft
  extract_lets nd f t1 t2 t3 t4 c
  have h1 : FlatSame s t1 := ⟨taskSaved_same .., (taskSaved_flat ..).trans h⟩
  have h2 : FlatSame s t2 := .ite (h1.withField ..) h1
  have h3 : FlatSame s t3 := .ite h2 (h2.withField ..)
  have h4 : FlatSame s t4 := .ite (h3.withField ..) h3
  have hflat : ({ t4 with cr0 := { t4.cr0 with ts := true } } : State).flat = true := h4.flat
  rw [h4.cr0] at hflat
  exact ⟨hflat, rfl⟩

theorem getD_map_range {β : Type} (f : Nat → β) {n i : Nat} (h : i < n) (d : β) :
    ((List.range n).map f).getD i d = f i := by
  rw [List.getD_eq_getElem?_getD, List.getElem?_map, List.getElem?_range h]
  rfl

theorem getD_drop {β : Type} (l : List β) (k i : Nat) (d : β) : (l.drop k).getD i d = l.getD (k + i) d := by
  rw [List.getD_eq_getElem?_getD, List.getElem?_drop, List.getD_eq_getElem?_getD]

/-- The image of the task that TR names. -/
def taskImage (t : State) : TaskImage where
  eip := (imageHead t).1
  flags := (imageHead t).2.1
  regs := Vector.ofFn (imageReg t)
  sels := (List.range 6).map (imageSel t)
  ldt := (imageHead t).2.2

theorem readTask_flat {t : State} (h : t.flat = true) :
    readTask t.tr.base t.tr.is386 t = .ok (taskImage t) t := by
  have hlow (x : Word16) : (x.zeroExtend 32).truncate 16 = x := by
    simp
  have hword (x : Word32) : x.zeroExtend 32 = x := BitVec.setWidth_eq x
  rw [readTask, taskImage]
  cases hi : t.tr.is386
  · refine (M_bind_ok (sysRead_field h .w16 _)).trans ?_
    refine (M_bind_ok (readSeries_flat h .w16 _ 0x0E 2 14)).trans ?_
    rw [M_get_bind, M_pure, getD_map_range _ (by decide), getD_map_range _ (by decide)]
    refine congrArg (EStateM.Result.ok · t) ?_
    rw [TaskImage.mk.injEq]
    refine ⟨?_, ?_, ?_, ?_, ?_⟩
    · simp only [imageHead, hi]
      rfl
    · simp only [imageHead, hi]
      rfl
    · refine congrArg Vector.ofFn (funext fun i => ?_)
      have hoff : 0x0E + 2 * (2 + i.val) = 0x12 + 2 * i.val := by omega
      rw [getD_map_range _ (by omega), hoff, imageReg, hi]
      exact congrArg (replaceWord _) (hlow _)
    · have hsels : (((List.range 14).map fun k =>
          (Claims.fieldAt t .w16 (t.tr.base + BitVec.ofNat 32 (0x0E + 2 * k))).zeroExtend 32).drop 10 |>.take 4).map
            (fun x => x.truncate 16) =
          [10, 11, 12, 13].map fun k => Claims.fieldAt t .w16 (t.tr.base + BitVec.ofNat 32 (0x0E + 2 * k)) := by
        rw [← List.map_drop, ← List.map_take, List.map_map]
        exact List.map_congr_left fun k _ => hlow _
      refine (congrArg (· ++ [0, 0]) hsels).trans ?_
      simp only [List.range_succ_eq_map, List.range_zero, List.map_cons, List.map_nil, imageSel, hi]
      rfl
    · simp only [imageHead, hi]
      rfl
  · refine (M_bind_ok (sysRead_field h .w16 _)).trans ?_
    refine (M_bind_ok (readSeries_flat h .w32 _ 0x20 4 10)).trans ?_
    refine (M_bind_ok (readSeries_flat h .w16 _ 0x48 4 6)).trans ?_
    rw [M_pure, getD_map_range _ (by decide), getD_map_range _ (by decide)]
    refine congrArg (EStateM.Result.ok · t) ?_
    rw [TaskImage.mk.injEq]
    refine ⟨?_, ?_, ?_, ?_, ?_⟩
    · simp only [imageHead, hi]
      exact hword _
    · simp only [imageHead, hi]
      exact congrArg EFlags.ofWord (hword _)
    · refine congrArg Vector.ofFn (funext fun i => ?_)
      have hoff : 0x20 + 4 * (2 + i.val) = 0x28 + 4 * i.val := by omega
      rw [getD_drop, getD_map_range _ (by omega), hoff, imageReg, hi]
      exact hword _
    · rw [List.map_map]
      refine List.map_congr_left fun k _ => ?_
      rw [imageSel, hi]
      exact hlow _
    · simp only [imageHead, hi]
      rfl

theorem cr3Loaded_loadImage (t : State) (nested : Bool) :
    (cr3Loaded t).loadImage (taskImage t) nested = taskImaged t nested := by
  rw [cr3Loaded, State.loadImage, taskImaged]
  cases t.tr.is386
  · rfl
  · rfl

/-- What the image is taken from is not changed by CR3. -/
theorem cr3Loaded_frame (t : State) :
    (cr3Loaded t).tr = t.tr ∧ (cr3Loaded t).flat = t.flat ∧ taskImage (cr3Loaded t) = taskImage t := by
  unfold cr3Loaded
  split
  · exact ⟨rfl, rfl, rfl⟩
  · exact ⟨rfl, rfl, rfl⟩

/-- Step 5 of R520. -/
theorem takeImage_flat {t : State} (h : t.flat = true) (nested : Bool) :
    takeImage t.tr.base t.tr.is386 nested (cr3Loaded t) =
      loadTaskNamed t.tr.base t.tr.is386 (imageHead t).2.2 (taskImaged t nested) := by
  obtain ⟨htr, hflat, himg⟩ := cr3Loaded_frame t
  have hread := readTask_flat (hflat.trans h)
  rw [htr, himg] at hread
  rw [takeImage, M_bind_ok hread, M_modify_bind, cr3Loaded_loadImage]
  rfl

end Sys2Proof.Machine
end

section
/-!
PROOF. The task switch with paging off, from the new image on: the loads of LDTR and of the segment registers, EIP and the
T bit (R520 steps 6 to 9), with the first exception and the state it finds; and the whole of `taskSwitch`: refused by a
check of step 1, completed, or left with an exception in the new task.
-/
namespace Sys2Proof.Machine

open Sys2Proof.Claims

/-! ## What the new image names -/

/-- Step 6 of R520, in a state whose LDTR holds the selector only. -/
theorem loadTaskLdt_flat {u : State} (h : u.flat = true) (hv : u.ldtr.valid = false) :
    loadTaskLdt u.ldtr.selector u =
      if lldtReady u u.ldtr.selector then .ok () (ldtLoaded u u.ldtr.selector)
      else .error (checkStop 10 (selCode u.ldtr.selector)) u := by
  rw [loadTaskLdt, lldtReady, ldtLoaded]
  cases hn : selNull u.ldtr.selector
  · rw [if_neg Bool.false_ne_true, M_get_bind, requireSel_bind, Bool.false_or, h, Bool.true_and]
    cases u.inGdt u.ldtr.selector
    · rfl
    · rw [if_pos rfl, M_bind_ok (readDesc_flat h _), requireSel_bind]
      rfl
  · have hsame : ({ u with ldtr := { u.ldtr with selector := u.ldtr.selector, valid := false } } : State) = u := by
      rw [← hv]
    exact congrArg (EStateM.Result.ok ()) hsame.symm

theorem selRpl_or (sel : Word16) : (sel &&& 0xFFFC) ||| (selRpl sel).zeroExtend 16 = sel := by
  apply BitVec.eq_of_getLsbD_eq
  intro i hi
  have hmask : (0xFFFC : BitVec 16).getLsbD i = decide (2 ≤ i) :=
    (by decide : ∀ i : Fin 16, (0xFFFC#16).getLsbD i.val = decide (2 ≤ i.val)) ⟨i, hi⟩
  rw [BitVec.getLsbD_or, BitVec.getLsbD_and, hmask, selRpl]
  by_cases h2 : 2 ≤ i
  · simp [h2]
  · simp [h2, hi, Nat.lt_of_not_le h2]

/-- The load of CS in a task switch: the privilege level is that of the selector. -/
theorem loadCs_task {v : State} (h : v.flat = true) {la : Word32} (hn : selNull v.cs.selector = false)
    (ha : v.descAddr v.cs.selector = some la) (hc : (descAt v la).isCode = true) (hp : (descAt v la).present = true) :
    loadCs v.cs.selector (descAt v la) la (selRpl v.cs.selector) v = .ok () (taskCsLoaded v) := by
  rw [loadCs, M_bind_ok (setAccessed_flat h _ _), selRpl_or]
  simp [taskCsLoaded, codeAt, hn, h, ha, hc, hp]

/-- The checks of step 7 of R520 on CS, and its load. -/
theorem loadTaskCs_checks {v : State} (h : v.flat = true) :
    loadTaskCs v.cs.selector v = afterChecks (taskCsChecks v) v (.ok () (taskCsLoaded v)) := by
  rw [loadTaskCs, requireSel_bind, bind_afterChecks (fetchDesc_checks h 10 v.cs.selector), taskCsChecks]
  simp only [requireSel_bind, afterChecks_cons, afterChecks_nil]
  cases hn : selNull v.cs.selector
  · cases ha : v.descAddr v.cs.selector with
    | none => rfl
    | some la =>
      rw [namedDesc_of_some ha, namedAddr_of_some ha]
      cases hc : (descAt v la).isCode
      · rfl
      · have hload : (descAt v la).present = true →
            loadCs v.cs.selector (descAt v la) la (selRpl v.cs.selector) v = .ok () (taskCsLoaded v) :=
          loadCs_task h hn ha hc
        simp +contextual only [Bool.true_and, Bool.not_false, Option.isSome_some, if_true, hload]
  · rfl

/-- One segment register after CS (R520 step 7). -/
def loadTaskSeg (r : SReg) (sel : Word16) : M Unit := if r = .ss then loadTaskSs sel else loadTaskData r sel

/-- A segment register of a new task whose registers hold their selectors only. -/
theorem loadTaskSeg_checks {t : State} {r : SReg} (h : t.flat = true) (hp : t.protectedMode = true)
    (hu : (t.seg r).usable = false) :
    loadTaskSeg r (t.seg r).selector t =
      afterChecks (taskSegChecks t r) t (.ok () (afterSegLoad t r (t.seg r).selector)) := by
  rw [loadTaskSeg, taskSegChecks]
  cases hn : selNull (t.seg r).selector
  · by_cases hr : r = .ss
    · subst hr
      rw [if_pos rfl, if_pos rfl, loadTaskSs, requireSel_bind, hn, afterChecks_cons]
      exact checked_load h hp hn (stackDesc_checks h 10 t.cpl _)
    · rw [if_neg hr, if_neg hr, loadTaskData, if_neg (by simp [hn]), if_neg Bool.false_ne_true]
      exact checked_load h hp hn (dataDesc_checks h 10 _)
  · by_cases hr : r = .ss
    · subst hr
      rw [if_pos rfl, if_pos rfl, loadTaskSs, requireSel_bind, hn]
      rfl
    · have hsame : afterSegLoad t r (t.seg r).selector = t := by
        rw [afterSegLoad_null hp hn, ← hu]
        cases r <;> rfl
      rw [if_neg hr, if_neg hr, loadTaskData, if_pos hn, hsame]
      rfl

/-! ## Segment registers loaded in turn -/

/-- Segment registers loaded in turn. -/
def loadTaskList : List (SReg × Word16) → M Unit
  | [] => pure ()
  | (r, sel) :: l => do
    loadTaskSeg r sel
    loadTaskList l

/-- A state of a new task in protected mode, paging off, whose segment registers `l` hold their selectors only. -/
structure Awaiting (l : List (SReg × Word16)) (t : State) : Prop where
  flat : t.flat = true
  prot : t.protectedMode = true
  held : ∀ p ∈ l, (t.seg p.1).selector = p.2 ∧ (t.seg p.1).usable = false

theorem accessedSet_same (s : State) (d : Desc) (la : Word32) : s.SameButMemory (accessedSet s d la) := by
  unfold accessedSet
  split
  · exact .refl s
  · exact State.setPhysBytes_same ..

theorem accessedSet_flat (s : State) (d : Desc) (la : Word32) : (accessedSet s d la).flat = s.flat := by
  unfold accessedSet
  split
  · rfl
  · rw [← withField_dword, withField_flat]

/-- A load of a segment register leaves the other segment registers and the mode as they are. -/
theorem afterSegLoad_frame {t : State} (hp : t.protectedMode = true) (r : SReg) (sel : Word16) :
    (afterSegLoad t r sel).flat = t.flat ∧ (afterSegLoad t r sel).protectedMode = t.protectedMode ∧
      ∀ q, q ≠ r → (afterSegLoad t r sel).seg q = t.seg q := by
  have hset (u : State) (g : SegReg) :
      (u.setSeg r g).flat = u.flat ∧ (u.setSeg r g).protectedMode = u.protectedMode := by
    cases r <;> exact ⟨rfl, rfl⟩
  cases hn : selNull sel
  · cases ha : t.descAddr sel with
    | none =>
      obtain ⟨hpe, hvm⟩ := (protectedMode_iff t).1 hp
      simp [afterSegLoad, State.realMode, State.v86, hpe, hvm, hn, ha]
    | some la =>
      have hsame := accessedSet_same t (descAt t la) la
      rw [afterSegLoad_named hp hn ha, (hset _ _).1, (hset _ _).2, accessedSet_flat]
      refine ⟨rfl, hsame.field State.protectedMode fun _ _ _ => rfl, fun q hq => ?_⟩
      rw [seg_setSeg_other _ _ hq, hsame.seg]
  · rw [afterSegLoad_null hp hn, (hset _ _).1, (hset _ _).2]
    exact ⟨rfl, rfl, fun q hq => seg_setSeg_other _ _ hq⟩

theorem Awaiting.load {r : SReg} {sel : Word16} {l : List (SReg × Word16)} {t : State} (h : Awaiting ((r, sel) :: l) t)
    (hr : ∀ p ∈ l, p.1 ≠ r) : Awaiting l (afterSegLoad t r sel) := by
  obtain ⟨hflat, hprot, hseg⟩ := afterSegLoad_frame h.prot r sel
  refine ⟨hflat.trans h.flat, hprot.trans h.prot, fun p hp => ?_⟩
  rw [hseg p.1 (hr p hp)]
  exact h.held p (List.mem_cons_of_mem _ hp)

/-- The result of loads in turn: the first exception and the state it finds, or the state after the loads. -/
theorem loadTaskList_run {l : List (SReg × Word16)} (hl : (l.map Prod.fst).Nodup) {t : State} (h : Awaiting l t) :
    loadTaskList l t = match taskSegsFault (l.map Prod.fst) t with
      | none => .ok () ((l.map Prod.fst).foldl (fun u r => afterSegLoad u r (u.seg r).selector) t)
      | some (e, u) => .error (checkStop e.1 e.2) u := by
  induction l generalizing t with
  | nil => rfl
  | cons p l ih =>
    obtain ⟨r, sel⟩ := p
    obtain ⟨hnot, hl⟩ := List.nodup_cons.1 hl
    obtain ⟨hsel, hu⟩ := h.held (r, sel) List.mem_cons_self
    have hrest := ih hl (h.load fun p hp heq => hnot (List.mem_map.2 ⟨p, hp, heq⟩))
    have hone := loadTaskSeg_checks (r := r) h.flat h.prot hu
    rw [loadTaskList, List.map_cons, taskSegsFault, List.foldl_cons]
    rw [hsel] at hone ⊢
    cases hf : firstFailing (taskSegChecks t r) with
    | none => rw [M_bind_ok (hone.trans (afterChecks_of_none hf ..)), hrest]
    | some e => rw [M_bind_error (hone.trans (afterChecks_of_some hf ..))]

/-- CS loaded leaves the registers that come after it, and the mode, as they are. -/
theorem taskCsLoaded_frame (v : State) :
    (taskCsLoaded v).flat = v.flat ∧ (taskCsLoaded v).protectedMode = v.protectedMode ∧
      ∀ q, q ≠ .cs → (taskCsLoaded v).seg q = v.seg q := by
  unfold taskCsLoaded
  split
  next d la _ =>
    have hsame := accessedSet_same v d la
    refine ⟨accessedSet_flat v d la, hsame.field State.protectedMode fun _ _ _ => rfl, fun q hq => ?_⟩
    rw [← hsame.seg]
    cases q <;> first | rfl | exact absurd rfl hq
  next => exact ⟨rfl, rfl, fun _ _ => rfl⟩

/-- The registers loaded after CS, with the selectors they hold. -/
def taskSelectors (v : State) : List (SReg × Word16) := afterCs.map fun r => (r, (v.seg r).selector)

/-- The first exception of step 7 of R520 and the state it finds. -/
def taskSegsStop (v : State) : Option ((Byte × Word32) × State) :=
  if v.flags.vm then none
  else match (firstFailing (taskCsChecks v)).map fun e => (e, v) with
    | some x => some x
    | none => taskSegsFault afterCs (taskCsLoaded v)

/-- Step 7 of R520, in a state whose segment registers hold their selectors only. -/
theorem loadTaskSegs_run {v : State} (h : v.flat = true) (hp : v.cr0.pe = true)
    (hu : ∀ r, r ≠ .cs → (v.seg r).usable = false) :
    loadTaskSegs v = match taskSegsStop v with
      | none => .ok () (taskSegsLoaded v)
      | some (e, t) => .error (checkStop e.1 e.2) t := by
  rw [loadTaskSegs, M_get_bind, taskSegsStop, taskSegsLoaded]
  cases hv : v.flags.vm
  · have hprot : v.protectedMode = true := (protectedMode_iff v).2 ⟨hp, by simp [hv]⟩
    have hlist : loadTaskList (taskSelectors v) = (do
        loadTaskSs v.ss.selector
        loadTaskData .ds v.ds.selector
        loadTaskData .es v.es.selector
        loadTaskData .fs v.fs.selector
        loadTaskData .gs v.gs.selector) := by
      simp [taskSelectors, afterCs, loadTaskList, loadTaskSeg, State.seg]
    rw [if_neg Bool.false_ne_true, if_neg Bool.false_ne_true, if_neg Bool.false_ne_true, ← hlist,
      bind_afterChecks (loadTaskCs_checks h)]
    cases hf : firstFailing (taskCsChecks v) with
    | some e => exact afterChecks_of_some hf ..
    | none =>
      obtain ⟨hflat, hmode, hseg⟩ := taskCsLoaded_frame v
      have hwait : Awaiting (taskSelectors v) (taskCsLoaded v) := by
        refine ⟨hflat.trans h, hmode.trans hprot, fun p hmem => ?_⟩
        obtain ⟨r, hr, rfl⟩ := List.mem_map.1 hmem
        have hcs : r ≠ .cs := by
          rintro rfl
          simp [afterCs] at hr
        rw [hseg r hcs]
        exact ⟨rfl, hu r hcs⟩
      have hdistinct : ((taskSelectors v).map Prod.fst).Nodup := show afterCs.Nodup by decide
      exact (afterChecks_of_none hf ..).trans (loadTaskList_run hdistinct hwait)
  · rfl

/-! ## The result of the switch -/

/-- Paging, TR and EIP are as they were. -/
structure KeepsTask (s t : State) : Prop where
  flat : t.flat = s.flat
  tr : t.tr = s.tr
  eip : t.eip = s.eip

theorem KeepsTask.refl (s : State) : KeepsTask s s := ⟨rfl, rfl, rfl⟩

theorem KeepsTask.trans {s t u : State} (h : KeepsTask s t) (k : KeepsTask t u) : KeepsTask s u :=
  ⟨k.flat.trans h.flat, k.tr.trans h.tr, k.eip.trans h.eip⟩

theorem KeepsTask.setSeg {s t : State} (h : KeepsTask s t) (r : SReg) (g : SegReg) : KeepsTask s (t.setSeg r g) :=
  h.trans (by cases r <;> exact ⟨rfl, rfl, rfl⟩)

theorem KeepsTask.accessedSet (s : State) (d : Desc) (la : Word32) : KeepsTask s (accessedSet s d la) :=
  have hsame := accessedSet_same s d la
  ⟨accessedSet_flat s d la, hsame.field State.tr fun _ _ _ => rfl, hsame.field State.eip fun _ _ _ => rfl⟩

theorem KeepsTask.afterSegLoad (t : State) (r : SReg) (sel : Word16) : KeepsTask t (afterSegLoad t r sel) := by
  have hset := (KeepsTask.refl t).setSeg r
  unfold Claims.afterSegLoad
  split
  · exact hset _
  · split
    · exact hset _
    · split
      · exact hset _
      · split
        next la _ => exact (KeepsTask.accessedSet t (descAt t la) la).setSeg r _
        next => exact .refl t

theorem KeepsTask.foldl {f : State → SReg → State} (hf : ∀ u r, KeepsTask u (f u r)) (l : List SReg) (t : State) :
    KeepsTask t (l.foldl f t) := by
  induction l generalizing t with
  | nil => exact .refl t
  | cons r l ih => exact (hf t r).trans (ih _)

theorem KeepsTask.taskCsLoaded (v : State) : KeepsTask v (taskCsLoaded v) := by
  unfold Claims.taskCsLoaded
  split
  next d la _ => exact (KeepsTask.accessedSet v d la).trans ⟨rfl, rfl, rfl⟩
  next => exact .refl v

theorem KeepsTask.taskSegsLoaded (v : State) : KeepsTask v (taskSegsLoaded v) := by
  unfold Claims.taskSegsLoaded
  split
  · exact .foldl (fun u r => (KeepsTask.refl u).setSeg r _) ..
  · exact (KeepsTask.taskCsLoaded v).trans (.foldl (fun u r => .afterSegLoad u r _) ..)

theorem loadTaskTrap_run {t : State} (h : t.flat = true) :
    loadTaskTrap t.tr.base t.tr.is386 t =
      .ok () (if t.tr.is386 && (Claims.fieldAt t .w16 (t.tr.base + 0x64) : Word16).getLsbD 0 then
        { t with trap := { t.trap with task := true } } else t) := by
  rw [loadTaskTrap]
  cases t.tr.is386
  · rfl
  · refine (M_bind_ok (sysRead_field h .w16 _)).trans ?_
    rw [Bool.true_and]
    split <;> rfl

/-- The result of a task switch after its checks: the new task runs, or an exception waits in it. -/
def commitResult (s : State) (tsel : Word16) (kind : SwitchKind) (ret : Word32) (rf : Bool) :
    EStateM.Result Stop State Unit :=
  match taskFault s tsel kind ret rf with
  | none => .ok () (taskSwitched s tsel kind ret rf)
  | some (e, t) => .error (checkStop e.1 e.2) t

theorem ldtLoaded_frame (u : State) (sel : Word16) :
    (ldtLoaded u sel).flat = u.flat ∧ (ldtLoaded u sel).cr0 = u.cr0 ∧ (ldtLoaded u sel).tr = u.tr ∧
      (ldtLoaded u sel).flags = u.flags ∧ ∀ r, (ldtLoaded u sel).seg r = u.seg r := by
  unfold ldtLoaded
  split
  · exact ⟨rfl, rfl, rfl, rfl, fun r => by cases r <;> rfl⟩
  · exact ⟨rfl, rfl, rfl, rfl, fun r => by cases r <;> rfl⟩

/-- The state after steps 6 to 9 of R520, in terms of the one after step 5. -/
def namedLoaded (u : State) : State :=
  let v := taskSegsLoaded (ldtLoaded u u.ldtr.selector)
  let w : Word16 := Claims.fieldAt v .w16 (v.tr.base + 0x64)
  if v.tr.is386 && w.getLsbD 0 then { v with trap := { v.trap with task := true } } else v

/-- The exception of steps 6 to 8 of R520, in terms of the state after step 5. -/
def namedFault (u : State) : Option ((Byte × Word32) × State) :=
  let v := ldtLoaded u u.ldtr.selector
  let w := taskSegsLoaded v
  if lldtReady u u.ldtr.selector = false then some ((10, selCode u.ldtr.selector), u)
  else match taskSegsStop v with
    | some x => some x
    | none => if w.eip.toNat ≤ w.cs.limit.toNat then none else some ((13, 0), w)

theorem taskFault_eq (s : State) (tsel : Word16) (kind : SwitchKind) (ret : Word32) (rf : Bool) :
    taskFault s tsel kind ret rf =
      namedFault (taskImaged (taskLeft s tsel kind ret rf) (decide (kind = .call ∨ kind = .int))) := by
  rw [taskFault, namedFault]
  generalize taskImaged (taskLeft s tsel kind ret rf) (decide (kind = .call ∨ kind = .int)) = u
  have hvm : (ldtLoaded u u.ldtr.selector).flags = u.flags := (ldtLoaded_frame u _).2.2.2.1
  rw [taskSegsStop, hvm]
  cases u.flags.vm
  · simp only [Bool.false_eq_true, if_false]
    cases firstFailing (taskCsChecks (ldtLoaded u u.ldtr.selector)) <;> rfl
  · rfl

/-- Steps 6 to 9 of R520. -/
theorem loadTaskNamed_run {u : State} (h : u.flat = true) (hp : u.cr0.pe = true) (hv : u.ldtr.valid = false)
    (hu : ∀ r, (u.seg r).usable = false) :
    loadTaskNamed u.tr.base u.tr.is386 u.ldtr.selector u = match namedFault u with
      | none => .ok () (namedLoaded u)
      | some (e, t) => .error (checkStop e.1 e.2) t := by
  have hldt := loadTaskLdt_flat h hv
  obtain ⟨hflat, hcr0, htr, -, hseg⟩ := ldtLoaded_frame u u.ldtr.selector
  rw [loadTaskNamed, namedFault, namedLoaded]
  cases hr : lldtReady u u.ldtr.selector
  · rw [hr] at hldt
    exact M_bind_error hldt
  · rw [hr] at hldt
    rw [M_bind_ok hldt, if_neg (by simp), ← htr]
    generalize ldtLoaded u u.ldtr.selector = v at *
    have hsegs := loadTaskSegs_run (hflat.trans h) (hcr0 ▸ hp) fun r _ => (hseg r) ▸ hu r
    cases hstop : taskSegsStop v with
    | some x =>
      rw [hstop] at hsegs
      exact M_bind_error hsegs
    | none =>
      rw [hstop] at hsegs
      have hkeep := KeepsTask.taskSegsLoaded v
      rw [M_bind_ok hsegs, M_get_bind, require0_bind, ← hkeep.tr, loadTaskTrap_run (hkeep.flat.trans (hflat.trans h))]
      by_cases hlim : (taskSegsLoaded v).eip.toNat ≤ (taskSegsLoaded v).cs.limit.toNat
      · simp only [hlim, decide_true, if_true]
      · simp only [hlim, decide_false, if_false, Bool.false_eq_true]

/-- Steps 2 to 9 of R520. -/
theorem commitSwitch_run {s : State} (h : s.flat = true) (hp : s.cr0.pe = true) {tsel : Word16} {kind : SwitchKind}
    (ret : Word32) (rf : Bool) (hc : canLeave s kind = true) :
    commitSwitch tsel (gdtEntry s tsel) kind ret rf s = commitResult s tsel kind ret rf := by
  have hk : (kind == .call || kind == .int) = decide (kind = .call ∨ kind = .int) := by cases kind <;> rfl
  obtain ⟨hflat, hpe⟩ := taskLeft_flat h tsel kind ret rf
  have hleft := commitSwitch_left h (tsel := tsel) ret rf hc
  dsimp only at hleft
  rw [hleft, takeImage_flat hflat, hk, commitResult, taskFault_eq]
  exact loadTaskNamed_run (u := taskImaged (taskLeft s tsel kind ret rf) (decide (kind = .call ∨ kind = .int)))
    hflat (hpe.trans hp) rfl fun r => by cases r <;> rfl

/-! ## `TaskSwitch` -/

/-- An exception that belongs to the new task. -/
def newTaskStop (e : Byte × Word32) : Stop := .exc { vector := e.1, code := some e.2, newTask := true }

/-- Step 1 of R520 makes its checks before anything is changed. -/
theorem taskSwitch_checks {s : State} (h : s.flat = true) (tsel : Word16) (kind : SwitchKind) (ret : Word32)
    (rf : Bool) :
    taskSwitch tsel kind ret rf s =
      afterChecks (taskChecks s tsel kind) s (inNewTask (commitSwitch tsel (gdtEntry s tsel) kind ret rf) s) := by
  have hread : readDesc (s.gdtAddr tsel) s = .ok (gdtEntry s tsel) s := readDesc_flat h _
  have hwanted : (if kind == .iret then (gdtEntry s tsel).type == 3 || (gdtEntry s tsel).type == 11
        else (gdtEntry s tsel).type == 1 || (gdtEntry s tsel).type == 9) =
      (if kind = .iret then [3, 11] else [1, 9]).contains (gdtEntry s tsel).type := by
    cases kind <;> simp [beq_eq_decide]
  have hv : (if kind == .iret then 10 else 13 : Byte) = if kind = .iret then 10 else 13 := by cases kind <;> rfl
  rw [taskSwitch, M_get_bind, taskChecks]
  dsimp only
  rw [requireSel_bind, M_bind_ok hread, hv]
  simp only [requireSel_bind, afterChecks_cons, afterChecks_nil, hwanted]

/-- A switch that a check of step 1 refuses. -/
theorem taskSwitch_refused {s : State} (h : s.flat = true) {tsel : Word16} {kind : SwitchKind} (ret : Word32)
    (rf : Bool) {e : Byte × Word32} (he : firstFailing (taskChecks s tsel kind) = some e) :
    taskSwitch tsel kind ret rf s = .error (checkStop e.1 e.2) s := by
  rw [taskSwitch_checks h, afterChecks_of_some he]

theorem taskCommits_iff (s : State) (tsel : Word16) (kind : SwitchKind) : taskCommits s tsel kind = true ↔
    s.flat = true ∧ firstFailing (taskChecks s tsel kind) = none ∧ canLeave s kind = true := by
  rw [taskCommits, canLeave, Bool.and_eq_true, Bool.and_eq_true, Option.isNone_iff_eq_none, and_assoc]

/-- A switch that commits ends in the new task, or leaves an exception to it. -/
theorem taskSwitch_commits {s : State} (hp : s.cr0.pe = true) {tsel : Word16} {kind : SwitchKind} (ret : Word32)
    (rf : Bool) (hc : taskCommits s tsel kind = true) :
    taskSwitch tsel kind ret rf s = match taskFault s tsel kind ret rf with
      | none => .ok () (taskSwitched s tsel kind ret rf)
      | some (e, t) => .error (newTaskStop e) t := by
  obtain ⟨h, hnone, hleave⟩ := (taskCommits_iff s tsel kind).1 hc
  rw [taskSwitch_checks h, afterChecks_of_none hnone, inNewTask, commitSwitch_run h hp ret rf hleave, commitResult]
  cases taskFault s tsel kind ret rf <;> rfl

/-! ## A switch that completes -/

/-- The checks of a task switch on a segment register accept what `LoadSeg` accepts. -/
theorem taskSegChecks_none {t : State} {r : SReg} (hf : t.flat = true) (hp : t.protectedMode = true)
    (h : segLoads t r (t.seg r).selector = true) : firstFailing (taskSegChecks t r) = none := by
  rw [segLoads_eq r _ hf hp, firstFailing_isNone] at h
  rw [← Option.isNone_iff_eq_none, firstFailing_isNone, taskSegChecks]
  rw [segChecks] at h
  cases hn : selNull (t.seg r).selector
  · rw [hn] at h
    by_cases hr : r = .ss
    · simpa [hr, stackChecks] using h
    · simpa [hr, dataChecks] using h
  · rw [hn] at h
    have hr : r ≠ .ss := by simpa using h
    rw [if_neg hr]
    rfl

theorem taskSegsFault_none {l : List SReg} {t : State} (hf : t.flat = true) (hp : t.protectedMode = true)
    (h : loadsInTurn l t = true) : taskSegsFault l t = none := by
  induction l generalizing t with
  | nil => rfl
  | cons r l ih =>
    obtain ⟨hone, hrest⟩ := (Bool.and_eq_true _ _).mp h
    obtain ⟨hflat, hprot, -⟩ := afterSegLoad_frame hp r (t.seg r).selector
    rw [taskSegsFault, taskSegChecks_none hf hp hone]
    exact ih (hflat.trans hf) (hprot.trans hp) hrest

theorem taskCsChecks_none {v : State} (h : taskCsReady v = true) : firstFailing (taskCsChecks v) = none := by
  rw [taskCsReady, codeAt] at h
  rw [← Option.isNone_iff_eq_none, firstFailing_isNone, taskCsChecks]
  cases hn : selNull v.cs.selector
  · cases ha : v.descAddr v.cs.selector with
    | none => simp [hn, ha] at h
    | some la =>
      rw [namedDesc_of_some ha]
      simp only [hn, ha, Bool.false_or, Bool.not_eq_true', Bool.and_eq_true] at h
      split at h
      next d la' hd =>
        split at hd
        · cases hd
        · split at hd
          next hcode =>
            obtain ⟨rfl, rfl⟩ := Prod.mk.inj (Option.some.inj hd)
            simp [hcode.1, hcode.2, h]
          next => cases hd
      next => cases h
  · simp [hn] at h

theorem taskSegsStop_none {v : State} (hf : v.flat = true) (hp : v.cr0.pe = true) (h : taskSegsReady v = true) :
    taskSegsStop v = none := by
  rw [taskSegsStop]
  cases hv : v.flags.vm
  · rw [taskSegsReady, hv, Bool.false_or, Bool.and_eq_true] at h
    obtain ⟨hcs, hrest⟩ := h
    obtain ⟨hflat, hprot, -⟩ := taskCsLoaded_frame v
    have hmode : v.protectedMode = true := (protectedMode_iff v).2 ⟨hp, by simp [hv]⟩
    rw [taskCsChecks_none hcs]
    exact taskSegsFault_none (hflat.trans hf) (hprot.trans hmode) hrest
  · rfl

theorem taskReady_iff (s : State) (tsel : Word16) (kind : SwitchKind) (ret : Word32) (rf : Bool) :
    taskReady s tsel kind ret rf = true ↔ taskCommits s tsel kind = true ∧
      let u := taskImaged (taskLeft s tsel kind ret rf) (decide (kind = .call ∨ kind = .int))
      let v := ldtLoaded u u.ldtr.selector
      lldtReady u u.ldtr.selector = true ∧ taskSegsReady v = true ∧
        v.eip.toNat ≤ (taskSegsLoaded v).cs.limit.toNat := by
  rw [taskReady, taskCommits, firstFailing_isNone, taskChecks]
  simp only [List.all_cons, List.all_nil, Bool.and_true, Bool.and_eq_true, decide_eq_true_eq]
  tauto

theorem taskReady_no_fault {s : State} (hp : s.cr0.pe = true) {tsel : Word16} {kind : SwitchKind} {ret : Word32}
    {rf : Bool} (h : taskReady s tsel kind ret rf = true) : taskFault s tsel kind ret rf = none := by
  obtain ⟨hc, hldt, hsegs, heip⟩ := (taskReady_iff ..).1 h
  obtain ⟨hflat, -, -⟩ := (taskCommits_iff ..).1 hc
  obtain ⟨hleft, hpe⟩ := taskLeft_flat hflat tsel kind ret rf
  rw [taskFault_eq, namedFault]
  generalize hu : taskImaged (taskLeft s tsel kind ret rf) (decide (kind = .call ∨ kind = .int)) = u at *
  have hflatu : u.flat = true := hu ▸ hleft
  have hpeu : u.cr0.pe = true := hu ▸ hpe.trans hp
  obtain ⟨hflatv, hcr0, -⟩ := ldtLoaded_frame u u.ldtr.selector
  rw [taskSegsStop_none (hflatv.trans hflatu) (hcr0 ▸ hpeu) hsegs, hldt, (KeepsTask.taskSegsLoaded _).eip]
  simp [heip]

theorem taskSwitch_completes {s : State} (hp : s.cr0.pe = true) {tsel : Word16} {kind : SwitchKind} {ret : Word32}
    {rf : Bool} (h : taskReady s tsel kind ret rf = true) :
    taskSwitch tsel kind ret rf s = .ok () (taskSwitched s tsel kind ret rf) := by
  rw [taskSwitch_commits hp ret rf ((taskReady_iff ..).1 h).1, taskReady_no_fault hp h]

end Sys2Proof.Machine
end

section
/-!
PROOF. The instructions that switch tasks: far JMP and CALL to a task state segment or a task gate, and IRET with NT
set.
-/
namespace Sys2Proof.Machine

open Sys2Proof.Claims

/-! ## The instructions that switch tasks -/

/-- An exception of the new task waits in it. -/
theorem transfer_postponed {s t : State} {body : M Retire} {e : Byte × Word32} (hp : s.prefixesOk false)
    (hb : body s.begun = .error (newTaskStop e) t) : transfer body s = .next (taskPostponed t e) := by
  have h : (do checkPrefixes false; body : M Retire) s.begun = .error (newTaskStop e) t := by
    simp only [M_bind, checkPrefixes_run hp, hb]
  exact congrArg (conclude s) h

/-- No check of step 1 of R520 raises exception 8. -/
theorem taskChecks_vector {s : State} {tsel : Word16} {kind : SwitchKind} {e : Byte × Word32}
    (h : firstFailing (taskChecks s tsel kind) = some e) : e.1 ≠ 8 := by
  have hmem := mem_of_firstFailing h
  obtain ⟨v, c⟩ := e
  rintro rfl
  cases kind <;> simp [taskChecks] at hmem

theorem taskEntryChecks_vector {s : State} {call : Bool} {sel : Word16} {e : Byte × Word32}
    (h : firstFailing (taskEntryChecks s call sel) = some e) : e.1 ≠ 8 := by
  rw [taskEntryChecks, firstFailing_cons] at h
  split at h
  · split at h
    · rw [firstFailing_cons] at h
      split at h
      · exact taskChecks_vector h
      · cases h
        simp
    · exact taskChecks_vector h
  · cases h
    simp

/-- How a far jump or call goes. -/
def viaOf (call : Bool) : Via := if call then .call else .jump

/-- A far jump or call is its steps after the far pointer has been read. -/
theorem exec_far {s : State} (call : Bool) {f : FarForm} (hr : f.ready s = true) :
    ∃ body : M Retire, exec (f.instr call) s = transfer body s ∧
      body s.begun = farSteps (viaOf call) (f.pointer s).2 (f.pointer s).1 (f.after s.begun) := by
  cases f with
  | direct p => cases call <;> exact ⟨_, rfl, rfl⟩
  | indirect m =>
    have hread : readFar m s.begun = .ok (farPointer s m) (afterFar s.begun m) := by
      rw [← farPointer_begun]
      exact readFar_flat ((farReadable_begun s m).trans hr)
    cases call
    · exact ⟨jmpForm (.farMp m), rfl, M_bind_ok hread⟩
    · exact ⟨callForm (.farMp m), rfl, M_bind_ok hread⟩

/-- The descriptor that a selector names is a task state segment or a task gate. -/
structure TaskDesc (t : State) (sel : Word16) (la : Word32) : Prop where
  notNull : selNull sel = false
  addr : t.descAddr sel = some la
  system : (descAt t la).isSegment = false
  type : (descAt t la).type = 1 ∨ (descAt t la).type = 9 ∨ (descAt t la).type = 5

/-- A far jump or call whose selector names a task state segment or a task gate (R505). -/
theorem farSteps_task {t : State} (hf : t.flat = true) (hp : t.protectedMode = true) {sel : Word16} {la : Word32}
    (hd : TaskDesc t sel la) (via : Via) (off : Word32) :
    farSteps via sel off t = toTask via sel (descAt t la) t := by
  have hcode : (descAt t la).isCode = false := by simp [Desc.isCode, hd.system]
  have hfetch : fetchDesc 13 sel t = .ok (descAt t la, la) t := by
    rw [fetchDesc_checks hf, afterChecks_cons, afterChecks_nil, namedDesc_of_some hd.addr, namedAddr_of_some hd.addr,
      hd.addr]
    rfl
  have hgate : ¬(!(descAt t la).isSegment && ((descAt t la).type == 4 || (descAt t la).type == 12)) = true := by
    rcases hd.type with ht | ht | ht <;> simp [ht]
  have htask : (!(descAt t la).isSegment &&
      ((descAt t la).type == 1 || (descAt t la).type == 9 || (descAt t la).type == 5)) = true := by
    rcases hd.type with ht | ht | ht <;> simp [hd.system, ht]
  rw [farSteps, M_get_bind, if_pos hp, farProtectedSteps, require0_bind, if_pos (by rw [hd.notNull]; rfl),
    M_bind_ok hfetch]
  dsimp only
  rw [M_get_bind, if_neg (by rw [hcode]; exact Bool.false_ne_true), if_neg hgate, if_pos htask]

theorem taskDesc_of_names {t : State} {sel : Word16} (hn : namesSystem t sel = true)
    (ht : [1, 5, 9].contains (namedDesc t sel).type = true) : ∃ la, TaskDesc t sel la := by
  rw [namesSystem] at hn
  cases ha : t.descAddr sel with
  | none =>
    rw [namedDesc, ha] at ht
    exact absurd ht (show ¬[1, 5, 9].contains (0 : Desc).type = true by decide)
  | some la =>
    rw [namedDesc_of_some ha] at hn ht
    simp at hn ht
    exact ⟨la, hn.1.1, ha, hn.1.2, by tauto⟩

/-- The task that a selector names, and the checks passed to reach it. -/
theorem taskNamed_some {t : State} {sel tsel : Word16} (h : taskNamed t sel = some tsel) :
    t.flat = true ∧ ∃ la, TaskDesc t sel la ∧ privOk t.cpl sel (descAt t la) = true ∧
      (((descAt t la).type = 1 ∨ (descAt t la).type = 9) ∧ tsel = sel ∨
        (descAt t la).type = 5 ∧ (descAt t la).present = true ∧ tsel = gateSelector (descAt t la)) := by
  rw [taskNamed] at h
  split at h
  · cases h
  next hnf =>
    obtain ⟨hn, hf⟩ : selNull sel = false ∧ t.flat = true := by simpa using hnf
    split at h
    next la ha =>
      dsimp only at h
      split at h
      · cases h
      next hsp =>
        obtain ⟨hs, hpriv⟩ : (descAt t la).isSegment = false ∧ privOk t.cpl sel (descAt t la) = true := by
          simpa using hsp
        split at h
        next ht =>
          have ht : (descAt t la).type = 1 ∨ (descAt t la).type = 9 := by simpa using ht
          cases h
          exact ⟨hf, la, ⟨hn, ha, hs, by tauto⟩, hpriv, .inl ⟨ht, rfl⟩⟩
        · split at h
          next ht =>
            obtain ⟨ht, hpres⟩ : (descAt t la).type = 5 ∧ (descAt t la).present = true := by simpa using ht
            cases h
            exact ⟨hf, la, ⟨hn, ha, hs, by tauto⟩, hpriv, .inr ⟨ht, hpres, rfl⟩⟩
          next => cases h
    next => cases h

/-- A switch that a far jump or call reaches (R505). -/
theorem farSteps_named {t : State} (hp : t.protectedMode = true) {sel tsel : Word16} (h : taskNamed t sel = some tsel)
    (via : Via) (off : Word32) :
    farSteps via sel off t = (do taskSwitch tsel via.switch t.nextEip false; return .loaded : M Retire) t := by
  obtain ⟨hf, la, hd, hpriv, hsel⟩ := taskNamed_some h
  rw [farSteps_task hf hp hd, toTask, M_get_bind, requireSel_bind, if_pos hpriv]
  rcases hsel with ⟨ht, rfl⟩ | ⟨ht, hpres, rfl⟩
  · rw [if_neg (by rcases ht with ht | ht <;> simp [ht])]
  · rw [if_pos (by simp [ht]), requireSel_bind, if_pos hpres]

/-- A far jump or call to a task that a check refuses (R505, R520). -/
theorem farSteps_task_refused {t : State} (hf : t.flat = true) (hp : t.protectedMode = true) {sel : Word16}
    (hn : namesSystem t sel = true) (ht : [1, 5, 9].contains (namedDesc t sel).type = true) {call : Bool} (off : Word32)
    {e : Byte × Word32} (he : firstFailing (taskEntryChecks t call sel) = some e) :
    farSteps (viaOf call) sel off t = .error (checkStop e.1 e.2) t := by
  obtain ⟨la, hd⟩ := taskDesc_of_names hn ht
  have hkind : (viaOf call).switch = if call then .call else .jmp := by cases call <;> rfl
  have hswitch {tsel : Word16} (h : firstFailing (taskChecks t tsel (if call then .call else .jmp)) = some e) :
      (do taskSwitch tsel (viaOf call).switch t.nextEip false; return .loaded : M Retire) t =
        .error (checkStop e.1 e.2) t := by
    rw [← hkind] at h
    exact M_bind_error (taskSwitch_refused hf _ _ h)
  rw [farSteps_task hf hp hd, toTask, M_get_bind, requireSel_bind]
  rw [taskEntryChecks, namedDesc_of_some hd.addr, firstFailing_cons] at he
  split at he
  next hpriv =>
    rw [if_pos hpriv]
    split at he
    next h5 =>
      rw [if_pos (by simp [h5]), requireSel_bind]
      rw [firstFailing_cons] at he
      split at he
      next hpres =>
        rw [if_pos hpres]
        exact hswitch he
      next hpres =>
        rw [if_neg hpres]
        cases he
        rfl
    next h5 =>
      rw [if_neg (by simp [h5])]
      exact hswitch he
  next hpriv =>
    rw [if_neg hpriv]
    cases he
    rfl

/-! ## Far jumps and calls -/

/-- The read of a far pointer leaves nothing behind but debug matches. -/
theorem far_after (s : State) (f : FarForm) : ∃ d, f.after s.begun = { s.begun with trap := d } := by
  cases f <;> exact ⟨_, rfl⟩

/-- The kind of the switch that a far jump or call makes. -/
theorem viaOf_switch (call : Bool) : (viaOf call).switch = if call then .call else .jmp := by cases call <;> rfl

/-- A far jump or call that names a task is a task switch. -/
theorem farSteps_switch {s : State} (call : Bool) {f : FarForm} {tsel : Word16} (hp : s.protectedMode = true)
    (hn : taskNamed s (f.pointer s).2 = some tsel) (off : Word32) :
    farSteps (viaOf call) (f.pointer s).2 off (f.after s.begun) =
      (do taskSwitch tsel (if call then .call else .jmp) s.nextEip false; return .loaded : M Retire)
        (f.after s.begun) := by
  obtain ⟨d, hafter⟩ := far_after s f
  rw [hafter, ← viaOf_switch]
  exact farSteps_named (t := { s.begun with trap := d }) hp hn (viaOf call) off

theorem far_pe {s : State} (f : FarForm) (hp : s.protectedMode = true) : (f.after s.begun).cr0.pe = true := by
  obtain ⟨d, hafter⟩ := far_after s f
  rw [hafter]
  exact ((protectedMode_iff s).1 hp).1

theorem exec_far_task {s : State} {call : Bool} {f : FarForm} {tsel : Word16} (hpfx : s.prefixesOk false)
    (hp : s.protectedMode = true) (hr : f.ready s = true) (hn : taskNamed s (f.pointer s).2 = some tsel)
    (h : taskReady (f.after s.begun) tsel (if call then .call else .jmp) s.nextEip false = true) :
    exec (f.instr call) s = .next (retire s
      (taskSwitched (f.after s.begun) tsel (if call then .call else .jmp) s.nextEip false) .loaded) := by
  obtain ⟨body, hexec, hbody⟩ := exec_far call hr
  rw [farSteps_switch call hp hn, M_bind_ok (taskSwitch_completes (far_pe f hp) h)] at hbody
  exact hexec.trans (transfer_next hpfx hbody)

theorem exec_far_task_refused {s : State} {call : Bool} {f : FarForm} (hpfx : s.prefixesOk false)
    (hp : s.protectedMode = true) (hf : s.flat = true) (hr : f.ready s = true)
    (hn : namesSystem s (f.pointer s).2 = true) (ht : [1, 5, 9].contains (namedDesc s (f.pointer s).2).type = true)
    {v : Byte} {c : Word32} (he : firstFailing (taskEntryChecks s call (f.pointer s).2) = some (v, c)) :
    exec (f.instr call) s = deliver s (s.faultEvent v (some c)) := by
  obtain ⟨body, hexec, hbody⟩ := exec_far call hr
  obtain ⟨d, hafter⟩ := far_after s f
  rw [hafter] at hbody
  have hsteps := farSteps_task_refused (t := { s.begun with trap := d }) hf hp hn ht (f.pointer s).1 he
  exact hexec.trans
    (transfer_exc (t := { s.begun with trap := d }) hpfx (taskEntryChecks_vector he) (hbody.trans hsteps))

theorem exec_far_task_fault {s : State} {call : Bool} {f : FarForm} {tsel : Word16} (hpfx : s.prefixesOk false)
    (hp : s.protectedMode = true) (hr : f.ready s = true) (hn : taskNamed s (f.pointer s).2 = some tsel)
    (hc : taskCommits s tsel (if call then .call else .jmp) = true) {e : Byte × Word32} {t : State}
    (h : taskFault (f.after s.begun) tsel (if call then .call else .jmp) s.nextEip false = some (e, t)) :
    exec (f.instr call) s = .next (taskPostponed t e) := by
  obtain ⟨body, hexec, hbody⟩ := exec_far call hr
  have hcommits : taskCommits (f.after s.begun) tsel (if call then .call else .jmp) = true := by
    obtain ⟨d, hafter⟩ := far_after s f
    rw [hafter]
    exact hc
  have hswitch := taskSwitch_commits (far_pe f hp) s.nextEip false hcommits
  rw [h] at hswitch
  rw [farSteps_switch call hp hn, M_bind_error hswitch] at hbody
  exact hexec.trans (transfer_postponed hpfx hbody)

/-! ## IRET with NT set -/

/-- The back link of the current task. -/
def backLink (s : State) : Word16 := Claims.fieldAt s .w16 s.tr.base

/-- The result of a task switch by IRET, which ends the blocking of NMI. -/
theorem iretOp_nested {s : State} (hf : s.flat = true) (hp : s.protectedMode = true) (hnt : s.flags.nt = true) :
    iretOp s = (do
      taskSwitch (backLink s) .iret s.nextEip false
      modify fun s => { s with nmiBlocked := false } : M Unit) s := by
  have hret : iretProtected s.osz s = taskSwitch (backLink s) .iret s.nextEip false s := by
    rw [iretProtected, M_get_bind, if_pos hnt]
    exact M_bind_ok (sysRead_field hf .w16 _)
  rw [iretOp, M_get_bind, if_pos hp, M_bind, hret, M_bind]

theorem exec_iret_task {s : State} (hpfx : s.prefixesOk false) (hp : s.protectedMode = true) (hnt : s.flags.nt = true)
    (h : taskReady s.begun (backLink s) .iret s.nextEip false = true) :
    exec .iret s = .next (retire s
      { taskSwitched s.begun (backLink s) .iret s.nextEip false with nmiBlocked := false } .loaded) := by
  obtain ⟨hf, -, -⟩ := (taskCommits_iff ..).1 ((taskReady_iff ..).1 h).1
  have hswitch := taskSwitch_completes (s := s.begun) ((protectedMode_iff s).1 hp).1 h
  have hop := (iretOp_nested (s := s.begun) hf hp hnt).trans (M_bind_ok hswitch)
  exact transfer_next hpfx (M_bind_ok hop)

theorem exec_iret_task_refused {s : State} (hpfx : s.prefixesOk false) (hp : s.protectedMode = true)
    (hf : s.flat = true) (hnt : s.flags.nt = true) {v : Byte} {c : Word32}
    (he : firstFailing (taskChecks s (backLink s) .iret) = some (v, c)) :
    exec .iret s = deliver s (s.faultEvent v (some c)) := by
  have hswitch := taskSwitch_refused (s := s.begun) hf s.nextEip false he
  have hop := (iretOp_nested (s := s.begun) hf hp hnt).trans (M_bind_error hswitch)
  exact transfer_exc (t := s.begun) hpfx (taskChecks_vector he) (M_bind_error hop)

theorem exec_iret_task_fault {s : State} (hpfx : s.prefixesOk false) (hp : s.protectedMode = true)
    (hf : s.flat = true) (hnt : s.flags.nt = true) {e : Byte × Word32} {t : State}
    (hc : taskCommits s (backLink s) .iret = true)
    (h : taskFault s.begun (backLink s) .iret s.nextEip false = some (e, t)) :
    exec .iret s = .next (taskPostponed t e) := by
  have hswitch := taskSwitch_commits (s := s.begun) ((protectedMode_iff s).1 hp).1 s.nextEip false hc
  rw [h] at hswitch
  have hop := (iretOp_nested (s := s.begun) hf hp hnt).trans (M_bind_error hswitch)
  exact transfer_postponed hpfx (M_bind_error hop)

end Sys2Proof.Machine
end

section
/-!
PROOF. Deliveries through a task gate of the interrupt table, and INT n, INT 3 and INTO through one. It settles O46.
-/
namespace Sys2Proof.Machine

open Sys2Proof.Claims

/-! ## The shadow does not count in a task switch -/

theorem setPhysBytes_begun (s : State) (as : List Word32) (bs : List Byte) :
    s.begun.setPhysBytes as bs = (s.setPhysBytes as bs).begun := by
  induction as generalizing s bs with
  | nil => cases bs <;> rfl
  | cons a as ih =>
    cases bs with
    | nil => rfl
    | cons b bs => exact ih (s.setPhysByte a b) bs

theorem withField_begun (s : State) (w : Width) (la : Word32) (v : BitVec w.bits) :
    withField s.begun w la v = (withField s w la v).begun := setPhysBytes_begun ..

theorem withFields_begun (s : State) (w : Width) (base : Word32) (l : List (Nat × BitVec w.bits)) :
    withFields s.begun w base l = (withFields s w base l).begun := by
  induction l generalizing s with
  | nil => rfl
  | cons p l ih => rw [withFields_cons, withField_begun, ih, withFields_cons]

theorem taskSaved_begun (s : State) (ret : Word32) (f : EFlags) :
    taskSaved s.begun ret f = (taskSaved s ret f).begun := by
  rw [taskSaved_eq, taskSaved_eq]
  show (if s.tr.is386 then _ else _) = _
  split
  · rw [← withFields_begun, ← withFields_begun, ← withFields_begun, ← withFields_begun]
    rfl
  · rw [← withFields_begun, ← withFields_begun, ← withFields_begun]
    rfl

theorem ite_begun (c : Prop) [Decidable c] (t u : State) :
    (if c then t.begun else u.begun) = (if c then t else u).begun := (apply_ite State.begun c t u).symm

theorem taskLeft_begun (s : State) (tsel : Word16) (kind : SwitchKind) (ret : Word32) (rf : Bool) :
    taskLeft s.begun tsel kind ret rf = (taskLeft s tsel kind ret rf).begun := by
  have hsaved := taskSaved_begun s ret { s.flags with rf := rf, nt := s.flags.nt && decide (kind ≠ .iret) }
  unfold taskLeft
  extract_lets nd' f' t1' t2' t3' t4' c' nd f t1 t2 t3 t4 c
  have h1 : t1' = t1.begun := hsaved
  have hstep {c : Prop} [Decidable c] {t t' : State} (h : t' = t.begun) (w : Width) (la : Word32)
      (v : State → BitVec w.bits) (hv : v t.begun = v t) :
      (if c then withField t' w la (v t') else t') = (if c then withField t w la (v t) else t).begun := by
    rw [h, withField_begun, hv, ite_begun]
  have h2 : t2' = t2.begun := hstep h1 .w32 (busyWord s s.tr.selector)
    (fun t => Claims.fieldAt t .w32 (busyWord s s.tr.selector) &&& ~~~0x200) rfl
  have h3 : t3' = t3.begun := by
    show (if kind = .iret then t2'
      else withField t2' .w32 (busyWord s tsel) (Claims.fieldAt t2' .w32 (busyWord s tsel) ||| 0x200)) = _
    rw [h2, withField_begun]
    exact ite_begun _ t2 _
  have h4 : t4' = t4.begun := hstep h3 .w16 nd.base (fun _ => s.tr.selector) rfl
  rw [h4]
  rfl

theorem taskImaged_begun (t : State) (nested : Bool) : taskImaged t.begun nested = (taskImaged t nested).begun := rfl

theorem ldtLoaded_begun (u : State) (sel : Word16) : ldtLoaded u.begun sel = (ldtLoaded u sel).begun := by
  unfold ldtLoaded
  split <;> rfl

theorem accessedSet_begun (s : State) (d : Desc) (la : Word32) :
    accessedSet s.begun d la = (accessedSet s d la).begun := by
  unfold accessedSet
  split
  · rfl
  · exact setPhysBytes_begun ..

theorem setSeg_begun (s : State) (r : SReg) (g : SegReg) : s.begun.setSeg r g = (s.setSeg r g).begun := by
  cases r <;> rfl

theorem afterSegLoad_begun (t : State) (r : SReg) (sel : Word16) :
    afterSegLoad t.begun r sel = (afterSegLoad t r sel).begun := by
  have hreal : t.begun.realMode = t.realMode := rfl
  have hv86 : t.begun.v86 = t.v86 := rfl
  have haddr : t.begun.descAddr sel = t.descAddr sel := rfl
  rw [afterSegLoad, afterSegLoad, seg_begun, hreal, hv86, haddr]
  cases t.realMode
  · cases t.v86
    · cases selNull sel
      · cases t.descAddr sel with
        | none => rfl
        | some la =>
          have hset := accessedSet_begun t (descAt t la) la
          exact (congrArg (State.setSeg · r _) hset).trans (setSeg_begun ..)
      · exact setSeg_begun ..
    · exact setSeg_begun ..
  · exact setSeg_begun ..

theorem taskCsLoaded_begun (v : State) : taskCsLoaded v.begun = (taskCsLoaded v).begun := by
  have hcode : codeAt v.begun v.begun.cs.selector = codeAt v v.cs.selector := rfl
  rw [taskCsLoaded, taskCsLoaded, hcode]
  cases codeAt v v.cs.selector with
  | none => rfl
  | some p =>
    dsimp only
    rw [accessedSet_begun]
    rfl

theorem foldl_begun {f : State → SReg → State} (hf : ∀ t r, f t.begun r = (f t r).begun) (l : List SReg) (t : State) :
    l.foldl f t.begun = (l.foldl f t).begun := by
  induction l generalizing t with
  | nil => rfl
  | cons r l ih => rw [List.foldl_cons, hf, ih, List.foldl_cons]

theorem taskSegsLoaded_begun (v : State) : taskSegsLoaded v.begun = (taskSegsLoaded v).begun := by
  unfold taskSegsLoaded
  rw [taskCsLoaded_begun, foldl_begun (fun t r => by rw [seg_begun, setSeg_begun]),
    foldl_begun (fun t r => by rw [seg_begun, afterSegLoad_begun])]
  exact ite_begun ..

theorem loadsInTurn_begun (l : List SReg) (t : State) : loadsInTurn l t.begun = loadsInTurn l t := by
  induction l generalizing t with
  | nil => rfl
  | cons r l ih =>
    rw [loadsInTurn, seg_begun, afterSegLoad_begun, ih]
    rfl

theorem taskSegsReady_begun (v : State) : taskSegsReady v.begun = taskSegsReady v := by
  rw [taskSegsReady, taskCsLoaded_begun, loadsInTurn_begun]
  rfl

theorem taskReady_begun (s : State) (tsel : Word16) (kind : SwitchKind) (ret : Word32) (rf : Bool) :
    taskReady s.begun tsel kind ret rf = taskReady s tsel kind ret rf := by
  rw [Bool.eq_iff_iff, taskReady_iff, taskReady_iff, taskLeft_begun]
  dsimp only
  rw [taskImaged_begun]
  generalize taskImaged (taskLeft s tsel kind ret rf) (decide (kind = .call ∨ kind = .int)) = u
  rw [ldtLoaded_begun, taskSegsReady_begun, taskSegsLoaded_begun]
  exact Iff.rfl

theorem taskSwitched_begun (s : State) (tsel : Word16) (kind : SwitchKind) (ret : Word32) (rf : Bool) :
    taskSwitched s.begun tsel kind ret rf = (taskSwitched s tsel kind ret rf).begun := by
  unfold taskSwitched
  dsimp only
  rw [taskLeft_begun, taskImaged_begun]
  generalize taskImaged (taskLeft s tsel kind ret rf) (decide (kind = .call ∨ kind = .int)) = u
  rw [ldtLoaded_begun, taskSegsLoaded_begun, apply_ite State.begun]
  rfl

/-! ## Task gates of the interrupt table -/

theorem taskGateUsable_iff (s : State) (ev : Event) : taskGateUsable s ev = true ↔
    let g := gateAt s ev.vector
    s.cr0.pe = true ∧ s.flat = true ∧ 8 * ev.vector.toNat + 7 ≤ s.idtr.limit.toNat ∧ g.isSegment = false ∧ g.type = 5 ∧
      (ev.kind != .software || lvlLe s.cpl g.dpl) = true ∧ g.present = true := by
  simp only [taskGateUsable, Bool.and_eq_true, decide_eq_true_eq, Bool.not_eq_true', beq_iff_eq, and_assoc]

/-- The step 1 checks of R646 let a usable task gate pass. -/
theorem enterProtected_task {s : State} {ev : Event} (h : taskGateUsable s ev = true) :
    enterProtected ev s = enterTask (gateAt s ev.vector) ev s := by
  obtain ⟨-, hf, hlim, hsys, htype, hpriv, hpres⟩ := (taskGateUsable_iff s ev).1 h
  have hread : readDesc (s.idtr.base + BitVec.ofNat 32 (8 * ev.vector.toNat)) s = .ok (gateAt s ev.vector) s :=
    readDesc_flat hf _
  have hallowed : ¬(ev.kind == .software && !lvlLe s.cpl (gateAt s ev.vector).dpl) = true := by
    cases hk : ev.kind <;> rw [hk] at hpriv <;> simp at hpriv ⊢
    exact hpriv
  rw [enterProtected, M_get_bind]
  dsimp only
  rw [if_neg (Nat.not_lt.2 hlim), M_bind_ok hread, if_neg (by simp [hsys, htype]), if_neg hallowed,
    if_neg (by simp [hpres]), if_pos (by simp [htype])]

/-- What the entry does once the handler is reached. -/
def enterEnd (ev : Event) : M Unit := do
  if ev.vector == 1 then modify fun s => { s with dr7 := s.dr7 &&& 0xFFFFDFFF }
  modify fun s =>
    { s with stale := Stale.none, pfx := Pfx.none, shadow := .none, midRep := false, run := .executing }

theorem enter_task {s : State} {ev : Event} (h : taskGateUsable s ev = true) :
    enter ev s = (do enterTask (gateAt s ev.vector) ev; enterEnd ev : M Unit) s := by
  obtain ⟨hpe, -⟩ := (taskGateUsable_iff s ev).1 h
  rw [enter, M_get_bind, if_neg (by simp [State.realMode, hpe]), M_bind, enterProtected_task h, M_bind]
  rfl

theorem enterEnd_run (ev : Event) (t : State) : enterEnd ev t = .ok () (taskHandlerStarted t ev.vector) := by
  rw [enterEnd, taskHandlerStarted]
  by_cases hv : ev.vector = 1
  · rw [if_pos (beq_iff_eq.2 hv), if_pos hv]
    rfl
  · rw [if_neg (mt beq_iff_eq.1 hv), if_neg hv]
    rfl

/-- The error code of the event goes on the new stack. -/
def pushCode (ev : Event) : M Unit :=
  match ev.code with
  | some c => do
    let s ← get
    inNewTask (push (if s.tr.is386 then .s32 else .s16) c)
  | none => pure ()

/-- The test that the gate's selector names an entry of the GDT is the first check of the switch. -/
theorem enterTask_eq {s : State} (hf : s.flat = true) (g : Desc) (ev : Event) :
    enterTask g ev s = (do taskSwitch (gateSelector g) .int ev.ret ev.rf; pushCode ev : M Unit) s := by
  rw [enterTask, M_get_bind, requireSel_bind]
  split
  · rfl
  next hn =>
    have hfail : firstFailing (taskChecks s (gateSelector g) .int) = some (13, selCode (gateSelector g)) := by
      rw [taskChecks, firstFailing_cons, if_neg hn]
      rfl
    exact (M_bind_error (taskSwitch_refused hf ev.ret ev.rf hfail)).symm

theorem enter_task_refused {s : State} {ev : Event} (h : taskGateUsable s ev = true) {v : Byte} {c : Word32}
    (he : firstFailing (taskChecks s (gateSelector (gateAt s ev.vector)) .int) = some (v, c)) :
    enter ev s = .error (.exc { vector := v, code := some c, newTask := false }) s := by
  obtain ⟨-, hf, -⟩ := (taskGateUsable_iff s ev).1 h
  have hswitch := taskSwitch_refused hf ev.ret ev.rf he
  rw [enter_task h]
  exact M_bind_error ((enterTask_eq hf _ ev).trans (M_bind_error hswitch))

theorem enter_task_fault {s : State} {ev : Event} (h : taskGateUsable s ev = true)
    (hc : taskCommits s (gateSelector (gateAt s ev.vector)) .int = true) {e : Byte × Word32} {t : State}
    (he : taskFault s (gateSelector (gateAt s ev.vector)) .int ev.ret ev.rf = some (e, t)) :
    enter ev s = .error (newTaskStop e) t := by
  obtain ⟨hpe, hf, -⟩ := (taskGateUsable_iff s ev).1 h
  have hswitch := taskSwitch_commits hpe ev.ret ev.rf hc
  rw [he] at hswitch
  rw [enter_task h]
  exact M_bind_error ((enterTask_eq hf _ ev).trans (M_bind_error hswitch))

/-- The state after the switch of a delivery. -/
def gateSwitched (s : State) (ev : Event) : State :=
  taskSwitched s (gateSelector (gateAt s ev.vector)) .int ev.ret ev.rf

/-- The size of the items of the current task's stack, for the error code. -/
def codeSize (s : State) : Size := if s.tr.is386 then .s32 else .s16

theorem enter_task_switched {s : State} {ev : Event} (h : taskGateUsable s ev = true)
    (hr : taskReady s (gateSelector (gateAt s ev.vector)) .int ev.ret ev.rf = true) :
    enter ev s = (do pushCode ev; enterEnd ev : M Unit) (gateSwitched s ev) := by
  obtain ⟨hpe, hf, -⟩ := (taskGateUsable_iff s ev).1 h
  have hswitch := taskSwitch_completes hpe hr
  rw [enter_task h, M_bind, enterTask_eq hf, M_bind_ok hswitch, M_bind]
  rfl

theorem pushCode_run {s : State} {ev : Event} (h : (ev.code.isNone || s.canPush (codeSize s)) = true) :
    pushCode ev s = .ok () (pushedItems s (codeSize s) ev.code.toList) := by
  rw [pushCode]
  cases hcode : ev.code with
  | none => rfl
  | some c =>
    rw [hcode, Option.isNone_some, Bool.false_or] at h
    have hpush := push_flat c h
    show inNewTask (push (codeSize s) c) s = _
    rw [inNewTask, hpush]
    rfl

theorem pushCode_refused {s : State} {ev : Event} (hf : s.flat = true) (hcode : ev.code.isSome = true)
    (h : s.canPush (codeSize s) = false) : pushCode ev s = .error (newTaskStop (12, 0)) s := by
  obtain ⟨c, hcode⟩ := Option.isSome_iff_exists.1 hcode
  rw [State.canPush, State.canAccess, hf, Bool.true_and] at h
  have hpush := push_unheld c h
  rw [pushCode, hcode]
  show inNewTask (push (codeSize s) c) s = _
  rw [inNewTask, hpush]
  rfl

theorem enter_task_completes {s : State} {ev : Event} (h : taskEntryReady s ev = true) :
    enter ev s = .ok () (taskEntered s ev) := by
  obtain ⟨⟨husable, hready⟩, hpush⟩ : (taskGateUsable s ev = true ∧
      taskReady s (gateSelector (gateAt s ev.vector)) .int ev.ret ev.rf = true) ∧
      (ev.code.isNone || (gateSwitched s ev).canPush (codeSize (gateSwitched s ev))) = true := by
    rw [← Bool.and_eq_true, ← Bool.and_eq_true]
    exact h
  rw [enter_task_switched husable hready, M_bind_ok (pushCode_run hpush), enterEnd_run]
  rfl

theorem gateSwitched_flat {s : State} {ev : Event} (h : s.flat = true) : (gateSwitched s ev).flat = true := by
  have hv (u : State) : (taskSegsLoaded (ldtLoaded u u.ldtr.selector)).flat = u.flat :=
    (KeepsTask.taskSegsLoaded _).flat.trans (ldtLoaded_frame u _).1
  have hflat := hv (taskImaged (taskLeft s (gateSelector (gateAt s ev.vector)) .int ev.ret ev.rf) true)
  unfold gateSwitched taskSwitched
  dsimp only
  split
  · exact hflat.trans (taskLeft_flat h ..).1
  · exact hflat.trans (taskLeft_flat h ..).1

theorem enter_task_unheld {s : State} {ev : Event} (h : taskGateUsable s ev = true)
    (hr : taskReady s (gateSelector (gateAt s ev.vector)) .int ev.ret ev.rf = true) (hcode : ev.code.isSome = true)
    (hp : (gateSwitched s ev).canPush (codeSize (gateSwitched s ev)) = false) :
    enter ev s = .error (newTaskStop (12, 0)) (gateSwitched s ev) := by
  obtain ⟨-, hf, -⟩ := (taskGateUsable_iff s ev).1 h
  rw [enter_task_switched h hr]
  exact M_bind_error (pushCode_refused (gateSwitched_flat hf) hcode hp)

theorem deliver_task {s : State} {ev : Event} (h : taskEntryReady s ev = true) :
    deliver s ev = .next (taskEntered s ev) := by
  rw [deliver, deliverFuel, enter_task_completes h]

/-! ## Software interrupts through a task gate -/

/-- INT n, INT 3 and INTO, where they run, enter the handler of their event. -/
theorem exec_softInt {s : State} {i : Instr} {v : Byte} (h : softVector s i = some v) :
    ∃ body : M Retire, exec i s = transfer body s ∧
      body s.begun = (do enter (softEvent s v); return .loaded : M Retire) s.begun := by
  have hsoft (n : Byte) : softInt n s.begun = (do enter (softEvent s n); return .loaded : M Retire) s.begun := rfl
  unfold softVector at h
  split at h
  next n =>
    refine ⟨_, rfl, ?_⟩
    split at h
    · cases h
    next hv86 =>
      cases h
      have hallowed : s.v86Allowed = true := by
        rw [State.v86Allowed]
        cases hv : s.v86
        · rfl
        · simpa [hv] using hv86
      rw [M_get_bind, require0_bind, if_pos (show s.begun.v86Allowed = true from hallowed), hsoft]
  next =>
    cases h
    exact ⟨_, rfl, hsoft 3⟩
  next =>
    refine ⟨_, rfl, ?_⟩
    split at h
    next hof =>
      cases h
      rw [M_get_bind, if_pos (show s.begun.flags.ovf = true from hof)]
      exact hsoft 4
    next => cases h
  next => cases h

/-- The shadow does not count in the entry through a task gate. -/
theorem taskEntryReady_begun (s : State) (ev : Event) : taskEntryReady s.begun ev = taskEntryReady s ev := by
  have hgate : gateAt s.begun ev.vector = gateAt s ev.vector := rfl
  have husable : taskGateUsable s.begun ev = taskGateUsable s ev := rfl
  rw [taskEntryReady, taskEntryReady, hgate, husable, taskReady_begun, taskSwitched_begun, canPush_begun]
  rfl

theorem exec_softInt_task {s : State} {i : Instr} {v : Byte} (hpfx : s.prefixesOk false) (hv : softVector s i = some v)
    (h : taskEntryReady s (softEvent s v) = true) :
    exec i s = .next (retire s (taskEntered s.begun (softEvent s v)) .loaded) := by
  obtain ⟨body, hexec, hbody⟩ := exec_softInt hv
  rw [← taskEntryReady_begun] at h
  rw [M_bind_ok (enter_task_completes h)] at hbody
  exact hexec.trans (transfer_next hpfx hbody)

theorem exec_softInt_refused {s : State} {i : Instr} {n v : Byte} {c : Word32} (hpfx : s.prefixesOk false)
    (hn : softVector s i = some n) (h : taskGateUsable s (softEvent s n) = true)
    (he : firstFailing (taskChecks s (gateSelector (gateAt s n)) .int) = some (v, c)) :
    exec i s = deliver s (s.faultEvent v (some c)) := by
  obtain ⟨body, hexec, hbody⟩ := exec_softInt hn
  rw [M_bind_error (enter_task_refused (s := s.begun) h he)] at hbody
  exact hexec.trans (transfer_exc (t := s.begun) hpfx (taskChecks_vector he) hbody)

end Sys2Proof.Machine

open Sys2Proof Sys2Proof.Machine Sys2Proof.Claims

/-- Settles O46: the steps of R520 one after the other, and the instructions and deliveries that come to them. -/
theorem taskSwitchResult : Obligations.TaskSwitchResult := by
  unfold Obligations.TaskSwitchResult
  intro s
  refine ⟨?_, ?_, ?_, ?_, ?_, ?_, ?_, ?_⟩
  · exact fun call f tsel hpfx hp hr hn h => exec_far_task hpfx hp hr hn h
  · exact fun hpfx hp hnt h => exec_iret_task hpfx hp hnt h
  · exact fun ev h => deliver_task h
  · exact fun i v hpfx hv h => exec_softInt_task hpfx hv h
  · exact fun call f hpfx hp hf hr hn ht =>
      ⟨fun v c he => exec_far_task_refused hpfx hp hf hr hn ht he,
        fun tsel e t hn hc h => exec_far_task_fault hpfx hp hr hn hc h⟩
  · exact fun hpfx hp hf hnt =>
      ⟨fun v c he => exec_iret_task_refused hpfx hp hf hnt he, fun e t hc h => exec_iret_task_fault hpfx hp hf hnt hc h⟩
  · exact fun ev hu =>
      ⟨fun v c he => enter_task_refused hu he, fun v c t hc h => enter_task_fault hu hc h,
        fun hr hcode hp => enter_task_unheld hu hr hcode hp⟩
  · exact fun i n v c hpfx hn hu he => exec_softInt_refused hpfx hn hu he
end
section
/-!
PROOF. The coprocessor: the table of R602, the transfer of an operand, and a store that comes late. It settles O58.
-/
namespace Sys2Proof.Machine

open Sys2Proof.Claims

/-! ## Items of an operand -/

/-- The pieces of a list by their numbers: the number of pieces is the length divided by their size, rounded up. -/
theorem piecesOf_eq_map_range {α : Type} {k : Nat} (hk : 0 < k) (fuel : Nat) (l : List α) (h : l.length ≤ fuel) :
    piecesOf k fuel l = (List.range ((l.length + k - 1) / k)).map fun i => (l.drop (k * i)).take k := by
  induction fuel generalizing l with
  | zero =>
    obtain rfl := List.length_eq_zero_iff.mp (Nat.le_zero.mp h)
    simp [piecesOf, Nat.div_eq_of_lt (Nat.sub_lt hk Nat.one_pos)]
  | succ n ih =>
    cases l with
    | nil => simp [piecesOf, Nat.div_eq_of_lt (Nat.sub_lt hk Nat.one_pos)]
    | cons a t =>
      have hlen : (((a :: t).drop k).length + k - 1) / k + 1 = ((a :: t).length + k - 1) / k := by
        simp only [List.length_drop, List.length_cons]
        by_cases hle : k ≤ t.length + 1
        · rw [show t.length + 1 + k - 1 = t.length + 1 - k + k - 1 + k by omega, Nat.add_div_right _ hk]
        · rw [show t.length + 1 + k - 1 = t.length + k by omega, Nat.add_div_right _ hk,
            Nat.div_eq_of_lt (a := t.length) (by omega), Nat.div_eq_of_lt (by omega)]
      have hdrop : ((a :: t).drop k).length ≤ n := by
        simp only [List.length_drop, List.length_cons] at h ⊢
        omega
      rw [← hlen, List.range_succ_eq_map, List.map_cons, List.map_map, piecesOf, ih _ hdrop]
      simp [Function.comp_def, List.drop_drop, Nat.mul_succ, Nat.add_comm]

theorem copItem_pos (s : State) : 0 < s.copItem := by
  unfold State.copItem
  split <;> decide

theorem copMoved_eq_itemsPassed (s : State) (f : List Byte → BusEvent) (bs : List Byte) :
    s.copMoved f bs = itemsPassed s f bs := by
  rw [State.copMoved, piecesOf_eq_map_range (copItem_pos s) _ _ (Nat.le_refl _)]
  rfl

/-! ## The table of R602 -/

/-- The operand of an ESC instruction as the table of R602 has it: the size of the 80386's operand gives the bytes listed
for a 16-bit and for a 32-bit operand size. -/
inductive EscNames : EscUse → EscOperand → Prop
  | none : EscNames .none .none
  | reads (m : MemOp) (z : EscSize) : EscNames (.reads m (z.bytes .s16) (z.bytes .s32)) (.load m z)
  | writes (m : MemOp) (z : EscSize) : EscNames (.writes m (z.bytes .s16) (z.bytes .s32)) (.store m z)
  | ax : EscNames .ax .ax

/-- The ESC instruction `i` with the operand `o`: its opcode as encoded (R603), and whether it waits and is a control
instruction (R609, R613). -/
def escOf (i : Instr) (o : EscOperand) : Esc :=
  { opcode := escCode i, operand := o, waits := !escNoWait i, control := escControl i }

/-- `i` runs the steps of an ESC instruction with the operand of `u`. -/
def RunsEsc (i : Instr) (u : EscUse) : Prop :=
  ∃ o, EscNames u o ∧ ∀ s, exec i s = transfer (escSteps (escOf i o)) s

/-- The opcode of a form with an operand in memory. -/
theorem escCode_mem {i : Instr} {b : Byte} {m : MemOp} {reg : Fin 8} (h : encode i = b :: m.encode reg) :
    escCode i = b.extractLsb' 0 3 ++ (m.encode reg).headD 0 := by
  rw [escCode, h]
  cases m <;> rfl

/-- A form with an operand in memory, its opcode read off the encoding. -/
theorem runsEsc_mem {i : Instr} {u : EscUse} {b : Byte} {m : MemOp} {reg : Fin 8} {o : EscOperand}
    (henc : encode i = b :: m.encode reg) (ho : EscNames u o)
    (hx : ∀ s, exec i s = transfer (escSteps
      { escOf i o with opcode := b.extractLsb' 0 3 ++ (m.encode reg).headD 0 }) s) : RunsEsc i u := by
  refine ⟨o, ho, fun s => ?_⟩
  rw [hx s, ← escCode_mem henc]
  rfl

theorem runsEsc_reg {i : Instr} (hx : ∀ s, exec i s = transfer (escSteps (escOf i .none)) s) : RunsEsc i .none :=
  ⟨.none, .none, hx⟩

theorem feniEsc_eq (i : Fin 8) : feniEsc i = escOf (.feniGroup i) .none := by decide +revert

theorem fnstswAxEsc_eq (i : Fin 8) :
    fnstswAxEsc i = escOf (.fnstswAx i) (if i = 0 then .ax else .none) := by decide +revert

/-- Every instruction of the table of R602 runs the steps of an ESC instruction, with the operand that the table gives. -/
theorem runsEsc_of_escUse {i : Instr} {u : EscUse} (h : escUse i = some u) : RunsEsc i u := by
  cases i
  case fadd f | fmul f | fsub f | fsubr f | fdiv f | fdivr f =>
    obtain rfl := Option.some.inj h
    cases f with
    | m32 m => exact runsEsc_mem rfl (.reads m (.fixed 4)) fun _ => rfl
    | m64 m => exact runsEsc_mem rfl (.reads m (.fixed 8)) fun _ => rfl
    | stSti st => exact runsEsc_reg fun _ => rfl
    | stiSt st => exact runsEsc_reg fun _ => rfl
  case fcom f | fcomp f =>
    obtain rfl := Option.some.inj h
    cases f with
    | m32 m => exact runsEsc_mem rfl (.reads m (.fixed 4)) fun _ => rfl
    | m64 m => exact runsEsc_mem rfl (.reads m (.fixed 8)) fun _ => rfl
    | stSti st => exact runsEsc_reg fun _ => rfl
  case fiadd f | fimul f | ficom f | ficomp f | fisub f | fisubr f | fidiv f | fidivr f =>
    obtain rfl := Option.some.inj h
    cases f with
    | m32 m => exact runsEsc_mem rfl (.reads m (.fixed 4)) fun _ => rfl
    | m16 m => exact runsEsc_mem rfl (.reads m (.fixed 2)) fun _ => rfl
  case fld f =>
    cases f <;> obtain rfl := Option.some.inj h
    case m32 m => exact runsEsc_mem rfl (.reads m (.fixed 4)) fun _ => rfl
    case m64 m => exact runsEsc_mem rfl (.reads m (.fixed 8)) fun _ => rfl
    case m80 m => exact runsEsc_mem rfl (.reads m (.fixed 10)) fun _ => rfl
    case sti st => exact runsEsc_reg fun _ => rfl
  case fst f =>
    cases f <;> obtain rfl := Option.some.inj h
    case m32 m => exact runsEsc_mem rfl (.writes m (.fixed 4)) fun _ => rfl
    case m64 m => exact runsEsc_mem rfl (.writes m (.fixed 8)) fun _ => rfl
    case sti st => exact runsEsc_reg fun _ => rfl
  case fstp f =>
    cases f <;> obtain rfl := Option.some.inj h
    case m32 m => exact runsEsc_mem rfl (.writes m (.fixed 4)) fun _ => rfl
    case m64 m => exact runsEsc_mem rfl (.writes m (.fixed 8)) fun _ => rfl
    case m80 m => exact runsEsc_mem rfl (.writes m (.fixed 10)) fun _ => rfl
    case sti st => exact runsEsc_reg fun _ => rfl
  case fild f =>
    cases f <;> obtain rfl := Option.some.inj h
    case m16 m => exact runsEsc_mem rfl (.reads m (.fixed 2)) fun _ => rfl
    case m32 m => exact runsEsc_mem rfl (.reads m (.fixed 4)) fun _ => rfl
    case m64 m => exact runsEsc_mem rfl (.reads m (.fixed 8)) fun _ => rfl
  case fist f =>
    cases f <;> obtain rfl := Option.some.inj h
    case m16 m => exact runsEsc_mem rfl (.writes m (.fixed 2)) fun _ => rfl
    case m32 m => exact runsEsc_mem rfl (.writes m (.fixed 4)) fun _ => rfl
  case fistp f =>
    cases f <;> obtain rfl := Option.some.inj h
    case m16 m => exact runsEsc_mem rfl (.writes m (.fixed 2)) fun _ => rfl
    case m32 m => exact runsEsc_mem rfl (.writes m (.fixed 4)) fun _ => rfl
    case m64 m => exact runsEsc_mem rfl (.writes m (.fixed 8)) fun _ => rfl
  case fldenv m =>
    obtain rfl := Option.some.inj h
    exact runsEsc_mem rfl (.reads m .environment) fun _ => rfl
  case fnstenv m =>
    obtain rfl := Option.some.inj h
    exact runsEsc_mem rfl (.writes m .environment) fun _ => rfl
  case frstor m =>
    obtain rfl := Option.some.inj h
    exact runsEsc_mem rfl (.reads m .save) fun _ => rfl
  case fnsave m =>
    obtain rfl := Option.some.inj h
    exact runsEsc_mem rfl (.writes m .save) fun _ => rfl
  case fldcw m =>
    obtain rfl := Option.some.inj h
    exact runsEsc_mem rfl (.reads m (.fixed 2)) fun _ => rfl
  case fnstcw m | fnstsw m =>
    obtain rfl := Option.some.inj h
    exact runsEsc_mem rfl (.writes m (.fixed 2)) fun _ => rfl
  case fbld m =>
    obtain rfl := Option.some.inj h
    exact runsEsc_mem rfl (.reads m (.fixed 10)) fun _ => rfl
  case fbstp m =>
    obtain rfl := Option.some.inj h
    exact runsEsc_mem rfl (.writes m (.fixed 10)) fun _ => rfl
  case feniGroup st =>
    obtain rfl := Option.some.inj h
    exact runsEsc_reg fun s => congrArg (fun e => transfer (escSteps e) s) (feniEsc_eq st)
  case fnstswAx st =>
    obtain rfl := Option.some.inj h
    refine ⟨if st = 0 then .ax else .none, ?_, fun s => congrArg (fun e => transfer (escSteps e) s) (fnstswAxEsc_eq st)⟩
    split
    · exact .ax
    · exact .none
  case fxch | fnop | escD9D8 | fchsGroup | fld1Group | f2xm1Group | fpremGroup | escDaC0 | escDaC8 | escDaD0 | escDaD8
      | escDaE0 | fucompp | escDaF0 | escDaF8 | escDbC0 | escDbC8 | escDbD0 | escDbD8 | escDbE8 | escDbF0 | escDbF8
      | escDcD0 | escDcD8 | ffree | escDdC8 | fucom | fucomp | escDdF0 | escDdF8 | faddp | fmulp | escDeD0 | fcompp
      | fsubrp | fsubp | fdivrp | fdivp | escDfC0 | escDfC8 | escDfD0 | escDfD8 | escDfE8 | escDfF0 | escDfF8 =>
    obtain rfl := Option.some.inj h
    exact runsEsc_reg fun _ => rfl
  all_goals cases h

/-! ## The transfer of an operand -/

/-- The issue of a command changes the cycles and the kept addresses alone. -/
theorem copIssued_field {α : Type} (s : State) (i : Instr) (sel : Word16) (off : Word32) (f : State → α)
    (hf : ∀ b c, f { s with bus := b, cop := c } = f s) : f (copIssued s i sel off) = f s := by
  unfold copIssued
  split
  · exact hf _ s.cop
  · exact hf _ _

@[simp] theorem copIssued_masters (s : State) (i : Instr) (sel : Word16) (off : Word32) :
    (copIssued s i sel off).masters = s.masters := copIssued_field _ _ _ _ State.masters fun _ _ => rfl

@[simp] theorem copIssued_physByte (s : State) (i : Instr) (sel : Word16) (off : Word32) :
    (copIssued s i sel off).physByte = s.physByte := copIssued_field _ _ _ _ State.physByte fun _ _ => rfl

@[simp] theorem copIssued_seg (s : State) (i : Instr) (sel : Word16) (off : Word32) (r : SReg) :
    (copIssued s i sel off).seg r = s.seg r :=
  copIssued_field _ _ _ _ (fun t => t.seg r) fun _ _ => by cases r <;> rfl

@[simp] theorem itemsPassed_seg (s : State) (f : List Byte → BusEvent) (bs : List Byte) (r : SReg) :
    (itemsPassed s f bs).seg r = s.seg r := by cases r <;> rfl

theorem copIssue_run (s : State) (i : Instr) (o : EscOperand) (sel : Word16) (off : Word32) :
    copIssue (escOf i o) sel off s = .ok () (copIssued s i sel off) := by
  have hctl : (escOf i o).control = escControl i := rfl
  unfold copIssue copIssued
  rw [M_get_bind, busCycle, M_modify_bind, hctl]
  cases escControl i <;> rfl

theorem bytes_eq_escLength (z : EscSize) (s : State) :
    z.bytes s.osz = escLength s (z.bytes .s16) (z.bytes .s32) := by
  unfold escLength
  cases s.osz <;> rfl

@[simp] theorem copBytes_length (s : State) (n : Nat) : (s.copBytes n).length = n := by simp [State.copBytes]

theorem copTransfer_none (i : Instr) (s : State) : copTransfer (escOf i .none) s = .ok () (escAfter i .none s) :=
  copIssue_run s i .none 0 0

theorem copTransfer_ax (i : Instr) (s : State) : copTransfer (escOf i .ax) s = .ok () (escAfter i .ax s) := by
  refine (M_bind_ok (copIssue_run s i .ax 0 0)).trans ?_
  rw [M_modify_bind, copMoved_eq_itemsPassed, putReg_run]
  rfl

/-- An operand that is sent: the check, the issue, the read and the items. -/
theorem copTransfer_load (i : Instr) {s : State} {m : MemOp} {z : EscSize}
    (h : s.canAccess (s.ea m).1 (s.ea m).2 (z.bytes s.osz) false = true) :
    copTransfer (escOf i (.load m z)) s = .ok () (escAfter i (.reads m (z.bytes .s16) (z.bytes .s32)) s) := by
  have hm := (copIssued_masters s i (s.seg (s.ea m).1).selector (s.ea m).2).trans (canAccess_masters h)
  refine (M_bind_ok (accessAddrs_flat h)).trans <| (M_bind_ok (copIssue_run s i _ _ _)).trans <|
    (M_bind_ok (readChecked_flat hm _ _ _)).trans ?_
  rw [M_modify, copMoved_eq_itemsPassed, copIssued_physByte, byteAddrs_length, bytes_eq_escLength]
  simp only [escAfter, State.afterLoad, copIssued_seg]
  rfl

/-- An operand that is stored: at once, or when PEREQ comes. -/
theorem copTransfer_store (i : Instr) {s : State} {m : MemOp} {z : EscSize}
    (h : s.canAccess (s.ea m).1 (s.ea m).2 (z.bytes s.osz) true = true) :
    copTransfer (escOf i (.store m z)) s = .ok () (escAfter i (.writes m (z.bytes .s16) (z.bytes .s32)) s) := by
  have hm := (copIssued_masters s i (s.seg (s.ea m).1).selector (s.ea m).2).trans (canAccess_masters h)
  rw [← copBytes_length s (z.bytes s.osz)] at h
  refine (M_bind_ok (accessAddrs_flat h)).trans <| (M_bind_ok (copIssue_run s i _ _ _)).trans ?_
  rw [escAfter, ← bytes_eq_escLength]
  by_cases hlate : s.storeLater = true
  · rw [if_pos hlate]
    exact (congrArg (EStateM.Result.ok ()) (if_pos hlate)).symm
  · rw [if_neg hlate, M_modify_bind, copMoved_eq_itemsPassed, writeChecked_flat (by exact hm)]
    refine congrArg (EStateM.Result.ok ()) (Eq.trans ?_ (if_neg hlate).symm)
    simp only [State.afterStore, itemsPassed_seg, copIssued_seg]
    rfl

/-- Steps 4 to 7 of R609 for an operand that is accessible. -/
theorem copTransfer_run (i : Instr) {u : EscUse} {o : EscOperand} {s : State} (ho : EscNames u o)
    (hr : u.ready s = true) : copTransfer (escOf i o) s = .ok () (escAfter i u s) := by
  cases ho with
  | none => exact copTransfer_none i s
  | ax => exact copTransfer_ax i s
  | reads m z => exact copTransfer_load i (by rw [bytes_eq_escLength]; exact hr)
  | writes m z => exact copTransfer_store i (by rw [bytes_eq_escLength]; exact hr)

/-! ## The store that is due -/

theorem etWrong_eq_not_etFits (s : State) : s.etWrong = !etFits s := by
  unfold State.etWrong etFits
  cases s.cfg.coproc with
  | none => rfl
  | i80287 => exact (Bool.not_not _).symm
  | i80387 => rfl

theorem copStored_due {s : State} {d : CopStore} (h : s.cop.due = some d) : s.copStored = dueStored s d := by
  rw [State.copStored, h]
  simp only [copMoved_eq_itemsPassed]
  rfl

theorem makeDueStore_run {s : State} {d : CopStore} (hd : s.cop.due = some d) (het : etFits s = true) :
    makeDueStore s = .ok .wait (dueStored s d) := by
  rw [makeDueStore, M_get_bind, etWrong_eq_not_etFits, het]
  exact congrArg (EStateM.Result.ok Retire.wait) (copStored_due hd)

/-! ## The instructions -/

/-- Where neither exception 7 nor BUSY# stops an ESC instruction (R606, R609), it looks for a store that is due. -/
theorem escSteps_begin {s : State} (e : Esc) (hem : s.cr0.em = false) (hts : s.cr0.ts = false) (het : etFits s = true)
    (hb : e.waits = false ∨ s.busy = false) : escSteps e s =
      (if s.cop.due.isSome then makeDueStore
        else do require (!(e.waits && s.copError)) 16; copTransfer e; return .next : M Retire) s := by
  have hbusy : (e.waits && s.busy) = false := by
    obtain h | h := hb <;> simp [h]
  rw [escSteps, M_get_bind, hem, hts, etWrong_eq_not_etFits, het, hbusy]
  cases s.cop.due <;> rfl

theorem escSteps_next {s t : State} {e : Esc} (hd : s.cop.due = none) (hem : s.cr0.em = false) (hts : s.cr0.ts = false)
    (het : etFits s = true) (hb : e.waits = false ∨ (s.busy = false ∧ s.copError = false))
    (h : copTransfer e s = .ok () t) : escSteps e s = .ok .next t := by
  have herr : (!(e.waits && s.copError)) = true := by
    obtain h | h := hb <;> simp [h]
  rw [escSteps_begin e hem hts het (hb.imp_right And.left), hd, herr]
  exact M_bind_ok h

theorem escSteps_due {s : State} {e : Esc} {d : CopStore} (hd : s.cop.due = some d) (hem : s.cr0.em = false)
    (hts : s.cr0.ts = false) (het : etFits s = true) (hb : e.waits = false ∨ s.busy = false) :
    escSteps e s = .ok .wait (dueStored s d) := by
  rw [escSteps_begin e hem hts het hb, hd]
  exact makeDueStore_run hd het

theorem waits_eq_false {i : Instr} {o : EscOperand} (h : escNoWait i = true) : (escOf i o).waits = false := by
  simp [escOf, h]

/-- An ESC instruction that finds no store due. -/
theorem exec_esc_next {s : State} {i : Instr} {u : EscUse} (hp : s.prefixesOk false) (hd : s.cop.due = none)
    (hu : escUse i = some u) (hem : s.cr0.em = false) (hts : s.cr0.ts = false) (het : etFits s = true)
    (hb : escNoWait i = true ∨ (busySeen s = false ∧ errorSeen s = false)) (hr : u.ready s = true) :
    exec i s = .next (retire s (escAfter i u s.begun) .next) := by
  obtain ⟨o, ho, hx⟩ := runsEsc_of_escUse hu
  have hready : u.ready s.begun = true := by
    rw [← hr]
    cases u <;> rfl
  exact (hx s).trans <| transfer_next hp <|
    escSteps_next (s := s.begun) hd hem hts het (hb.imp_left waits_eq_false) (copTransfer_run i ho hready)

/-- An ESC instruction that finds a store due makes it and begins again. -/
theorem exec_esc_due {s : State} {d : CopStore} {i : Instr} {u : EscUse} (hd : s.cop.due = some d)
    (het : etFits s = true) (hp : s.prefixesOk false) (hu : escUse i = some u) (hem : s.cr0.em = false)
    (hts : s.cr0.ts = false) (hb : escNoWait i = true ∨ busySeen s = false) :
    exec i s = .next (retire s (dueStored s.begun d) .wait) := by
  obtain ⟨o, -, hx⟩ := runsEsc_of_escUse hu
  exact (hx s).trans <| transfer_next hp <|
    escSteps_due (s := s.begun) hd hem hts het (hb.imp_left waits_eq_false)

/-- WAIT where neither exception 7 nor BUSY# stops it: its steps from the store that is due on (R608). -/
theorem exec_wait {s : State} {r : Retire} {t : State} (hp : s.prefixesOk false)
    (hmp : ¬(s.cr0.mp = true ∧ s.cr0.ts = true)) (hb : busySeen s = false)
    (h : (if s.cop.due.isSome then makeDueStore else do require (!s.copError) 16; return .next : M Retire) s.begun =
      .ok r t) : exec .wait s = .next (retire s t r) := by
  have hbusy : s.begun.busy = false := hb
  have hreq : (!(s.begun.cr0.mp && s.begun.cr0.ts)) = true := by
    rw [Bool.not_eq_true', Bool.eq_false_iff, Ne, Bool.and_eq_true]
    exact hmp
  refine transfer_next hp (Eq.trans ?_ h)
  rw [M_get_bind, hreq, hbusy]
  show _ = (if s.begun.cop.due.isSome = true then _ else _ : M Retire) s.begun
  cases s.begun.cop.due <;> rfl

theorem exec_wait_next {s : State} (hp : s.prefixesOk false) (hd : s.cop.due = none)
    (hmp : ¬(s.cr0.mp = true ∧ s.cr0.ts = true)) (hb : busySeen s = false) (herr : errorSeen s = false) :
    exec .wait s = .next (retire s s.begun .next) := by
  refine exec_wait hp hmp hb ?_
  rw [hd, show s.copError = false from herr]
  rfl

theorem exec_wait_due {s : State} {d : CopStore} (hd : s.cop.due = some d) (het : etFits s = true)
    (hp : s.prefixesOk false) (hmp : ¬(s.cr0.mp = true ∧ s.cr0.ts = true)) (hb : busySeen s = false) :
    exec .wait s = .next (retire s (dueStored s.begun d) .wait) := by
  refine exec_wait hp hmp hb ?_
  rw [hd]
  exact makeDueStore_run (s := s.begun) hd het

/-! ## PEREQ -/

/-- A store that is due comes before every other event of a step (R207, R610). -/
theorem runStep_due {s : State} {d : CopStore} (hd : s.cop.due = some d) (het : etFits s = true)
    (hc : s.cfg.coproc ≠ .none) (hq : s.pins.pereq = true) (hr : s.run = .executing) :
    runStep s = .next (dueStored s d) := by
  have hstore : (s.run == .executing && s.pereq && s.cop.due.isSome) = true := by
    simp [hr, State.pereq, hc, hq, hd]
  rw [runStep, if_pos hstore, etWrong_eq_not_etFits, het, copStored_due hd]
  rfl

theorem step_due {s : State} {d : CopStore} (hd : s.cop.due = some d) (het : etFits s = true)
    (hr : s.pins.reset = false) (hh : s.pins.hold = false) (hc : s.cfg.coproc ≠ .none) (hq : s.pins.pereq = true)
    (hx : s.run = .executing) : step s = .next (dueStored s.onBus d) := by
  have hpins : s.onBus.pins = s.pins := s.onBus_field State.pins fun _ _ _ _ _ => rfl
  have hcfg : s.onBus.cfg = s.cfg := s.onBus_field State.cfg fun _ _ _ _ _ => rfl
  rw [step_eq_runStep hr hh]
  exact runStep_due ((s.onBus_field (·.cop.due) fun _ _ _ _ _ => rfl).trans hd)
    ((s.onBus_field etFits fun _ _ _ _ _ => rfl).trans het) (by rwa [hcfg]) (by rwa [hpins])
    ((s.onBus_field State.run fun _ _ _ _ _ => rfl).trans hx)

end Sys2Proof.Machine

open Sys2Proof Sys2Proof.Machine Sys2Proof.Claims

/-- Settles O58: the table of R602, the steps of an ESC instruction and of WAIT, and the store that PEREQ asks for. -/
theorem coprocessorResult : Obligations.CoprocessorResult := by
  unfold Obligations.CoprocessorResult
  refine ⟨fun s hp hd => ⟨fun i u hu hem hts het hb hr => exec_esc_next hp hd hu hem hts het hb hr,
    fun hmp hb herr => exec_wait_next hp hd hmp hb herr⟩, fun s d hd het => ⟨?_, ?_, ?_⟩⟩
  · exact fun hp hmp hb => exec_wait_due hd het hp hmp hb
  · exact fun i u hp hu hem hts hb => exec_esc_due hd het hp hu hem hts hb
  · exact fun hr hh hc hq hx => step_due hd het hr hh hc hq hx
end

section
/-!
PROOF. MOV between registers, memory and immediates, XCHG, and the instructions that store a 16-bit register of the
processor, with paging off. It settles O29 and O32.
-/
namespace Sys2Proof.Machine

open Sys2Proof.Claims

/-- A place can be written in the state the steps begin in where it can be in the one before. -/
theorem storable_begun (s : State) (w : Width) (l : Loc) : s.begun.storable w l = s.storable w l :=
  storable_congr rfl rfl (seg_begun s)

theorem updatable_begun (s : State) (w : Width) (l : Loc) : s.begun.updatable w l = s.updatable w l :=
  updatable_congr rfl rfl (seg_begun s)

/-- A read makes no place lose its write access. -/
theorem storable_afterRead (s : State) (w q : Width) (l k : Loc) :
    (s.afterRead q k).storable w l = s.storable w l :=
  storable_congr (afterRead_cr0 s q k) (afterRead_masters s q k) (afterRead_seg s q k)

/-! ## MOV -/

/-- The step that reads a source operand. -/
def sourceStep {w : Width} : Source w → M (BitVec w.bits)
  | .place l => readLoc w l
  | .imm v => pure v

theorem sourceStep_flat {w : Width} {x : Source w} {s : State} (h : x.readable s = true) :
    sourceStep x s = .ok (x.value s) (x.after s) := by
  cases x with
  | place l => exact readLoc_flat h
  | imm v => rfl

theorem storable_sourceAfter (s : State) {w : Width} (x : Source w) (l : Loc) :
    (x.after s).storable w l = s.storable w l := by
  cases x with
  | place k => exact storable_afterRead s w w l k
  | imm v => rfl

/-- Every plain move is one read of its source and one write of its destination (R301 to R303). -/
theorem movForm_run {f : MovForm} (hf : isPlainMove f = true) (s : State) :
    movForm f s = (do
      writeLoc (moveWidth s f) (moveDest s f) (← sourceStep (moveSource s (moveWidth s f) f)) : M Unit) s := by
  cases f with
  | ewSw | swEw | r32Cr | r32Dr | crR32 | drR32 | r32Tr | trR32 => cases hf
  | r8Ib r imm => exact congrArg (fun v : Byte => putReg .w8 r v s) (BitVec.setWidth_eq imm).symm
  | ebIb rm imm => exact congrArg (fun v : Byte => writeRM .w8 rm v s) (BitVec.setWidth_eq imm).symm
  | ebGb | evGv | gbEb | gvEv | alOb | eaxOv | obAl | ovEax | rIv | evIv => rfl

theorem movForm_flat {f : MovForm} {s : State} (hf : isPlainMove f = true) (h : moveReady f s = true) :
    movForm f s = .ok () (moveAfter f s) := by
  obtain ⟨hsrc, hdst⟩ := Bool.and_eq_true_iff.1 h
  exact (movForm_run hf s).trans <| (M_bind_ok (sourceStep_flat hsrc)).trans <|
    writeLoc_flat _ ((storable_sourceAfter s _ _).trans hdst)

theorem sourceReadable_begun {w : Width} (x : Source w) (s : State) : x.readable s.begun = x.readable s := by
  cases x with
  | place l => exact readable_begun s w l
  | imm v => rfl

theorem moveReady_begun (f : MovForm) (s : State) : moveReady f s.begun = moveReady f s := by
  have hw : moveWidth s.begun f = moveWidth s f := by cases f <;> rfl
  have hsrc (w : Width) : moveSource s.begun w f = moveSource s w f := by cases f <;> rfl
  have hdst : moveDest s.begun f = moveDest s f := by cases f <;> rfl
  rw [moveReady, moveReady, hw, hsrc, hdst, sourceReadable_begun, storable_begun]

/-! ## XCHG -/

/-- The exchange of a register with an operand that can be read and written; where the operand is in memory the read and
the write are one locked sequence, which makes no difference without other masters (R100, R316). -/
theorem xchgRM_flat {s : State} {w : Width} {rm : RM} (r : Fin 8) (h : s.updatable w (s.locate rm) = true) :
    xchgRM w rm r s = .ok () (((s.afterRead w (s.locate rm)).afterWrite w (s.locate rm) (s.reg w r)).setReg w r
      (s.valueAt w (s.locate rm))) := by
  obtain ⟨hread, hwrite⟩ := updatable_readable h
  have hexchange : (do
      let t ← readLoc w (s.locate rm)
      writeLoc w (s.locate rm) (s.reg w r)
      return t : M (BitVec w.bits)) s = .ok (s.valueAt w (s.locate rm))
        ((s.afterRead w (s.locate rm)).afterWrite w (s.locate rm) (s.reg w r)) :=
    (M_bind_ok (readLoc_flat hread)).trans <|
      M_bind_ok (writeLoc_flat _ ((storable_afterRead s w w _ _).trans hwrite))
  have halone (seg : SReg) (off : Word32) (hl : s.locate rm = .mem seg off) : s.masters = [] ∧
      ((s.afterRead w (s.locate rm)).afterWrite w (s.locate rm) (s.reg w r)).masters = [] := by
    have hm : s.masters = [] := by
      rw [hl] at hwrite
      exact canAccess_masters hwrite
    exact ⟨hm, by rw [afterWrite_masters, afterRead_masters, hm]⟩
  rw [xchgRM, M_get_bind]
  exact (M_bind_ok (checkLoc_flat hwrite)).trans (M_bind_ok (lockedIf_alone halone hexchange))

theorem xchgForm_flat {f : XchgForm} {s : State}
    (h : s.updatable (xchgParts s f).1 (s.locate (xchgParts s f).2.1) = true) :
    xchgForm f s = .ok () (xchgAfter f s) := (xchgForm_run f s).trans (xchgRM_flat _ h)

/-! ## Words of the processor -/

/-- The word an instruction stores goes to its operand; a 32-bit register has a free upper half (U10). -/
theorem storeWord_flat {i : WordStore} {s : State} (h : s.storable .w16 (s.locate i.operand) = true) :
    storeWord i.operand (i.value s) s = .ok () (i.after s) := by
  rw [storeWord, M_get_bind, WordStore.after]
  generalize i.operand = rm at h ⊢
  cases rm with
  | mem m => exact writeRM_flat _ h
  | reg r =>
    cases s.osz with
    | s16 => exact writeRM_flat _ h
    | s32 => rfl

theorem WordStore.value_begun (i : WordStore) (s : State) : i.value s.begun = i.value s := by
  cases i with
  | seg rm r => exact congrArg SegReg.selector (seg_begun s r)
  | ldtr | tr | msw => rfl

/-- Where an instruction that stores a word exists, its steps are that store (R305, R555, R557, R564). -/
theorem exec_wordStore {i : WordStore} {s t : State} (hp : s.prefixesOk false) (hr : i.ready s = true)
    (h : storeWord i.operand (i.value s.begun) s.begun = .ok () t) : exec i.instr s = .next (retire s t .next) := by
  cases i with
  | seg rm r => exact plain_next hp h
  | ldtr rm | tr rm => exact plain_next hp ((M_bind_ok (requireProtected_run (s := s.begun) hr)).trans h)
  | msw rm =>
    have hmsw : s.cr0.toWord.truncate 16 = s.cr0.toWord.extractLsb' 0 16 := BitVec.setWidth_eq_extractLsb' (by decide)
    refine plain_next hp ?_
    rw [M_get_bind, show s.begun.cr0 = s.cr0 from rfl, hmsw]
    exact h

end Sys2Proof.Machine

open Sys2Proof Sys2Proof.Machine Sys2Proof.Claims

/-- Settles O29: a plain move is a read and a write, and an exchange a read-modify-write that is alone on the bus. -/
theorem moveResult : Obligations.MoveResult := by
  unfold Obligations.MoveResult
  refine ⟨fun f s hf hp h => ?mov, fun f s hp h => ?xchg⟩
  case mov => exact plain_next hp (movForm_flat hf ((moveReady_begun f s).trans h))
  case xchg =>
    refine withLock_next hp (xchgForm_flat ?_)
    rw [xchgParts_congr (show s.begun.osz = s.osz from rfl) f]
    exact (updatable_begun s _ _).trans h

/-- Settles O32. -/
theorem wordStoreResult : Obligations.WordStoreResult := by
  unfold Obligations.WordStoreResult
  exact fun i s hp hr h => exec_wordStore hp hr (storeWord_flat ((storable_begun s _ _).trans h))
end

section
/-!
PROOF. What the shifts, rotates and double shifts compute: rotates and double shifts are the low word of a double word
shifted right. It settles O20.
-/
namespace Sys2Proof.Machine

open Sys2Proof.Claims

/-! ## A double word shifted right -/

/-- The low word of `hi ++ lo` shifted right by `k`, bit by bit. -/
theorem funnel_bit {n k i : Nat} (hi lo : BitVec n) (hk : k ≤ n) (hn : i < n) :
    ((lo >>> k) ||| (hi <<< (n - k))).getLsbD i = if i + k < n then lo.getLsbD (i + k) else hi.getLsbD (i + k - n) := by
  rw [BitVec.getLsbD_or, BitVec.getLsbD_ushiftRight, BitVec.getLsbD_shiftLeft, Nat.add_comm k i]
  by_cases h : i + k < n
  · simp [h, show i < n - k by omega]
  · simp [h, hn, show ¬ i < n - k by omega, show i - (n - k) = i + k - n by omega, BitVec.getLsbD_of_ge lo (i + k)
      (by omega)]

theorem toNat_funnel {n k : Nat} (hi lo : BitVec n) (hk : k ≤ n) :
    ((lo >>> k) ||| (hi <<< (n - k))).toNat = (hi.toNat * 2 ^ n + lo.toNat) / 2 ^ k % 2 ^ n := by
  rw [← BitVec.toNat_ofNat]
  congr 1
  refine BitVec.eq_of_getLsbD_eq fun i hn => ?_
  rw [funnel_bit hi lo hk hn, BitVec.getLsbD_ofNat, Nat.testBit_div_two_pow, Nat.mul_comm,
    Nat.testBit_two_pow_mul_add _ lo.isLt]
  simp [hn, BitVec.getLsbD]

/-- A word shifted right into itself is a rotation. -/
theorem rotateRight_bit {n k i : Nat} (t : BitVec n) (hk : k ≤ n) (hn : i < n) :
    ((t >>> k) ||| (t <<< (n - k))).getLsbD i = t.getLsbD ((i + k) % n) := by
  rw [funnel_bit t t hk hn]
  split
  case isTrue h => rw [Nat.mod_eq_of_lt h]
  case isFalse h => rw [Nat.mod_eq_sub_mod (by omega), Nat.mod_eq_of_lt (by omega)]

/-- A rotation to the left by `k` is one to the right by `n - k`. -/
theorem rotateLeft_bit {n k i : Nat} (t : BitVec n) (hk : k ≤ n) (hn : i < n) :
    ((t <<< k) ||| (t >>> (n - k))).getLsbD i = t.getLsbD ((i + (n - k)) % n) := by
  rw [BitVec.or_comm, ← rotateRight_bit t (Nat.sub_le n k) hn, Nat.sub_sub_self hk]

/-! ## Flags -/

theorem evenParity_eq_evenOnes (b : Byte) : evenParity b = evenOnes b := by
  have h := evenParity_iff b
  rw [BitVec.extractLsb'_eq_self] at h
  exact Bool.eq_iff_iff.2 (h.trans decide_eq_true_iff.symm)

/-- ZF, SF and PF as a result leaves them (R33). -/
def StatusOf {n : Nat} (r : Result n) : Prop :=
  r.flags.zf = (r.value == 0) ∧ r.flags.sf = r.value.msb ∧ r.flags.pf = evenOnes (r.value.extractLsb' 0 8)

theorem statusOf_setSZP {n : Nat} (res : BitVec n) (f : EFlags) (cf af ovf : Bool) :
    StatusOf { value := res, flags := { setSZP res f with cf := cf, af := af, ovf := ovf } } :=
  ⟨rfl, rfl, evenParity_eq_evenOnes _⟩

/-! ## Shifts -/

/-- A shift by the width or more leaves copies of the sign bit. -/
theorem sshiftRight_min {n : Nat} (d : BitVec n) (c : Nat) : d.sshiftRight (min c n) = d.sshiftRight c := by
  obtain hc | hc := Nat.le_total c n
  · rw [Nat.min_eq_left hc]
  · refine BitVec.eq_of_getLsbD_eq fun i _ => ?_
    simp [BitVec.getLsbD_sshiftRight, Nat.min_eq_right hc, show ¬ c + i < n by omega]

theorem shlCompute_meaning {n : Nat} (u : Nat → Bool) (d : BitVec n) (c : Nat) (f : EFlags) :
    let r := shlCompute u d c f
    r.value.toNat = d.toNat * 2 ^ c % 2 ^ n ∧ (c ≤ n → r.flags.cf = d.getLsbD (n - c)) ∧
    (c = 1 → r.flags.ovf = (r.value.msb ^^ r.flags.cf)) := by
  refine ⟨?_, fun h => if_pos h, fun h => if_pos h⟩
  rw [shlCompute, BitVec.toNat_shiftLeft, Nat.shiftLeft_eq]

theorem shrCompute_meaning {n : Nat} (u : Nat → Bool) (d : BitVec n) (c : Nat) (f : EFlags) :
    let r := shrCompute u d c f
    r.value.toNat = d.toNat / 2 ^ c ∧ (c ≤ n → r.flags.cf = d.getLsbD (c - 1)) ∧ (c = 1 → r.flags.ovf = d.msb) := by
  refine ⟨?_, fun h => if_pos h, fun h => if_pos h⟩
  rw [shrCompute, BitVec.toNat_ushiftRight, Nat.shiftRight_eq_div_pow]

theorem sarCompute_meaning {n : Nat} (u : Nat → Bool) (d : BitVec n) (c : Nat) (f : EFlags) :
    let r := sarCompute u d c f
    r.value.toInt = d.toInt / (2 : Int) ^ c ∧ r.flags.cf = (if c < n then d.getLsbD (c - 1) else d.msb) ∧
    (c = 1 → r.flags.ovf = false) := by
  refine ⟨?_, rfl, fun h => if_pos h⟩
  rw [sarCompute, sshiftRight_min, BitVec.toInt_sshiftRight, Int.shiftRight_eq_div_pow]
  push_cast
  rfl

/-! ## Rotates -/

theorem carryRotateCount_eq {n c : Nat} (hc : c < 32) : carryRotateCount n c = c % (n + 1) := by
  unfold carryRotateCount
  split
  case isTrue h => rw [h, Nat.mod_eq_of_lt (by omega)]
  case isFalse => rfl

/-- Bit `i` of the ring of CF and the operand that RCL and RCR rotate, CF standing at `n` (R366). -/
def carryRing {n : Nat} (cf : Bool) (d : BitVec n) (i : Nat) : Bool :=
  if i % (n + 1) = n then cf else d.getLsbD (i % (n + 1))

theorem getLsbD_cons_mod {n : Nat} (cf : Bool) (d : BitVec n) (i : Nat) :
    (BitVec.cons cf d).getLsbD (i % (n + 1)) = carryRing cf d i := BitVec.getLsbD_cons cf d _

theorem rolCompute_bit {n i : Nat} (u : Nat → Bool) (d : BitVec n) (c : Nat) (f : EFlags) (hi : i < n) :
    (rolCompute u d c f).value.getLsbD i = d.getLsbD ((i + (n - c % n)) % n) :=
  rotateLeft_bit d (Nat.mod_lt c (by omega)).le hi

theorem rorCompute_bit {n i : Nat} (u : Nat → Bool) (d : BitVec n) (c : Nat) (f : EFlags) (hi : i < n) :
    (rorCompute u d c f).value.getLsbD i = d.getLsbD ((i + c) % n) := by
  rw [← Nat.add_mod_mod]
  exact rotateRight_bit d (Nat.mod_lt c (by omega)).le hi

/-- RCL rotates the ring of CF and the operand to the left: the value is its low `n` bits, CF the bit above them (R366). -/
theorem rclCompute_ring {n c : Nat} (u : Nat → Bool) (d : BitVec n) (f : EFlags) (hc : c < 32) :
    let k := c % (n + 1)
    (∀ i < n, (rclCompute u d c f).value.getLsbD i = carryRing f.cf d (i + (n + 1 - k))) ∧
    (rclCompute u d c f).flags.cf = carryRing f.cf d (n + (n + 1 - k)) := by
  have hk : c % (n + 1) ≤ n + 1 := (Nat.mod_lt c (by omega)).le
  simp only [rclCompute, carryRotateCount_eq hc, ← getLsbD_cons_mod]
  refine ⟨fun i hi => ?_, rotateLeft_bit _ hk n.lt_succ_self⟩
  rw [← rotateLeft_bit _ hk (by omega), BitVec.getLsbD_extractLsb', Nat.zero_add, decide_eq_true hi, Bool.true_and]

/-- RCR rotates the same ring to the right (R367). -/
theorem rcrCompute_ring {n c : Nat} (u : Nat → Bool) (d : BitVec n) (f : EFlags) (hc : c < 32) :
    let k := c % (n + 1)
    (∀ i < n, (rcrCompute u d c f).value.getLsbD i = carryRing f.cf d (i + k)) ∧
    (rcrCompute u d c f).flags.cf = carryRing f.cf d (n + k) := by
  have hk : c % (n + 1) ≤ n + 1 := (Nat.mod_lt c (by omega)).le
  simp only [rcrCompute, carryRotateCount_eq hc, ← getLsbD_cons_mod]
  refine ⟨fun i hi => ?_, rotateRight_bit _ hk n.lt_succ_self⟩
  rw [← rotateRight_bit _ hk (by omega), BitVec.getLsbD_extractLsb', Nat.zero_add, decide_eq_true hi, Bool.true_and]

/-! ## Double shifts -/

/-- A double shift by a count within the width: the value, CF, the status flags, and OF after a count of 1. -/
theorem doubleShift_within {n c : Nat} (left : Bool) (u : Nat → Bool) (v d e : BitVec n) (f : EFlags) (h0 : 0 < c)
    (h : c ≤ n) :
    let r := doubleShift left u v d e c f
    r.value = (if left then (d <<< c) ||| (e >>> (n - c)) else (d >>> c) ||| (e <<< (n - c))) ∧
    r.flags.cf = (if left then d.getLsbD (n - c) else d.getLsbD (c - 1)) ∧ StatusOf r ∧
    (c = 1 → r.flags.ovf = (r.value.msb ^^ d.msb)) := by
  rw [doubleShift, if_neg h0.ne', if_neg h.not_gt]
  exact ⟨rfl, rfl, statusOf_setSZP _ f _ _ _, fun h1 => if_pos h1⟩

/-- SHLD by `c` takes the low word of the pair shifted right by `n - c`. -/
theorem toNat_doubleShift_left {n c : Nat} (u : Nat → Bool) (v d e : BitVec n) (f : EFlags) (h0 : 0 < c) (h : c ≤ n) :
    (doubleShift true u v d e c f).value.toNat = (d.toNat * 2 ^ n + e.toNat) * 2 ^ c / 2 ^ n % 2 ^ n := by
  obtain ⟨hvalue, -⟩ := doubleShift_within true u v d e f h0 h
  have hpow : 2 ^ n = 2 ^ (n - c) * 2 ^ c := by rw [← Nat.pow_add, Nat.sub_add_cancel h]
  have hdiv (x : Nat) : x * 2 ^ c / 2 ^ n = x / 2 ^ (n - c) := by
    rw [hpow, Nat.mul_div_mul_right _ _ (Nat.two_pow_pos c)]
  rw [hvalue, if_pos rfl, hdiv, ← toNat_funnel d e (Nat.sub_le n c), Nat.sub_sub_self h, BitVec.or_comm]

theorem toNat_doubleShift_right {n c : Nat} (u : Nat → Bool) (v d e : BitVec n) (f : EFlags) (h0 : 0 < c) (h : c ≤ n) :
    (doubleShift false u v d e c f).value.toNat = (e.toNat * 2 ^ n + d.toNat) / 2 ^ c % 2 ^ n := by
  obtain ⟨hvalue, -⟩ := doubleShift_within false u v d e f h0 h
  exact (congrArg BitVec.toNat hvalue).trans (toNat_funnel e d h)

/-- A double shift by more than the width (U23). -/
theorem doubleShift_beyond {n c : Nat} (left : Bool) (u : Nat → Bool) (v d e : BitVec n) (f : EFlags) (h : n < c) :
    doubleShift left u v d e c f = { value := v, flags := freeStatus u f } := by
  rw [doubleShift, if_neg (Nat.ne_zero_of_lt h), if_pos h]

/-! ## Flags that are kept -/

/-- A shift or double shift changes none but the six status flags. -/
def StatusOnly {n : Nat} (f : EFlags) (r : Result n) : Prop :=
  r.flags = { f with cf := r.flags.cf, pf := r.flags.pf, af := r.flags.af, zf := r.flags.zf, sf := r.flags.sf,
                     ovf := r.flags.ovf }

theorem doubleShift_statusOnly {n : Nat} (left : Bool) (u : Nat → Bool) (v d e : BitVec n) (c : Nat) (f : EFlags) :
    StatusOnly f (doubleShift left u v d e c f) := by
  unfold doubleShift
  split
  · rfl
  · split <;> rfl

theorem shiftCompute_pos {n c : Nat} (u : Nat → Bool) (d : BitVec n) (f : EFlags) (h0 : 0 < c) :
    shiftCompute .shl u d c f = shlCompute u d c f ∧ shiftCompute .shr u d c f = shrCompute u d c f ∧
    shiftCompute .sar u d c f = sarCompute u d c f ∧ shiftCompute .rol u d c f = rolCompute u d c f ∧
    shiftCompute .ror u d c f = rorCompute u d c f ∧ shiftCompute .rcl u d c f = rclCompute u d c f ∧
    shiftCompute .rcr u d c f = rcrCompute u d c f :=
  have h : c ≠ 0 := h0.ne'
  ⟨if_neg h, if_neg h, if_neg h, if_neg h, if_neg h, if_neg h, if_neg h⟩

end Sys2Proof.Machine

open Sys2Proof Sys2Proof.Machine Sys2Proof.Claims

/-- Settles O20: the shifts in numbers, the rotates and double shifts as a double word shifted right. -/
theorem shiftMeaning : Obligations.ShiftMeaning := by
  unfold Obligations.ShiftMeaning
  intro w u d e v c f h0 h32
  obtain ⟨hshl, hshr, hsar, hrol, hror, hrcl, hrcr⟩ := shiftCompute_pos u d f h0
  rw [hshl, hshr, hsar, hrol, hror, hrcl, hrcr]
  obtain ⟨hclBits, hclCarry⟩ := rclCompute_ring u d f h32
  obtain ⟨hcrBits, hcrCarry⟩ := rcrCompute_ring u d f h32
  refine ⟨shlCompute_meaning u d c f, shrCompute_meaning u d c f, sarCompute_meaning u d c f, ?status,
    fun i => ⟨rolCompute_bit u d c f i.isLt, rorCompute_bit u d c f i.isLt, hclBits i i.isLt, hcrBits i i.isLt⟩,
    ⟨rfl, rfl, hclCarry, hcrCarry⟩, fun h1 => ⟨if_pos h1, if_pos h1, if_pos h1, if_pos h1⟩, ?rotateKeeps,
    fun hc => ?within, fun hc left => ?beyond, ?keeps⟩
  case status => rintro r (rfl | rfl | rfl) <;> exact statusOf_setSZP _ f _ _ _
  case rotateKeeps => rintro r (rfl | rfl | rfl | rfl) <;> rfl
  case within =>
    obtain ⟨-, hleft, -⟩ := doubleShift_within true u v d e f h0 hc
    obtain ⟨-, hright, -⟩ := doubleShift_within false u v d e f h0 hc
    refine ⟨toNat_doubleShift_left u v d e f h0 hc, hleft, toNat_doubleShift_right u v d e f h0 hc, hright,
      fun left => ?_⟩
    obtain ⟨-, -, ⟨hzf, hsf, hpf⟩, hovf⟩ := doubleShift_within left u v d e f h0 hc
    exact ⟨hzf, hsf, hpf, hovf⟩
  case beyond => rw [doubleShift_beyond left u v d e f hc]
  case keeps =>
    rintro r (rfl | rfl | rfl | ⟨left, rfl⟩)
    · rfl
    · rfl
    · rfl
    · exact doubleShift_statusOnly left u v d e c f
end

section
/-!
PROOF. The shifts, rotates and double shifts as instructions: one read-modify-write of their operand, or a read where the
count is 0, with paging off. It settles O21.
-/
namespace Sys2Proof.Machine

open Sys2Proof.Claims

/-! ## What a read of the operand leaves unchanged -/

theorem afterRead_flags (s : State) (w : Width) (l : Loc) : (s.afterRead w l).flags = s.flags := by cases l <;> rfl

theorem afterRead_reg (s : State) (w q : Width) (l : Loc) (r : Fin 8) : (s.afterRead q l).reg w r = s.reg w r := by
  cases l <;> rfl

theorem afterRead_freeBit (s : State) (w : Width) (l : Loc) : (s.afterRead w l).freeBit = s.freeBit := by
  cases l <;> rfl

theorem afterRead_freeWord (s : State) (w : Width) (l : Loc) : (s.afterRead w l).freeWord = s.freeWord := by
  cases l <;> rfl

/-! ## Shifts and rotates -/

/-- With a count of 0 the operand is checked and read; else it is read, computed and written (R360, R361). -/
theorem shiftRM_flat {op : ShiftOp} {w : Width} {rm : RM} {count : Byte} {s : State}
    (h : s.updatable w (s.locate rm) = true) :
    let l := s.locate rm
    let r := shiftCompute op s.freeBit (s.valueAt w l) (maskCount count) s.flags
    shiftRM op w rm count s = .ok () (if maskCount count = 0 then s.afterRead w l
      else ((s.afterRead w l).withFlags r.flags).afterWrite w l r.value) := by
  intro l r
  obtain ⟨hread, hwrite⟩ := updatable_readable h
  by_cases h0 : maskCount count = 0
  · rw [shiftRM, if_pos h0, if_pos h0, M_get_bind]
    exact (M_bind_ok (checkLoc_flat hwrite)).trans (M_bind_ok (readLoc_flat hread))
  · rw [shiftRM, if_neg h0, if_neg h0]
    refine modifyRM_flat h ?_
    rw [M_get_bind, afterRead_freeBit, afterRead_flags]
    rfl

/-- Every form is one shift of its operand by its count. -/
theorem shiftForm_run (op : ShiftOp) (f : ShiftForm) (s : State) :
    shiftForm op f s = shiftRM op (shiftParts s f).1 (shiftParts s f).2.1 (shiftParts s f).2.2 s := by
  rw [shiftForm, M_get_bind]
  cases f <;> rfl

theorem shiftForm_flat {op : ShiftOp} {f : ShiftForm} {s : State}
    (h : s.updatable (shiftParts s f).1 (s.locate (shiftParts s f).2.1) = true) :
    shiftForm op f s = .ok () (shiftAfter op f s) := (shiftForm_run op f s).trans (shiftRM_flat h)

theorem shiftParts_begun (s : State) (f : ShiftForm) : shiftParts s.begun f = shiftParts s f := by cases f <;> rfl

theorem exec_shiftInstr (op : ShiftOp) (f : ShiftForm) (s : State) :
    exec (shiftInstr op f) s = plain (shiftForm op f) s := by cases op <;> rfl

/-! ## Double shifts -/

/-- With a count of 0 nothing is accessed; else the operand is read, computed with the second register and written (R368,
R369). -/
theorem doubleShiftRM_flat {left : Bool} {rm : RM} {r : Fin 8} {count : Byte} {s : State}
    (h : maskCount count ≠ 0 → s.updatable s.osz.width (s.locate rm) = true) :
    let w := s.osz.width
    let l := s.locate rm
    let res := doubleShift left s.freeBit ((s.freeWord shdSlot).truncate w.bits) (s.valueAt w l) (s.reg w r)
      (maskCount count) s.flags
    doubleShiftRM left rm r count s = .ok () (if maskCount count = 0 then s
      else ((s.afterRead w l).withFlags res.flags).afterWrite w l res.value) := by
  intro w l res
  rw [doubleShiftRM, M_get_bind]
  by_cases h0 : maskCount count = 0
  · rw [if_pos h0, if_pos h0]
    rfl
  · rw [if_neg h0, if_neg h0]
    refine modifyRM_flat (h h0) ?_
    rw [M_get_bind, afterRead_freeBit, afterRead_freeWord, afterRead_reg, afterRead_flags]
    rfl

theorem shdForm_run (left : Bool) (f : ShdForm) (s : State) :
    shdForm left f s = doubleShiftRM left (doubleParts s f).1 (doubleParts s f).2.1 (doubleParts s f).2.2 s := by
  cases f <;> rfl

theorem shdForm_flat {left : Bool} {f : ShdForm} {s : State} (h : doubleReady f s = true) :
    shdForm left f s = .ok () (doubleAfter left f s) := by
  refine (shdForm_run left f s).trans (doubleShiftRM_flat fun h0 => ?_)
  exact (Bool.or_eq_true_iff.1 h).resolve_left fun hz => h0 (eq_of_beq hz)

theorem doubleReady_begun (f : ShdForm) (s : State) : doubleReady f s.begun = doubleReady f s := by
  have hparts : doubleParts s.begun f = doubleParts s f := by cases f <;> rfl
  rw [doubleReady, doubleReady, hparts, updatable_begun]
  rfl

theorem exec_doubleInstr (left : Bool) (f : ShdForm) (s : State) :
    exec (doubleInstr left f) s = plain (shdForm left f) s := by cases left <;> rfl

end Sys2Proof.Machine

open Sys2Proof Sys2Proof.Machine Sys2Proof.Claims

/-- Settles O21: each form is the read-modify-write of its operand, with the count modulo 32. -/
theorem shiftResult : Obligations.ShiftResult := by
  unfold Obligations.ShiftResult
  refine ⟨fun op f s hp h => ?shift, fun left f s hp h => ?double⟩
  case shift =>
    rw [exec_shiftInstr]
    refine plain_next hp (shiftForm_flat ?_)
    rw [shiftParts_begun]
    exact (updatable_begun s _ _).trans h
  case double =>
    rw [exec_doubleInstr]
    exact plain_next hp (shdForm_flat ((doubleReady_begun f s).trans h))
end

section
/-!
PROOF. The conditions after a comparison: CF and ZF order the operands as unsigned numbers, SF, OF and ZF as signed ones. It
settles O18.
-/
namespace Sys2Proof.Machine

theorem subFlags_zf_iff {n : Nat} (a b : BitVec n) (f : EFlags) : (subFlags a b false f).flags.zf = true ↔ a = b := by
  have hvalue : (subFlags a b false f).flags.zf = (a - b == 0) := by simp [subFlags, setSZP]
  rw [hvalue, beq_iff_eq]
  exact sub_eq_zero

theorem subFlags_cf_iff {n : Nat} (a b : BitVec n) (f : EFlags) :
    (subFlags a b false f).flags.cf = true ↔ a.toNat < b.toNat := decide_eq_true_iff

/-- SF is the sign of the difference unless that is out of range, as OF tells; then it is the opposite of the sign. -/
theorem subFlags_sf_ne_ovf_iff {n : Nat} (hn : 4 < n) (a b : BitVec n) (f : EFlags) :
    (subFlags a b false f).flags.sf ≠ (subFlags a b false f).flags.ovf ↔ a.toInt < b.toInt := by
  obtain ⟨-, -, -, hovf, -, hsf, -⟩ := subFlags_meaning hn a b false f
  have hdiff : (subFlags a b false f).value.toNat + b.toNat = a.toNat ∨
      (subFlags a b false f).value.toNat + b.toNat = a.toNat + 2 ^ n := toNat_difference_cases a b false
  have hp : 2 ^ n = 2 * 2 ^ (n - 1) := by rw [← Nat.pow_succ', Nat.succ_eq_add_one, Nat.sub_add_cancel (by omega)]
  have hcast : (2 : Int) ^ (n - 1) = ((2 ^ (n - 1) : Nat) : Int) := by push_cast; rfl
  rw [ne_eq, Bool.eq_iff_iff, hsf, hovf, hcast, Bool.toNat_false]
  rw [hp] at hdiff
  have ha := sign_cases (by omega) a
  have hb := sign_cases (by omega) b
  have hr := sign_cases (by omega) (subFlags a b false f).value
  omega

end Sys2Proof.Machine

open Sys2Proof Sys2Proof.Machine

/-- Settles O18: CF is the unsigned order, SF against OF the signed one. -/
theorem conditionsAfterCompare : Obligations.ConditionsAfterCompare := by
  unfold Obligations.ConditionsAfterCompare
  intro w a b f g
  have hn : 4 < w.bits := by cases w <;> decide
  have hzf : g.zf = true ↔ a = b := subFlags_zf_iff a b f
  have hcf : g.cf = true ↔ a.toNat < b.toNat := subFlags_cf_iff a b f
  have hless : g.sf ≠ g.ovf ↔ a.toInt < b.toInt := subFlags_sf_ne_ovf_iff hn a b f
  have hne : g.zf = false ↔ a ≠ b := by rw [← Bool.not_eq_true, hzf]
  have hae : g.cf = false ↔ b.toNat ≤ a.toNat := by rw [← Bool.not_eq_true, hcf, Nat.not_lt]
  have hge : g.sf = g.ovf ↔ b.toInt ≤ a.toInt := by rw [← Int.not_lt, ← hless, ne_eq, not_not]
  simp only [Cond.holds, Bool.or_eq_true, Bool.and_eq_true, Bool.not_eq_true', bne_iff_ne, beq_iff_eq, hzf, hne, hcf, hae,
    hless, hge, true_and]
  refine ⟨?_, ?_, ?_, ?_⟩
  · rw [← BitVec.toNat_inj]
    omega
  · rw [ne_eq, ← BitVec.toNat_inj]
    omega
  · rw [← BitVec.toInt_inj]
    omega
  · rw [ne_eq, ← BitVec.toInt_inj]
    omega
end

section
/-!
PROOF. Multiplication and division with paging off: where a product needs the high half, how the truncated quotient and the
remainder are told by their equation, and the instructions. It settles O22 and O23.
-/
namespace Sys2Proof.Machine

open Sys2Proof.Claims

/-! ## Products that need the high half -/

/-- A number read back from its low `n` bits differs exactly where it is out of the signed range. -/
theorem ne_toInt_ofInt_iff {n : Nat} (hn : 0 < n) (p : Int) :
    p ≠ (BitVec.ofInt n p).toInt ↔ p < -(2 : Int) ^ (n - 1) ∨ (2 : Int) ^ (n - 1) ≤ p := by
  constructor
  · intro h
    by_contra hin
    exact h (BitVec.toInt_ofInt_eq_self hn (by omega) (by omega)).symm
  · intro h heq
    have hlow := BitVec.le_toInt (BitVec.ofInt n p)
    have hhigh := BitVec.toInt_lt (x := BitVec.ofInt n p)
    omega

/-- The high half of an unsigned product is 0 exactly where the product is below 2^n. -/
theorem highHalf_ne_zero_eq {n : Nat} (a b : BitVec n) :
    (BitVec.ofInt n (((a.toNat * b.toNat : Nat) : Int) / 2 ^ n) != 0) =
      decide ((2 : Int) ^ n ≤ ((a.toNat * b.toNat : Nat) : Int)) := by
  have hdiv : ((a.toNat * b.toNat : Nat) : Int) / 2 ^ n = ((a.toNat * b.toNat / 2 ^ n : Nat) : Int) := by push_cast; rfl
  have hcast : (2 : Int) ^ n = ((2 ^ n : Nat) : Int) := by push_cast; rfl
  have hlt : a.toNat * b.toNat / 2 ^ n < 2 ^ n :=
    Nat.div_lt_of_lt_mul (Nat.mul_lt_mul'' a.isLt b.isLt)
  rw [hdiv, BitVec.ofInt_natCast, Bool.eq_iff_iff, bne_iff_ne, decide_eq_true_iff, hcast, Int.ofNat_le, ne_eq,
    ← BitVec.toNat_inj, BitVec.toNat_ofNat, Nat.mod_eq_of_lt hlt]
  exact (Nat.div_eq_zero_iff_lt (Nat.two_pow_pos n)).not.trans Nat.not_lt

/-- The number a multiplication has stored, and whether CF and OF tell that it is too wide (R392, R393). -/
theorem mulWide_eq {n : Nat} (hn : 0 < n) (signed : Bool) (a b : BitVec n) :
    let p : Int := if signed then a.toInt * b.toInt else (a.toNat * b.toNat : Nat)
    p = number signed a * number signed b ∧
    (if signed then decide (p ≠ (BitVec.ofInt n p).toInt) else BitVec.ofInt n (p / 2 ^ n) != 0) =
      (if signed then decide (p < -(2 : Int) ^ (n - 1) ∨ (2 : Int) ^ (n - 1) ≤ p) else decide ((2 : Int) ^ n ≤ p)) := by
  cases signed
  case false => exact ⟨Int.natCast_mul _ _, highHalf_ne_zero_eq a b⟩
  case true => exact ⟨rfl, decide_eq_decide.2 (ne_toInt_ofInt_iff hn _)⟩

theorem width_pos (w : Width) : 0 < w.bits := by cases w <;> decide

/-! ## MUL and IMUL -/

theorem unaryWidth_eq (s : State) (f : UnaryForm) : unaryWidth f s.osz = (unaryParts s f).1 := by cases f <;> rfl

theorem unaryOperand_eq (s : State) (f : UnaryForm) : unaryOperand f = (unaryParts s f).2 := by cases f <;> rfl

theorem mulForm_flat {signed : Bool} {f : UnaryForm} {s : State}
    (h : s.readable (unaryParts s f).1 (s.locate (unaryParts s f).2) = true) :
    mulForm signed f s = .ok () (mulAfter signed f s) := by
  rw [mulForm, M_get_bind, unaryWidth_eq, unaryOperand_eq s, M_bind_ok (readRM_flat h), M_get_bind, mulAfter, afterRead_reg]
  obtain ⟨hp, hwide⟩ := mulWide_eq (width_pos (unaryParts s f).1) signed (s.reg (unaryParts s f).1 eax)
    (s.valueAt (unaryParts s f).1 (s.locate (unaryParts s f).2))
  rw [hwide, ← hp]
  rfl

theorem unaryParts_begun (s : State) (f : UnaryForm) : unaryParts s.begun f = unaryParts s f := by cases f <;> rfl

theorem exec_mulInstr (signed : Bool) (f : UnaryForm) (s : State) :
    exec (mulInstr signed f) s = plain (mulForm signed f) s := by
  cases signed
  · rfl
  · cases f <;> rfl

/-- The form of IMUL with two or three operands. -/
def shortForm : ShortImul → ImulForm
  | .byImm r rm imm => .gvEvIv r rm imm
  | .byByte r rm imm => .gvEvIbs r rm imm
  | .byReg r rm => .gvEv r rm

theorem exec_shortImul (i : ShortImul) (s : State) : exec i.instr s = plain (imulForm (shortForm i)) s := by
  cases i <;> rfl

theorem imulReg_run (w : Width) (r : Fin 8) (a b : BitVec w.bits) (s : State) :
    let p := a.toInt * b.toInt
    imulReg w r a b s = .ok () ((s.setReg w r (BitVec.ofInt w.bits p)).withFlags
      (productFlags s (decide (p < -(2 : Int) ^ (w.bits - 1) ∨ (2 : Int) ^ (w.bits - 1) ≤ p)))) := by
  rw [imulReg, M_get_bind, decide_eq_decide.2 (ne_toInt_ofInt_iff (width_pos w) (a.toInt * b.toInt))]
  rfl

theorem imulReg_comm (w : Width) (r : Fin 8) (a b : BitVec w.bits) : imulReg w r a b = imulReg w r b a := by
  rw [imulReg, imulReg, mul_comm a.toInt]

/-- Each form with two or three operands multiplies the operand it reads by its other factor (R394). -/
theorem imulForm_run (i : ShortImul) (s : State) :
    imulForm (shortForm i) s =
      (do imulReg s.osz.width i.dest (← readRM s.osz.width i.operand) (i.factor s s.osz.width) : M Unit) s := by
  cases i with
  | byImm | byByte => rfl
  | byReg r rm =>
    exact congrArg (fun g => (readRM s.osz.width rm >>= g : M Unit) s)
      (funext fun b => imulReg_comm s.osz.width r (s.reg s.osz.width r) b)

theorem imulForm_flat {i : ShortImul} {s : State} (h : s.readable s.osz.width (s.locate i.operand) = true) :
    imulForm (shortForm i) s = .ok () (i.after s) := by
  rw [imulForm_run, M_bind_ok (readRM_flat h), imulReg_run, productFlags, afterRead_flags, afterRead_freeBit]
  rfl

/-! ## The truncated quotient -/

/-- A quotient and a remainder smaller than the divisor and of the sign of the dividend are those of truncated division
(R396, R397). -/
theorem tdiv_tmod_eq {n d q r : Int} (hd : d ≠ 0) (hn : n = q * d + r) (hr : r.natAbs < d.natAbs)
    (hpos : 0 ≤ n → 0 ≤ r) (hneg : n ≤ 0 → r ≤ 0) : n.tdiv d = q ∧ n.tmod d = r := by
  have hsum : r + d * q = n := by rw [hn, mul_comm, add_comm]
  obtain h | h := Int.le_total 0 n
  · exact (Int.tdiv_tmod_unique h hd).2 ⟨hsum, hpos h, by omega⟩
  · exact (Int.tdiv_tmod_unique' h hd).2 ⟨hsum, by omega, hneg h⟩

/-! ## DIV and IDIV -/

/-- A division reads its operand; a divisor of 0 or a quotient out of range is exception 0 (R396, R397). -/
theorem divForm_flat {signed : Bool} {f : UnaryForm} {s : State}
    (h : s.readable (unaryParts s f).1 (s.locate (unaryParts s f).2) = true) :
    let w := (unaryParts s f).1
    let l := s.locate (unaryParts s f).2
    let n := dividend s signed w
    let d := number signed (s.valueAt w l)
    divForm signed f s =
      if d ≠ 0 ∧ quotientFits signed w (n.tdiv d) = true then .ok () (divAfter s w l (n.tdiv d) (n.tmod d))
      else .error (.exc { vector := 0, code := none, newTask := false }) (s.afterRead w l) := by
  intro w l n d
  have hrun : divForm signed f s = (do
      require (decide (d ≠ 0)) 0
      require (quotientFits signed w (n.tdiv d)) 0
      modify fun t => (putPair t w (BitVec.ofInt w.bits (n.tdiv d)) (BitVec.ofInt w.bits (n.tmod d))).withFlags
        (freeStatus s.freeBit s.flags) : M Unit) (s.afterRead w l) := by
    rw [divForm, M_get_bind, unaryWidth_eq, unaryOperand_eq s, M_bind_ok (readRM_flat h), M_get_bind, afterRead_reg,
      afterRead_reg, afterRead_freeBit, afterRead_flags]
    rfl
  rw [hrun]
  by_cases hd : d = 0
  · rw [M_bind_error (t := s.afterRead w l) (by rw [decide_eq_false (not_not.2 hd)]; rfl), if_neg fun h => h.1 hd]
  · rw [M_bind_ok (t := s.afterRead w l) (by rw [decide_eq_true hd]; rfl)]
    cases hfit : quotientFits signed w (n.tdiv d)
    · rw [if_neg (by simp)]
      rfl
    · rw [if_pos ⟨hd, rfl⟩]
      rfl

theorem exec_divInstr (signed : Bool) (f : UnaryForm) (s : State) :
    exec (divInstr signed f) s = plain (divForm signed f) s := by cases signed <;> rfl

end Sys2Proof.Machine

open Sys2Proof Sys2Proof.Machine Sys2Proof.Claims

/-- Settles O22: each form reads its operand and stores the product of it and the other factor. -/
theorem multiplyResult : Obligations.MultiplyResult := by
  unfold Obligations.MultiplyResult
  refine ⟨fun signed f s hp h => ?one, fun i s hp h => ?short⟩
  case one =>
    have hbody : mulForm signed f s.begun = .ok () (mulAfter signed f s.begun) := by
      refine mulForm_flat ?_
      rw [unaryParts_begun]
      exact (readable_begun s _ _).trans h
    rw [exec_mulInstr]
    exact plain_next hp hbody
  case short =>
    have hbody : imulForm (shortForm i) s.begun = .ok () (i.after s.begun) :=
      imulForm_flat ((readable_begun s _ _).trans h)
    rw [exec_shortImul]
    exact plain_next hp hbody

/-- Settles O23: the equation of the division tells the quotient and the remainder that are stored. -/
theorem divideResult : Obligations.DivideResult := by
  unfold Obligations.DivideResult
  intro signed f s w l n d hp h
  have hrun := divForm_flat (signed := signed) (f := f) (s := s.begun)
    (by rw [unaryParts_begun]; exact (readable_begun s _ _).trans h)
  simp only [unaryParts_begun, valueAt_begun] at hrun
  rw [exec_divInstr]
  refine ⟨fun q r hd hn hr hpos hneg hfit => ?completes, fun hfault => ?faults⟩
  case completes =>
    obtain ⟨hq, hrem⟩ := tdiv_tmod_eq hd hn hr hpos hneg
    have hok : d ≠ 0 ∧ quotientFits signed w (n.tdiv d) = true := ⟨hd, by rw [hq, hfit]⟩
    refine plain_next hp (hrun.trans ((if_pos hok).trans ?_))
    rw [← hq, ← hrem]
    rfl
  case faults =>
    have hnot : ¬ (d ≠ 0 ∧ quotientFits signed w (n.tdiv d) = true) := fun hok =>
      hfault.elim hok.1 fun hfit => Bool.false_ne_true (hfit.symm.trans hok.2)
    rw [plain_exc hp (by decide) (hrun.trans (if_neg hnot)), rollback_afterRead]
end

section
/-!
PROOF. The decimal adjusts as instructions: one write of AL or AX and of the flags, or exception 0. It settles O24.
-/
namespace Sys2Proof.Machine

open Sys2Proof.Claims

/-- The adjust of AL or AX as steps. -/
def adjustStep : Adjust → M Unit
  | .daa => adjustAl daaCompute
  | .das => adjustAl dasCompute
  | .aaa => adjustAx aaaCompute
  | .aas => adjustAx aasCompute
  | .aam b => do
    require (b != 0) 0
    adjustAx fun u ax f => aamCompute u (ax.extractLsb' 0 8) b f
  | .aad b => adjustAx fun u ax f => aadCompute u ax b f

theorem exec_adjust (a : Adjust) (s : State) : exec a.instr s = plain (adjustStep a) s := by cases a <;> rfl

theorem reg_al (s : State) : (s.reg .w16 eax).extractLsb' 0 8 = s.reg .w8 eax := by
  change ((s.reg32 eax).extractLsb' 0 16).extractLsb' 0 8 = (s.reg32 eax).extractLsb' 0 8
  apply BitVec.eq_of_getLsbD_eq
  intro k hk
  simp [hk]

theorem rollback_begun (s : State) : s.rollback s.begun = s := rfl

theorem adjustStep_ready {a : Adjust} (h : a.ready = true) (s : State) : adjustStep a s = .ok () (a.after s) := by
  cases a with
  | daa | das | aaa | aas | aad => rfl
  | aam b =>
    have hb : (b != 0) = true := h
    rw [adjustStep, hb, M_bind_ok (require_true_run 0 s), adjustAx, M_get_bind, reg_al]
    rfl

theorem adjustStep_not_ready {a : Adjust} (h : a.ready = false) (s : State) :
    adjustStep a s = .error (.exc { vector := 0, code := none, newTask := false }) s := by
  cases a with
  | daa | das | aaa | aas | aad => cases h
  | aam b =>
    have hb : (b != 0) = false := h
    rw [adjustStep, hb]
    rfl

end Sys2Proof.Machine

open Sys2Proof Sys2Proof.Machine Sys2Proof.Claims

/-- Settles O24: the steps of each adjust write AL or AX and the flags. -/
theorem decimalAdjustResult : Obligations.DecimalAdjustResult := by
  unfold Obligations.DecimalAdjustResult
  intro a s hp
  rw [exec_adjust]
  refine ⟨fun h => plain_next hp (adjustStep_ready h s.begun), fun h => ?_⟩
  rw [plain_exc hp (by decide) (adjustStep_not_ready h s.begun), rollback_begun]
end

section
/-!
PROOF. The decimal adjusts in numbers: the correction of each for every input, and the decimal sums and differences that it
gives, digit by digit. It settles O25.
-/
namespace Sys2Proof.Machine

open Sys2Proof.Claims

/-! ## Corrections in numbers -/

theorem and_low_nibble {n : Nat} (x : BitVec n) (hn : 4 ≤ n) : (x &&& 0x0F).toNat = x.toNat % 16 := by
  have hlt : 15 < 2 ^ n := Nat.lt_of_lt_of_le (by decide) (Nat.pow_le_pow_right (by decide) hn)
  have hmask : (0x0F : BitVec n).toNat = 2 ^ 4 - 1 := Nat.mod_eq_of_lt hlt
  rw [BitVec.toNat_and, hmask]
  exact Nat.and_two_pow_sub_one_eq_mod _ 4

/-- AND 0FH of the low byte: the high byte and the low digit stay (R402). -/
theorem and_digit (v : Word16) : (v &&& 0xFF0F).toNat = v.toNat / 256 * 256 + v.toNat % 16 := by
  have h : v &&& 0xFF0F = v.extractLsb' 8 8 ++ (0#4 ++ v.extractLsb' 0 4) := by
    apply BitVec.eq_of_getLsbD_eq
    intro i hi
    have hm : (0xFF0F#16).getLsbD i = decide (8 ≤ i ∨ i < 4) :=
      (by decide : ∀ i : Fin 16, (0xFF0F#16).getLsbD i.val = decide (8 ≤ i.val ∨ i.val < 4)) ⟨i, hi⟩
    rw [BitVec.getLsbD_and, show (0xFF0F : BitVec 16).getLsbD i = _ from hm]
    simp only [BitVec.getLsbD_append, BitVec.getLsbD_extractLsb']
    by_cases h4 : i < 4
    · simp [h4, show i < 8 by omega]
    · by_cases h8 : i < 8
      · simp [h4, h8]
      · simp [h4, h8, show i - 8 < 8 by omega, show 8 + (i - 8) = i by omega, show 8 ≤ i by omega]
  have hv := v.isLt
  rw [h, append_toNat, append_toNat, extractLsb'_toNat_div, extractLsb'_toNat_div, BitVec.toNat_zero]
  omega

/-- ZF, SF and PF by a byte as a number (R33). -/
theorem setSZP_byte (v : Byte) (f : EFlags) : setSZP v f =
    { f with sf := decide (128 ≤ v.toNat), zf := decide (v.toNat = 0), pf := evenOnes (BitVec.ofNat 8 v.toNat) } := by
  have hzf : (v == 0) = decide (v.toNat = 0) := by
    rw [Bool.eq_iff_iff, beq_iff_eq, decide_eq_true_iff, ← BitVec.toNat_inj]
    rfl
  rw [setSZP, hzf, BitVec.msb_eq_decide, BitVec.extractLsb'_eq_self, evenParity_eq_evenOnes, BitVec.ofNat_toNat,
    BitVec.setWidth_eq]

/-- DAA and DAS correct the low digit (R400, R401). -/
def lowAdjust (al : Byte) (f : EFlags) : Bool := decide (9 < al.toNat % 16) || f.af

/-- DAA and DAS correct the high digit (R400, R401). -/
def highAdjust (al : Byte) (f : EFlags) : Bool := decide (0x99 < al.toNat) || f.cf

theorem lowAdjust_iff (al : Byte) (f : EFlags) : lowAdjust al f = true ↔ 9 < al.toNat % 16 ∨ f.af = true := by
  rw [lowAdjust, Bool.or_eq_true, decide_eq_true_iff]

theorem highAdjust_iff (al : Byte) (f : EFlags) : highAdjust al f = true ↔ 0x99 < al.toNat ∨ f.cf = true := by
  rw [highAdjust, Bool.or_eq_true, decide_eq_true_iff]

/-- The correction of a packed decimal byte (R400, R401). -/
def packedCorrection (low high : Bool) : Nat := (if low then 6 else 0) + (if high then 0x60 else 0)

theorem packedCorrection_lt (low high : Bool) : packedCorrection low high < 256 := by
  cases low <;> cases high <;> decide

theorem lowAdjust_eq (al : Byte) (f : EFlags) : (decide (9 < (al &&& 0x0F).toNat) || f.af) = lowAdjust al f := by
  rw [and_low_nibble al (by decide)]
  rfl

theorem add_correction (al : Byte) (low high : Bool) :
    (if high then (if low then al + 6 else al) + 0x60 else if low then al + 6 else al) =
      al + BitVec.ofNat 8 (packedCorrection low high) := by
  cases low <;> cases high <;> simp [packedCorrection, BitVec.add_assoc]

theorem sub_correction (al : Byte) (low high : Bool) :
    (if high then (if low then al - 6 else al) - 0x60 else if low then al - 6 else al) =
      al - BitVec.ofNat 8 (packedCorrection low high) := by
  cases low <;> cases high <;> simp [packedCorrection, sub_sub]

/-- DAA adds the correction (R400). -/
theorem daaCompute_meaning (u : Nat → Bool) (al : Byte) (f : EFlags) :
    let low := lowAdjust al f
    let high := highAdjust al f
    let r := daaCompute u al f
    r.value.toNat = (al.toNat + packedCorrection low high) % 256 ∧
    r.flags = { setSZP r.value f with af := low, cf := high, ovf := u 5 } := by
  intro low high r
  have hvalue : r.value = al + BitVec.ofNat 8 (packedCorrection low high) := by
    rw [← add_correction]
    simp only [r, daaCompute, lowAdjust_eq]
    rfl
  refine ⟨?_, ?_⟩
  · rw [hvalue, BitVec.toNat_add, BitVec.toNat_ofNat, Nat.add_mod_mod]
  · simp only [r, daaCompute, lowAdjust_eq]
    rfl

/-- DAS subtracts it; CF also tells a borrow of the low correction (R401). -/
theorem dasCompute_meaning (u : Nat → Bool) (al : Byte) (f : EFlags) :
    let low := lowAdjust al f
    let high := highAdjust al f
    let r := dasCompute u al f
    r.value.toNat = (al.toNat + 256 - packedCorrection low high) % 256 ∧
    r.flags = { setSZP r.value f with af := low, cf := high || (low && (f.cf || decide (al.toNat < 6))), ovf := u 5 } := by
  intro low high r
  have hvalue : r.value = al - BitVec.ofNat 8 (packedCorrection low high) := by
    rw [← sub_correction]
    simp only [r, dasCompute, lowAdjust_eq]
    rfl
  refine ⟨?_, ?_⟩
  · have hlt := packedCorrection_lt low high
    rw [hvalue, BitVec.toNat_sub, BitVec.toNat_ofNat, Nat.mod_eq_of_lt hlt]
    omega
  · simp only [r, dasCompute, lowAdjust_eq]
    rfl

/-- AAA and AAS correct the digit (R402, R403). -/
def digitAdjust (ax : Word16) (f : EFlags) : Bool := decide (9 < ax.toNat % 16) || f.af

theorem digitAdjust_iff (ax : Word16) (f : EFlags) : digitAdjust ax f = true ↔ 9 < ax.toNat % 16 ∨ f.af = true := by
  rw [digitAdjust, Bool.or_eq_true, decide_eq_true_iff]

theorem digitAdjust_eq (ax : Word16) (f : EFlags) :
    (decide (9 < (ax &&& 0x000F).toNat) || f.af) = digitAdjust ax f := by
  rw [and_low_nibble ax (by decide)]
  rfl

/-- The correction of AX: 6 in AL and 1 in AH (R402, R403). -/
def digitCorrection (adjust : Bool) : Nat := if adjust then 0x106 else 0

theorem toNat_add_digit (ax : Word16) (adjust : Bool) :
    (if adjust then ax + 0x0106 else ax).toNat = (ax.toNat + digitCorrection adjust) % 2 ^ 16 := by
  cases adjust
  · exact (Nat.mod_eq_of_lt ax.isLt).symm
  · exact BitVec.toNat_add ax 0x0106

theorem toNat_sub_digit (ax : Word16) (adjust : Bool) :
    (if adjust then ax - 6 - 0x0100 else ax).toNat = (ax.toNat + 2 ^ 16 - digitCorrection adjust) % 2 ^ 16 := by
  have hax := ax.isLt
  cases adjust
  · exact (Nat.mod_eq_of_lt hax).symm.trans (Nat.add_mod_right _ _).symm
  · have h : ax - 6 - 0x0100 = ax - 0x0106 := sub_sub ax 6 0x0100
    have h6 : (0x0106 : Word16).toNat = 0x0106 := rfl
    rw [if_pos rfl, h, BitVec.toNat_sub, h6, digitCorrection, if_pos rfl]
    omega

/-- AAA adds the correction and clears the high digit of AL (R402). -/
theorem aaaCompute_meaning (u : Nat → Bool) (ax : Word16) (f : EFlags) :
    let adjust := digitAdjust ax f
    let sum := (ax.toNat + digitCorrection adjust) % 2 ^ 16
    let r := aaaCompute u ax f
    r.value.toNat = sum / 256 * 256 + sum % 16 ∧ r.flags = asciiFlags u adjust f := by
  intro adjust sum r
  have hsum : (if adjust then ax + 0x0106 else ax).toNat = sum := toNat_add_digit ax adjust
  simp only [r, aaaCompute, digitAdjust_eq]
  rw [← hsum]
  exact ⟨and_digit _, rfl⟩

/-- AAS subtracts it (R403). -/
theorem aasCompute_meaning (u : Nat → Bool) (ax : Word16) (f : EFlags) :
    let adjust := digitAdjust ax f
    let difference := (ax.toNat + 2 ^ 16 - digitCorrection adjust) % 2 ^ 16
    let r := aasCompute u ax f
    r.value.toNat = difference / 256 * 256 + difference % 16 ∧ r.flags = asciiFlags u adjust f := by
  intro adjust difference r
  have hdiff : (if adjust then ax - 6 - 0x0100 else ax).toNat = difference := toNat_sub_digit ax adjust
  simp only [r, aasCompute, digitAdjust_eq]
  rw [← hdiff]
  exact ⟨and_digit _, rfl⟩

/-! ## AAM and AAD -/

theorem aamCompute_meaning (u : Nat → Bool) (al base : Byte) (f : EFlags) :
    let r := aamCompute u al base f
    r.value.toNat = al.toNat / base.toNat * 256 + al.toNat % base.toNat ∧
    r.flags = aamFlags u (r.value.extractLsb' 0 8) f := by
  intro r
  have hal : r.value.extractLsb' 0 8 = al % base := BitVec.extractLsb'_append_eq_right
  rw [hal]
  exact ⟨append_toNat (al / base) (al % base), rfl⟩

theorem aadCompute_meaning (u : Nat → Bool) (ax : Word16) (base : Byte) (f : EFlags) :
    let r := aadCompute u ax base f
    r.value.toNat = (ax.toNat % 256 + ax.toNat / 256 * base.toNat) % 256 ∧
    r.flags = aamFlags u (r.value.extractLsb' 0 8) f := by
  intro r
  have hax := ax.isLt
  have hvalue : r.value = (ax.extractLsb' 0 8 + ax.extractLsb' 8 8 * base).setWidth 16 := rfl
  refine ⟨?_, ?_⟩
  · have hhigh : ax.toNat / 2 ^ 8 % 2 ^ 8 = ax.toNat / 2 ^ 8 := Nat.mod_eq_of_lt (by omega)
    rw [hvalue, BitVec.toNat_setWidth_of_le (by decide), BitVec.toNat_add, BitVec.toNat_mul, extractLsb'_toNat_div,
      extractLsb'_toNat_div, hhigh, Nat.add_mod_mod, Nat.pow_zero, Nat.div_one]
    rfl
  · rw [hvalue, BitVec.extractLsb'_setWidth_of_le (by decide), BitVec.extractLsb'_eq_self]
    rfl

/-- The flags of AAM and AAD one by one (R404, R405). -/
theorem aamFlags_eq (u : Nat → Bool) (b : Byte) (f : EFlags) : aamFlags u b f =
    { f with zf := b == 0, sf := b.msb, pf := evenOnes b, cf := u 0, af := u 2, ovf := u 5 } := by
  rw [aamFlags, setSZP, BitVec.extractLsb'_eq_self, evenParity_eq_evenOnes]

/-! ## Decimal sums and differences -/

/-- A number below 100 as packed decimal. -/
def packed (n : Nat) : Nat := n / 10 * 16 + n % 10

theorem packed_lt {n : Nat} (h : n < 100) : packed n < 256 := by
  unfold packed
  omega

theorem packed_digits (n : Nat) : ∃ tens ones, ones < 10 ∧ n = 10 * tens + ones ∧ packed n = 16 * tens + ones :=
  ⟨n / 10, n % 10, by omega, by omega, by rw [packed, mul_comm]⟩

/-- The low digit of a packed sum is corrected exactly where the digits carry. -/
theorem packedSum_low {x y c : Nat} (hc : c ≤ 1) :
    9 < (packed x + packed y + c) % 256 % 16 ∨ 16 ≤ packed x % 16 + packed y % 16 + c ↔ 10 ≤ x % 10 + y % 10 + c := by
  obtain ⟨s, a, ha, rfl, hp⟩ := packed_digits x
  obtain ⟨t, b, hb, rfl, hq⟩ := packed_digits y
  omega

/-- The high digit is corrected exactly where the sum has a third digit. -/
theorem packedSum_high {x y c : Nat} (hx : x < 100) (hy : y < 100) (hc : c ≤ 1) :
    0x99 < (packed x + packed y + c) % 256 ∨ 256 ≤ packed x + packed y + c ↔ 100 ≤ x + y + c := by
  obtain ⟨s, a, ha, rfl, hp⟩ := packed_digits x
  obtain ⟨t, b, hb, rfl, hq⟩ := packed_digits y
  rw [hp, hq]
  omega

theorem packedSum_corrected {x y c : Nat} (hx : x < 100) (hy : y < 100) (hc : c ≤ 1) :
    ((packed x + packed y + c) % 256 +
      packedCorrection (decide (10 ≤ x % 10 + y % 10 + c)) (decide (100 ≤ x + y + c))) % 256 =
      packed ((x + y + c) % 100) := by
  obtain ⟨s, a, ha, rfl, hp⟩ := packed_digits x
  obtain ⟨t, b, hb, rfl, hq⟩ := packed_digits y
  obtain ⟨u, d, hd, hz, hr⟩ := packed_digits ((10 * s + a + (10 * t + b) + c) % 100)
  have hx' : (10 * s + a) % 10 = a := by omega
  have hy' : (10 * t + b) % 10 = b := by omega
  rw [hp, hq, hr, hx', hy', packedCorrection]
  clear hp hq hr hx' hy'
  simp only [decide_eq_true_iff]
  by_cases h : 100 ≤ 10 * s + a + (10 * t + b) + c
  · rw [if_pos h]
    split <;> omega
  · have htens : s + t ≤ 9 := by omega
    rw [Nat.mod_eq_of_lt (by omega)] at hz
    rw [if_neg h, Nat.mod_eq_of_lt (a := 16 * s + a + (16 * t + b) + c) (by omega)]
    split <;> omega

/-- A difference of packed numbers, as subtraction leaves it in a byte. -/
def PackedDifference (x y c m : Nat) : Prop := m + packed y + c = packed x ∨ m + packed y + c = packed x + 256

theorem packed_lt_iff {x y c : Nat} (hc : c ≤ 1) : packed x < packed y + c ↔ x < y + c := by
  obtain ⟨s, a, ha, rfl, hp⟩ := packed_digits x
  obtain ⟨t, b, hb, rfl, hq⟩ := packed_digits y
  omega

theorem packedDifference_low {x y c m : Nat} (hc : c ≤ 1) (hm : PackedDifference x y c m) :
    9 < m % 16 ∨ packed x % 16 < packed y % 16 + c ↔ x % 10 < y % 10 + c := by
  unfold PackedDifference at hm
  obtain ⟨s, a, ha, rfl, hp⟩ := packed_digits x
  obtain ⟨t, b, hb, rfl, hq⟩ := packed_digits y
  omega

theorem packedDifference_high {x y c m : Nat} (hx : x < 100) (hc : c ≤ 1) (hlt : m < 256)
    (hm : PackedDifference x y c m) : 0x99 < m ∨ packed x < packed y + c ↔ x < y + c := by
  unfold PackedDifference at hm
  obtain ⟨s, a, ha, rfl, hp⟩ := packed_digits x
  obtain ⟨t, b, hb, rfl, hq⟩ := packed_digits y
  omega

/-- Where the minuend is the greater, the low correction does not borrow. -/
theorem packedDifference_six_le {x y c m : Nat} (hm : PackedDifference x y c m) (h : y + c ≤ x)
    (hborrow : x % 10 < y % 10 + c) (hc : c ≤ 1) : 6 ≤ m := by
  unfold PackedDifference at hm
  obtain ⟨s, a, ha, rfl, hp⟩ := packed_digits x
  obtain ⟨t, b, hb, rfl, hq⟩ := packed_digits y
  omega

theorem packedDifference_corrected {x y c m : Nat} (hx : x < 100) (hy : y < 100) (hc : c ≤ 1) (hlt : m < 256)
    (hm : PackedDifference x y c m) :
    (m + 256 - packedCorrection (decide (x % 10 < y % 10 + c)) (decide (x < y + c))) % 256 =
      packed ((x + 100 - y - c) % 100) := by
  unfold PackedDifference at hm
  obtain ⟨s, a, ha, rfl, hp⟩ := packed_digits x
  obtain ⟨t, b, hb, rfl, hq⟩ := packed_digits y
  obtain ⟨u, d, hd, hz, hr⟩ := packed_digits ((10 * s + a + 100 - (10 * t + b) - c) % 100)
  have hx' : (10 * s + a) % 10 = a := by omega
  have hy' : (10 * t + b) % 10 = b := by omega
  rw [hr, hx', hy', packedCorrection]
  rw [hp, hq] at hm
  clear hp hq hr hx' hy'
  simp only [decide_eq_true_iff]
  by_cases h : 10 * s + a < 10 * t + b + c
  · rw [Nat.mod_eq_of_lt (by omega)] at hz
    rw [if_pos h]
    split <;> omega
  · rw [if_neg h]
    split <;> omega

/-- A number below 100 as a packed decimal byte. -/
def packedByte (n : Nat) : Byte := BitVec.ofNat 8 (n / 10 * 16 + n % 10)

theorem packedByte_toNat {n : Nat} (h : n < 100) : (packedByte n).toNat = packed n :=
  (BitVec.toNat_ofNat _ _).trans (Nat.mod_eq_of_lt (packed_lt h))

theorem eq_packedByte {v : Byte} {n : Nat} (h : n < 100) (hv : v.toNat = packed n) : v = packedByte n :=
  BitVec.eq_of_toNat_eq (hv.trans (packedByte_toNat h).symm)

/-- DAA after ADD or ADC (R400). -/
theorem daa_after_add {x y : Nat} (hx : x < 100) (hy : y < 100) (c : Bool) (u : Nat → Bool) (f : EFlags) :
    let p := addFlags (packedByte x) (packedByte y) c f
    let r := daaCompute u p.value p.flags
    r.value = packedByte ((x + y + c.toNat) % 100) ∧ r.flags.cf = decide (100 ≤ x + y + c.toNat) := by
  intro p r
  have hc := c.toNat_le
  obtain ⟨hvalue, hcf, haf, -⟩ := addFlags_meaning (by decide) (packedByte x) (packedByte y) c f
  rw [packedByte_toNat hx, packedByte_toNat hy] at hvalue hcf haf
  have hlow : lowAdjust p.value p.flags = decide (10 ≤ x % 10 + y % 10 + c.toNat) := by
    rw [Bool.eq_iff_iff, lowAdjust_iff, decide_eq_true_iff, hvalue, haf]
    exact packedSum_low hc
  have hhigh : highAdjust p.value p.flags = decide (100 ≤ x + y + c.toNat) := by
    rw [Bool.eq_iff_iff, highAdjust_iff, decide_eq_true_iff, hvalue, hcf]
    exact packedSum_high hx hy hc
  obtain ⟨hr, hflags⟩ := daaCompute_meaning u p.value p.flags
  rw [hlow, hhigh, hvalue] at hr
  refine ⟨eq_packedByte (Nat.mod_lt _ (by decide)) (hr.trans (packedSum_corrected hx hy hc)), ?_⟩
  rw [hflags, hhigh]

/-- DAS after SUB or SBB (R401). -/
theorem das_after_sub {x y : Nat} (hx : x < 100) (hy : y < 100) (c : Bool) (u : Nat → Bool) (f : EFlags) :
    let m := subFlags (packedByte x) (packedByte y) c f
    let r := dasCompute u m.value m.flags
    r.value = packedByte ((x + 100 - y - c.toNat) % 100) ∧ r.flags.cf = decide (x < y + c.toNat) := by
  intro m r
  have hc := c.toNat_le
  obtain ⟨-, hcf, haf, -⟩ := subFlags_meaning (by decide) (packedByte x) (packedByte y) c f
  have hdiff := toNat_difference_cases (packedByte x) (packedByte y) c
  rw [packedByte_toNat hx, packedByte_toNat hy] at hcf haf hdiff
  have hm : PackedDifference x y c.toNat m.value.toNat := hdiff
  have hborrow : m.flags.cf = true ↔ x < y + c.toNat := hcf.trans (packed_lt_iff hc)
  have hlow : lowAdjust m.value m.flags = decide (x % 10 < y % 10 + c.toNat) := by
    rw [Bool.eq_iff_iff, lowAdjust_iff, decide_eq_true_iff, haf]
    exact packedDifference_low hc hm
  have hhigh : highAdjust m.value m.flags = decide (x < y + c.toNat) := by
    rw [Bool.eq_iff_iff, highAdjust_iff, decide_eq_true_iff, hcf]
    exact packedDifference_high hx hc m.value.isLt hm
  obtain ⟨hr, hflags⟩ := dasCompute_meaning u m.value m.flags
  rw [hlow, hhigh] at hr
  refine ⟨eq_packedByte (Nat.mod_lt _ (by decide))
    (hr.trans (packedDifference_corrected hx hy hc m.value.isLt hm)), ?_⟩
  rw [hflags, hhigh, hlow, Bool.eq_iff_iff]
  simp only [Bool.or_eq_true, Bool.and_eq_true, decide_eq_true_iff, hborrow]
  refine ⟨?_, .inl⟩
  rintro (h | ⟨hlowBorrow, h | h⟩)
  · exact h
  · exact h
  · by_contra hle
    have := packedDifference_six_le hm (by omega) hlowBorrow hc
    omega

/-! ## Decimal digits -/

/-- AH changed by a decimal carry or borrow, and the digit in AL, as AX. -/
theorem toNat_digits (h : Byte) {n : Nat} (hn : n < 10) : (h ++ BitVec.ofNat 8 n).toNat = h.toNat * 2 ^ 8 + n := by
  rw [append_toNat, BitVec.toNat_ofNat, Nat.mod_eq_of_lt (by omega)]

theorem digit_toNat {n : Nat} (hn : n < 10) : (BitVec.ofNat 8 n).toNat = n :=
  (BitVec.toNat_ofNat _ _).trans (Nat.mod_eq_of_lt (by omega))

/-- AAA after ADD or ADC (R402). -/
theorem aaa_after_add {x y : Nat} (hx : x < 10) (hy : y < 10) (h : Byte) (c : Bool) (u : Nat → Bool) (f : EFlags) :
    let p := addFlags (BitVec.ofNat 8 x) (BitVec.ofNat 8 y) c f
    let up := decide (10 ≤ x + y + c.toNat)
    let r := aaaCompute u (h ++ p.value) p.flags
    r.value = (if up then h + 1 else h) ++ BitVec.ofNat 8 ((x + y + c.toNat) % 10) ∧ r.flags.cf = up ∧ r.flags.af = up := by
  intro p up r
  have hc := c.toNat_le
  obtain ⟨hvalue, -, haf, -⟩ := addFlags_meaning (by decide) (BitVec.ofNat 8 x) (BitVec.ofNat 8 y) c f
  rw [digit_toNat hx, digit_toNat hy] at hvalue haf
  have hax : (h ++ p.value).toNat = h.toNat * 2 ^ 8 + (x + y + c.toNat) := by
    rw [append_toNat, hvalue, Nat.mod_eq_of_lt (by omega)]
  have hadjust : digitAdjust (h ++ p.value) p.flags = up := by
    rw [Bool.eq_iff_iff, digitAdjust_iff, decide_eq_true_iff, hax, haf]
    omega
  obtain ⟨hr, hflags⟩ := aaaCompute_meaning u (h ++ p.value) p.flags
  rw [hadjust, hax] at hr
  rw [hadjust] at hflags
  refine ⟨BitVec.eq_of_toNat_eq (hr.trans ?_), by rw [hflags]; rfl, by rw [hflags]; rfl⟩
  rw [toNat_digits _ (Nat.mod_lt _ (by decide))]
  have hh := h.isLt
  by_cases hup : 10 ≤ x + y + c.toNat
  · have h1 : (h + 1).toNat = (h.toNat + 1) % 256 := BitVec.toNat_add h 1
    rw [show up = true from decide_eq_true hup, if_pos rfl, h1, digitCorrection, if_pos rfl]
    omega
  · rw [show up = false from decide_eq_false hup, if_neg Bool.false_ne_true, digitCorrection, if_neg Bool.false_ne_true]
    omega

/-- AAS after SUB or SBB (R403). -/
theorem aas_after_sub {x y : Nat} (hx : x < 10) (hy : y < 10) (h : Byte) (c : Bool) (u : Nat → Bool) (f : EFlags) :
    let m := subFlags (BitVec.ofNat 8 x) (BitVec.ofNat 8 y) c f
    let down := decide (x < y + c.toNat)
    let r := aasCompute u (h ++ m.value) m.flags
    r.value = (if down then h - 1 else h) ++ BitVec.ofNat 8 ((x + 10 - y - c.toNat) % 10) ∧
    r.flags.cf = down ∧ r.flags.af = down := by
  intro m down r
  have hc := c.toNat_le
  obtain ⟨-, -, haf, -⟩ := subFlags_meaning (by decide) (BitVec.ofNat 8 x) (BitVec.ofNat 8 y) c f
  have hdiff := toNat_difference_cases (BitVec.ofNat 8 x) (BitVec.ofNat 8 y) c
  rw [digit_toNat hx, digit_toNat hy] at haf hdiff
  change m.value.toNat + y + c.toNat = x ∨ m.value.toNat + y + c.toNat = x + 2 ^ 8 at hdiff
  have hm := m.value.isLt
  have hadjust : digitAdjust (h ++ m.value) m.flags = down := by
    rw [Bool.eq_iff_iff, digitAdjust_iff, decide_eq_true_iff, append_toNat, haf]
    omega
  obtain ⟨hr, hflags⟩ := aasCompute_meaning u (h ++ m.value) m.flags
  rw [hadjust, append_toNat] at hr
  rw [hadjust] at hflags
  refine ⟨BitVec.eq_of_toNat_eq (hr.trans ?_), by rw [hflags]; rfl, by rw [hflags]; rfl⟩
  rw [toNat_digits _ (Nat.mod_lt _ (by decide))]
  have hh := h.isLt
  by_cases hdown : x < y + c.toNat
  · have h1 : (h - 1).toNat = (256 - 1 + h.toNat) % 256 := BitVec.toNat_sub h 1
    rw [show down = true from decide_eq_true hdown, if_pos rfl, h1, digitCorrection, if_pos rfl]
    omega
  · rw [show down = false from decide_eq_false hdown, if_neg Bool.false_ne_true, digitCorrection,
      if_neg Bool.false_ne_true]
    omega

end Sys2Proof.Machine

open Sys2Proof Sys2Proof.Machine Sys2Proof.Claims

/-- Settles O25: each adjust as its correction in numbers, and the decimal results from it by the carries of the digits. -/
theorem decimalMeaning : Obligations.DecimalMeaning := by
  unfold Obligations.DecimalMeaning
  refine ⟨fun al ax u f => ?numbers, fun x y c u f => ?packed, fun x y h c u f => ?digits, fun al base ax u f => ?bases⟩
  case numbers =>
    obtain ⟨hdaa, hdaaFlags⟩ := daaCompute_meaning u al f
    obtain ⟨hdas, hdasFlags⟩ := dasCompute_meaning u al f
    obtain ⟨haaa, haaaFlags⟩ := aaaCompute_meaning u ax f
    obtain ⟨haas, haasFlags⟩ := aasCompute_meaning u ax f
    rw [setSZP_byte, hdaa] at hdaaFlags
    rw [setSZP_byte, hdas] at hdasFlags
    exact ⟨hdaa, hdaaFlags, hdas, hdasFlags, haaa, haaaFlags, haas, haasFlags⟩
  case packed =>
    obtain ⟨hsum, hcarry⟩ := daa_after_add x.isLt y.isLt c u f
    obtain ⟨hdiff, hborrow⟩ := das_after_sub x.isLt y.isLt c u f
    exact ⟨hsum, hcarry, hdiff, hborrow⟩
  case digits =>
    obtain ⟨hsum, hcf, haf⟩ := aaa_after_add x.isLt y.isLt h c u f
    obtain ⟨hdiff, hborrow⟩ := aas_after_sub x.isLt y.isLt h c u f
    exact ⟨hsum, hcf, haf, hdiff, hborrow⟩
  case bases =>
    obtain ⟨hm, hmFlags⟩ := aamCompute_meaning u al base f
    obtain ⟨hd, hdFlags⟩ := aadCompute_meaning u ax base f
    refine ⟨fun _ => hm, hd, ?_⟩
    rintro r (rfl | rfl)
    · exact hmFlags.trans (aamFlags_eq u _ f)
    · exact hdFlags.trans (aamFlags_eq u _ f)
end

section
/-!
PROOF. The string instructions: the check of their ports, one element of each with paging off, and how REP
counts it. It settles O34 and O35.
-/
namespace Sys2Proof.Machine

open Sys2Proof.Claims

/-! ## Ports and their permission -/

/-- The bit of the I/O permission bitmap for `port` is 0 and inside the segment (R585). -/
def portOpen (s : State) (base port : Nat) : Bool :=
  decide (base + port / 8 + 1 ≤ s.tr.limit.toNat) &&
    !(s.physByte (s.tr.base + BitVec.ofNat 32 (base + port / 8))).getLsbD (port % 8)

/-- Where the bitmap begins in the task state segment (R585). -/
def bitmapBase (s : State) : Nat :=
  (s.physByte (s.tr.base + 0x67)).toNat * 256 + (s.physByte (s.tr.base + 0x66)).toNat

theorem bitmapPermits_eq (s : State) (port n : Nat) :
    bitmapPermits s port n = (s.cfg.hasIoBitmap && s.tr.is386 && s.flat &&
      (List.range n).all fun k => portOpen s (bitmapBase s) (port + k)) := rfl

/-- A bitmap that permits ports is one the part has, and it was read with paging off. -/
theorem bitmapPermits_uses {s : State} {port n : Nat} (h : bitmapPermits s port n = true) :
    s.cfg.hasIoBitmap = true ∧ s.flat = true := by
  simp only [bitmapPermits_eq, Bool.and_eq_true] at h
  obtain ⟨⟨⟨hb, -⟩, hf⟩, -⟩ := h
  exact ⟨hb, hf⟩

/-- A word as its two bytes. -/
theorem valueOf_word (lo hi : Byte) : valueOf .w16 [lo, hi] = hi ++ lo := by
  apply BitVec.eq_of_toNat_eq
  have hlo := lo.isLt
  have hhi := hi.isLt
  simp only [valueOf, Width.bits, natOfBytes, BitVec.toNat_ofNat, append_toNat]
  omega

theorem sysRead_word_flat {s : State} (h : s.flat = true) (la : Word32) :
    sysRead .w16 la s = .ok (s.physByte (la + 1) ++ s.physByte la) s := by
  have ha : byteAddrs la Width.w16.bytes = [la, la + 1] := by simp [byteAddrs, Width.bytes, List.range_succ]
  rw [sysRead_flat h, ha]
  exact congrArg (EStateM.Result.ok · s) (valueOf_word _ _)

/-- The test of one port: the limit, then its bit in the word read (R585). -/
theorem bitmapBits_succ_flat {s : State} (h : s.flat = true) (base port n : Nat) :
    bitmapBits base port (n + 1) s =
      if portOpen s base port then bitmapBits base (port + 1) n s else .error (checkStop 13 0) s := by
  have hbit (hi lo : Byte) : (hi ++ lo).getLsbD (port % 8) = lo.getLsbD (port % 8) := by
    rw [BitVec.getLsbD_append, if_pos (by omega)]
  rw [bitmapBits, M_get_bind, portOpen]
  cases decide (base + port / 8 + 1 ≤ s.tr.limit.toNat)
  · rfl
  · refine (M_bind_ok (require0_true_run 13 s)).trans ((M_bind_ok (sysRead_word_flat h _)).trans ?_)
    rw [hbit]
    cases (s.physByte (s.tr.base + BitVec.ofNat 32 (base + port / 8))).getLsbD (port % 8) <;> rfl

/-- The bits of `n` ports are tested one after the other. -/
theorem bitmapBits_flat {s : State} (h : s.flat = true) (base port n : Nat) :
    bitmapBits base port n s =
      if (List.range n).all fun k => portOpen s base (port + k) then .ok () s else .error (checkStop 13 0) s := by
  induction n generalizing port with
  | zero => rfl
  | succ n ih =>
    rw [bitmapBits_succ_flat h, ih, List.range_succ_eq_map, List.all_cons, List.all_map]
    simp only [Function.comp_def, Nat.succ_eq_add_one, Nat.add_zero, Nat.add_assoc, Nat.add_comm 1]
    cases portOpen s base port <;> rfl

theorem bitmapCheck_flat {s : State} (h : s.flat = true) (hb : s.cfg.hasIoBitmap = true) (port : Word16) (n : Nat) :
    bitmapCheck port n s =
      if bitmapPermits s port.toNat n then .ok () s else .error (checkStop 13 0) s := by
  have hbase : (s.physByte (s.tr.base + 0x66 + 1) ++ s.physByte (s.tr.base + 0x66)).toNat = bitmapBase s := by
    rw [append_toNat, BitVec.add_assoc]
    rfl
  rw [bitmapPermits_eq, hb, h, bitmapCheck, M_get_bind, Bool.true_and, Bool.and_true]
  cases s.tr.is386
  · rfl
  · refine (M_bind_ok (require0_true_run 13 s)).trans ((M_bind_ok (sysRead_word_flat h _)).trans ?_)
    rw [hbase, bitmapBits_flat h, Bool.true_and]

/-- `IOCheck` lets through what the privilege or the bitmap permits (R584, R585). -/
theorem ioCheck_permitted {s : State} {port : Word16} {n : Nat} (h : portsPermitted s port n = true) :
    ioCheck port n s = .ok () s := by
  rw [ioCheck, M_get_bind]
  cases ha : s.ioAllowed
  · have hp : bitmapPermits s port.toNat n = true := by simpa only [portsPermitted, ha, Bool.false_or] using h
    obtain ⟨hb, hf⟩ := bitmapPermits_uses hp
    rw [hb]
    exact (bitmapCheck_flat hf hb port n).trans (if_pos hp)
  · rfl

/-- What they deny is exception 13 (0) (R584, R585). -/
theorem ioCheck_denied {s : State} {port : Word16} {n : Nat} (hf : s.flat = true)
    (h : portsPermitted s port n = false) : ioCheck port n s = .error (checkStop 13 0) s := by
  obtain ⟨ha, hp⟩ := Bool.or_eq_false_iff.1 h
  rw [ioCheck, M_get_bind, ha]
  cases hb : s.cfg.hasIoBitmap
  · rfl
  · exact (bitmapCheck_flat hf hb port n).trans (if_neg (by rw [hp]; exact Bool.false_ne_true))

/-- Permitted ports pass the check of the privilege alone, which comes first (R643, R686). -/
theorem ioPrivileged_of_portsPermitted {s : State} {port : Word16} {n : Nat} (h : portsPermitted s port n = true) :
    (s.ioAllowed || s.cfg.hasIoBitmap) = true := by
  obtain ha | hp := Bool.or_eq_true_iff.1 h
  · rw [ha, Bool.true_or]
  · rw [(bitmapPermits_uses hp).1, Bool.or_true]

/-! ## The steps of a string instruction -/

/-- The check of the privilege that comes before a string operation (R584). -/
def stringPermit (op : StringOp) : M Unit := if op.usesPort then ioPrivilege else pure ()

/-- The privilege of a string operation suffices for it to begin (R584). -/
def stringAllowed (op : StringOp) (s : State) : Bool := !op.usesPort || s.ioAllowed || s.cfg.hasIoBitmap

/-- The steps of one element. -/
def stringElement : StringOp → Bool → M Unit
  | .movs => movsElement
  | .cmps => cmpsElement
  | .scas => scasElement
  | .lods => lodsElement
  | .stos => stosElement
  | .ins => insElement
  | .outs => outsElement

theorem exec_string (op : StringOp) (byte : Bool) (s : State) :
    exec (op.instr byte) s = runSteps (stringSteps op.compares (stringPermit op) (stringElement op byte)) s := by
  cases op <;> cases byte <;> rfl

theorem stringPermit_run (op : StringOp) (s : State) :
    stringPermit op s = if stringAllowed op s then .ok () s else .error (checkStop 13 0) s := by
  rw [stringPermit, stringAllowed]
  cases op.usesPort
  · rfl
  · exact require0_run _ 13 s

/-- An element that can be done is allowed. -/
theorem stringAllowed_of_elementReady {op : StringOp} {w : Width} {s : State} (h : elementReady op w s = true) :
    stringAllowed op s = true := by
  cases op with
  | ins | outs =>
    obtain ⟨hport, -⟩ := Bool.and_eq_true_iff.1 h
    exact ioPrivileged_of_portsPermitted hport
  | movs | cmps | scas | lods | stos => rfl

theorem elementReady_begun (op : StringOp) (w : Width) (s : State) :
    elementReady op w s.begun = elementReady op w s := by
  have hread (l : Loc) : s.begun.readable w l = s.readable w l := readable_begun s w l
  have hstore (l : Loc) : s.begun.storable w l = s.storable w l := storable_begun s w l
  have hports (p : Word16) : portsPermitted s.begun p w.bytes = portsPermitted s p w.bytes := rfl
  have hsource : stringSource s.begun = stringSource s := rfl
  have hdest : stringDest s.begun = stringDest s := rfl
  have hdx : s.begun.reg .w16 edx = s.reg .w16 edx := rfl
  cases op <;> simp only [elementReady, hread, hstore, hports, hsource, hdest, hdx]

/-! ## One element -/

theorem readSource_flat {s : State} {w : Width} (h : s.readable w (stringSource s) = true) :
    readSource w s = .ok (s.valueAt w (stringSource s)) (s.afterRead w (stringSource s)) :=
  readLoc_flat (l := stringSource s) h

theorem readDest_flat {s : State} {w : Width} (h : s.readable w (stringDest s) = true) :
    readDest w s = .ok (s.valueAt w (stringDest s)) (s.afterRead w (stringDest s)) :=
  readLoc_flat (l := stringDest s) h

theorem writeDest_flat {s : State} {w : Width} (v : BitVec w.bits) (h : s.storable w (stringDest s) = true) :
    writeDest w v s = .ok () (s.afterWrite w (stringDest s) v) := by
  rw [writeDest, M_get_bind]
  exact writeLoc_flat (l := stringDest s) v h

theorem ioRead_run (w : Width) (port : Word16) (s : State) :
    ioRead w port s = .ok (valueOf w (s.portBytes port w.bytes)) (afterIn s port w.bytes) := rfl

/-- The write of an operand whose addresses were checked before. -/
theorem writeChecked_operand {s : State} {r : SReg} {w : Width} (hm : s.masters = []) (off : Word32)
    (v : BitVec w.bits) :
    writeChecked 4 (linear (s.seg r) off) (byteAddrs (linear (s.seg r) off) w.bytes) (bytesOf w v) s =
      .ok () (s.afterStore r off (bytesOf w v)) := by
  rw [writeChecked_flat hm, State.afterStore, bytesOf_length]

/-- Where its operands are accessible and its ports permitted, one element is done (R421 to R431). -/
theorem stringElement_flat {op : StringOp} {s : State} {byte : Bool}
    (h : elementReady op (elementWidth s byte) s = true) :
    stringElement op byte s = .ok () (elementAfter op (elementWidth s byte) s) := by
  cases op with
  | movs =>
    obtain ⟨hsrc, hdst⟩ := Bool.and_eq_true_iff.1 h
    have hdst' := (storable_afterRead s _ (elementWidth s byte) _ (stringSource s)).trans hdst
    exact (M_bind_ok (readSource_flat hsrc)).trans (M_bind_ok (writeDest_flat _ hdst'))
  | cmps =>
    obtain ⟨hsrc, hdst⟩ := Bool.and_eq_true_iff.1 h
    have hread := readDest_flat (s := s.afterRead (elementWidth s byte) (stringSource s)) hdst
    exact (M_bind_ok (readSource_flat hsrc)).trans (M_bind_ok hread)
  | scas => exact M_bind_ok (readDest_flat h)
  | lods => exact M_bind_ok (readSource_flat h)
  | stos => exact M_bind_ok (writeDest_flat _ h)
  | ins =>
    obtain ⟨hport, hdst⟩ := Bool.and_eq_true_iff.1 h
    have haddrs := accessAddrs_flat (s := s) (r := .es) hdst
    have halone : (afterIn s (s.reg .w16 edx) (elementWidth s byte).bytes).masters = [] :=
      canAccess_masters (s := s) (r := .es) hdst
    refine (M_bind_ok (ioCheck_permitted hport)).trans ((M_bind_ok haddrs).trans ?_)
    exact (M_bind_ok (ioRead_run _ _ s)).trans (M_bind_ok (writeChecked_operand (r := .es) halone _ _))
  | outs =>
    obtain ⟨hport, hsrc⟩ := Bool.and_eq_true_iff.1 h
    exact (M_bind_ok (ioCheck_permitted hport)).trans (M_bind_ok (readSource_flat hsrc))

/-- The check of the ports comes before anything else of INS and OUTS (R430, R431). -/
theorem stringElement_denied {op : StringOp} {s : State} {byte : Bool} (hop : op.usesPort = true)
    (hf : s.flat = true) (h : portsPermitted s (s.reg .w16 edx) (elementWidth s byte).bytes = false) :
    stringElement op byte s = .error (checkStop 13 0) s := by
  cases op with
  | ins | outs => exact (M_get_bind _ _).trans (M_bind_error (ioCheck_denied hf h))
  | movs | cmps | scas | lods | stos => cases hop

/-! ## The prefixes -/

/-- The prefixes of a string instruction have a meaning: no LOCK, and F2 before a comparison only (R101, R440, U7). -/
def stringPrefixesOk (compares : Bool) (s : State) : Prop :=
  s.pfx.lock = false ∧ (compares = true ∨ s.pfx.rep ≠ some .repne)

section Prefixed

variable {compares : Bool} {permit element : M Unit} {s t : State} (h : stringPrefixesOk compares s)
include h

/-- The checks of the prefixes let the other steps begin. -/
theorem stringPrefixes_run (steps : M Retire) :
    (do
      require (!s.pfx.lock) 6
      if !compares && s.pfx.rep == some .repne then refuse .repeatPrefix
      steps : M Retire) s = steps s := by
  obtain ⟨hlock, hrep⟩ := h
  have hmeaning : (!compares && s.pfx.rep == some .repne) = false := by
    rcases hrep with hc | hr
    · rw [hc]; rfl
    · rw [beq_eq_false_iff_ne.2 hr, Bool.and_false]
  rw [hlock, hmeaning]
  rfl

theorem stringSteps_denied {e : Stop} (hp : permit s = .error e s) :
    stringSteps compares permit element s = .error e s := by
  rw [stringSteps, M_get_bind]
  exact (stringPrefixes_run h _).trans (M_bind_error hp)

variable (hp : permit s = .ok () s)
include hp

/-- Without REP the element is all there is (R440). -/
theorem stringSteps_once (hr : s.pfx.rep = none) :
    stringSteps compares permit element s = (do element; return .next : M Retire) s := by
  rw [stringSteps, M_get_bind]
  refine (stringPrefixes_run h _).trans ((M_bind_ok hp).trans ?_)
  rw [hr]

/-- With a count of 0 nothing is done (R440). -/
theorem stringSteps_count_zero {rep : Rep} (hr : s.pfx.rep = some rep) (hc : s.repCount = 0) :
    stringSteps compares permit element s = .ok .next s := by
  rw [stringSteps, M_get_bind]
  refine (stringPrefixes_run h _).trans ((M_bind_ok hp).trans ?_)
  rw [hr]
  simp only [hc, if_true, M_pure]

/-- One element under REP, and the count (R440). -/
theorem stringSteps_counted {rep : Rep} (hr : s.pfx.rep = some rep) (hc : s.repCount ≠ 0)
    (he : element s = .ok () t) :
    let u := t.setAddrReg t.asz ecx (t.repCount - 1)
    stringSteps compares permit element s =
      .ok (if u.repCount = 0 || (compares && repEnds rep u.flags.zf) then .next else .again) u := by
  intro u
  have hend : (if u.repCount = 0 || (compares && repEnds rep u.flags.zf) then return .next
        else return .again : M Retire) u =
      .ok (if u.repCount = 0 || (compares && repEnds rep u.flags.zf) then .next else .again) u := by split <;> rfl
  rw [stringSteps, M_get_bind]
  refine (stringPrefixes_run h _).trans ((M_bind_ok hp).trans ?_)
  rw [hr]
  simp only [hc, if_false]
  exact (M_bind_ok he).trans hend

end Prefixed

/-! ## The instructions -/

/-- The end of a repetition, by the count and by ZF (R440). -/
theorem repeatOver_eq (op : StringOp) (rep : Rep) (s : State) :
    repeatOver op rep s = (decide (s.repCount = 0) || (op.compares && repEnds rep s.flags.zf)) := by
  cases rep <;> rfl

section Instruction

variable {op : StringOp} {byte : Bool} {s t : State} {r : Retire}

/-- A string instruction ends as its steps do. -/
theorem exec_string_next
    (h : stringSteps op.compares (stringPermit op) (stringElement op byte) s.begun = .ok r t) :
    exec (op.instr byte) s = .next (retire s t r) := (exec_string op byte s).trans (runSteps_next h)

theorem exec_string_denied
    (h : stringSteps op.compares (stringPermit op) (stringElement op byte) s.begun = .error (checkStop 13 0) s.begun) :
    exec (op.instr byte) s = deliver s (s.faultEvent 13 (some 0)) :=
  (exec_string op byte s).trans (runSteps_refused (by decide) h)

theorem stringPermit_allowed (h : stringAllowed op s = true) : stringPermit op s.begun = .ok () s.begun :=
  (stringPermit_run op s.begun).trans (if_pos h)

theorem stringElement_begun (h : elementReady op (elementWidth s byte) s = true) :
    stringElement op byte s.begun = .ok () (elementAfter op (elementWidth s byte) s.begun) :=
  stringElement_flat (s := s.begun) ((elementReady_begun op _ s).trans h)

end Instruction

end Sys2Proof.Machine

open Sys2Proof Sys2Proof.Machine Sys2Proof.Claims

/-- Settles O34: one element done, or its ports denied by the privilege or by the bitmap. -/
theorem stringElementResult : Obligations.StringElementResult := by
  unfold Obligations.StringElementResult
  intro op byte s ⟨hrep, hlock⟩
  have hpfx : stringPrefixesOk op.compares s.begun := by
    refine ⟨Bool.eq_false_iff.2 fun h => Bool.false_ne_true (hlock h), .inr ?_⟩
    rw [show s.begun.pfx.rep = none from hrep]
    decide
  refine ⟨fun hready => ?done, fun hop hf hdenied => ?denied⟩
  case done =>
    have hpermit := stringPermit_allowed (stringAllowed_of_elementReady hready)
    exact exec_string_next ((stringSteps_once hpfx hpermit hrep).trans (M_bind_ok (stringElement_begun hready)))
  case denied =>
    refine exec_string_denied ?_
    have helement := stringElement_denied (s := s.begun) hop hf hdenied
    cases hallowed : stringAllowed op s
    · exact stringSteps_denied hpfx ((stringPermit_run op s.begun).trans (if_neg (ne_true_of_eq_false hallowed)))
    · exact (stringSteps_once hpfx (stringPermit_allowed hallowed) hrep).trans (M_bind_error helement)

/-- Settles O35: the count decides whether an element is done, and the element and the count whether it goes on. -/
theorem repeatedStringResult : Obligations.RepeatedStringResult := by
  unfold Obligations.RepeatedStringResult
  intro op byte rep s hlock hrep hmeaning
  have hpfx : stringPrefixesOk op.compares s.begun := by
    refine ⟨hlock, hmeaning.imp_right fun h => ?_⟩
    rw [show s.begun.pfx.rep = some rep from hrep, h]
    decide
  refine ⟨fun hallowed hc => ?zero, fun hc hready => ?counted, fun hdenied => ?denied⟩
  case zero => exact exec_string_next (stringSteps_count_zero hpfx (stringPermit_allowed hallowed) hrep hc)
  case counted =>
    have hpermit := stringPermit_allowed (stringAllowed_of_elementReady hready)
    intro t
    rw [repeatOver_eq]
    exact exec_string_next (stringSteps_counted hpfx hpermit hrep hc (stringElement_begun hready))
  case denied =>
    have hpermit := (stringPermit_run op s.begun).trans (if_neg (ne_true_of_eq_false hdenied))
    exact exec_string_denied (stringSteps_denied hpfx hpermit)
end

section
/-!
PROOF. Bit tests, bit scans and bit strings with paging off: the bit a test changes, the lowest and the highest 1, the
field that a bit-string instruction moves, and the instructions. It settles O26, O27 and O28.
-/
namespace Sys2Proof.Machine

open Sys2Proof.Claims

/-! ## Bit tests -/

/-- The bit that an instruction leaves in place of a bit `b` (R451 to R454). -/
def newBit (op : BitOp) (b : Bool) : Bool :=
  match op with
  | .test => b
  | .set => true
  | .reset => false
  | .complement => !b

theorem getLsbD_mask {n j : Nat} (hj : j < n) (k : Nat) : (1#n <<< k).getLsbD j = decide (j = k) := by
  rw [← BitVec.twoPow_eq, BitVec.getLsbD_twoPow]
  by_cases h : j = k
  · rw [← h, decide_eq_true hj, Bool.true_and]
  · rw [decide_eq_false h, decide_eq_false (Ne.symm h), Bool.and_false]

/-- The mask keeps the operation to the one bit. -/
theorem getLsbD_bitCompute {n j : Nat} (hj : j < n) (op : BitOp) (u : Nat → Bool) (v : BitVec n) (k : Nat)
    (f : EFlags) :
    (bitCompute op u v k f).value.getLsbD j = if j = k then newBit op (v.getLsbD k) else v.getLsbD j := by
  have hmask := getLsbD_mask hj k
  by_cases h : j = k
  · subst h
    rw [if_pos rfl]
    cases op <;> simp only [bitCompute, newBit, BitVec.getLsbD_or, BitVec.getLsbD_and, BitVec.getLsbD_not,
      BitVec.getLsbD_xor, hmask, hj, decide_true, Bool.or_true, Bool.not_true, Bool.and_false, Bool.xor_true]
  · rw [if_neg h]
    cases op <;> simp only [bitCompute, BitVec.getLsbD_or, BitVec.getLsbD_and, BitVec.getLsbD_not, BitVec.getLsbD_xor,
      hmask, h, hj, decide_true, decide_false, Bool.or_false, Bool.not_false, Bool.and_true, Bool.xor_false]

/-- A signed bit offset and the same bits as a number without sign name the same bit of the word (R450). -/
theorem toInt_emod_bits (w : Width) (v : BitVec w.bits) : (v.toInt % w.bits).toNat = v.toNat % w.bits := by
  have hsign := BitVec.toInt_eq_toNat_cond v
  cases w <;> simp only [Width.bits] at * <;> omega

theorem bitForm_run (op : BitOp) (f : BitForm) (s : State) :
    bitForm op f s = bitAt op s.osz.width (bitTarget s f).1 (bitTarget s f).2 s := by
  rw [bitForm, M_get_bind]
  cases f with
  | evIb rm imm => rfl
  | evGv rm r =>
    simp only [bitTarget, State.bitLoc]
    cases s.locate rm <;> simp only [toInt_emod_bits]

theorem setPhysBytes_withFlags (s : State) (g : EFlags) (as : List Word32) (bs : List Byte) :
    (s.withFlags g).setPhysBytes as bs = (s.setPhysBytes as bs).withFlags g := by
  induction as generalizing s bs with
  | nil => cases bs <;> rfl
  | cons a as ih =>
    cases bs with
    | nil => rfl
    | cons b bs => exact ih (s.setPhysByte a b) bs

/-- A write of an operand and a change of the flags are independent. -/
theorem afterWrite_withFlags (s : State) (g : EFlags) (w : Width) (l : Loc) (v : BitVec w.bits) :
    (s.withFlags g).afterWrite w l v = (s.afterWrite w l v).withFlags g := by
  cases l with
  | reg r => cases w <;> rfl
  | mem r off =>
    simp only [State.afterWrite, State.afterStore, seg_withFlags, setPhysBytes_withFlags]
    rfl

theorem readable_masters {s : State} {w : Width} {l : Loc} (h : s.readable w l = true) (r : SReg) (off : Word32)
    (hl : l = .mem r off) : s.masters = [] := by
  subst hl
  exact canAccess_masters h

/-- BT reads its word. -/
theorem bitAt_test_flat {s : State} {w : Width} {l : Loc} (k : Nat) (h : s.readable w l = true) :
    bitAt .test w l k s =
      .ok () ((s.afterRead w l).withFlags (bitCompute .test s.freeBit (s.valueAt w l) k s.flags).flags) := by
  have hmasters := readable_masters h
  refine lockedIf_alone (fun r off hl => ⟨hmasters r off hl, (afterRead_masters s w l).trans (hmasters r off hl)⟩) ?_
  refine (M_bind_ok (readLoc_flat h)).trans ?_
  rw [M_get_bind, afterRead_freeBit, afterRead_flags]
  rfl

/-- BTS, BTR and BTC read their word and write it. -/
theorem bitAt_update_flat {op : BitOp} {s : State} {w : Width} {l : Loc} (k : Nat) (hop : op ≠ .test)
    (h : s.updatable w l = true) :
    let r := bitCompute op s.freeBit (s.valueAt w l) k s.flags
    bitAt op w l k s = .ok () (((s.afterRead w l).withFlags r.flags).afterWrite w l r.value) := by
  intro r
  obtain ⟨hread, hwrite⟩ := updatable_readable h
  have hmasters := readable_masters hread
  have hchanges : (op != .test) = true := bne_iff_ne.2 hop
  rw [bitAt, if_pos hchanges, afterWrite_withFlags]
  refine (M_bind_ok (checkLoc_flat hwrite)).trans (lockedIf_alone (fun q off hl => ⟨hmasters q off hl, ?_⟩) ?_)
  · show ((s.afterRead w l).afterWrite w l r.value).masters = []
    rw [afterWrite_masters, afterRead_masters, hmasters q off hl]
  · refine (M_bind_ok (readLoc_flat hread)).trans ?_
    rw [M_get_bind, afterRead_freeBit, afterRead_flags, if_pos hchanges]
    exact M_bind_ok (writeLoc_flat _ ((storable_afterRead s w w l l).trans hwrite))

theorem bitForm_flat {op : BitOp} {f : BitForm} {s : State} (h : bitReady op f s = true) :
    bitForm op f s = .ok () (bitAfter op f s) := by
  rw [bitForm_run, bitAfter]
  by_cases hop : op = .test
  · subst hop
    exact bitAt_test_flat _ h
  · rw [bitReady, if_neg hop] at h
    rw [if_neg hop]
    exact bitAt_update_flat _ hop h

theorem bitReady_begun (op : BitOp) (f : BitForm) (s : State) : bitReady op f s.begun = bitReady op f s := by
  have htarget : bitTarget s.begun f = bitTarget s f := by cases f <;> rfl
  rw [bitReady, bitReady, htarget, readable_begun, updatable_begun]
  rfl

theorem exec_bitInstr (op : BitOp) (f : BitForm) (s : State) :
    exec (bitInstr op f) s = withLock (op != .test && bitToMem f) (bitForm op f) s := by cases op <;> rfl

/-! ## Bit scans -/

/-- The search finds a 1 that has only 0 below it. -/
theorem lowestBit_eq {n k : Nat} {v : BitVec n} (hk : v.getLsbD k = true) (m i : Nat) (hik : i ≤ k) (hkm : k < i + m)
    (hbelow : ∀ j, i ≤ j → j < k → v.getLsbD j = false) : lowestBit v m i = k := by
  induction m generalizing i with
  | zero => omega
  | succ m ih =>
    rw [lowestBit]
    by_cases h : i = k
    · rw [h, if_pos hk]
    · rw [if_neg (ne_true_of_eq_false (hbelow i (Nat.le_refl i) (by omega)))]
      exact ih (i + 1) (by omega) (by omega) fun j hj => hbelow j (by omega)

/-- The search finds a 1 that has only 0 above it. -/
theorem highestBit_eq {n k : Nat} {v : BitVec n} (hk : v.getLsbD k = true) (m : Nat) (hkm : k < m)
    (habove : ∀ j, k < j → j < m → v.getLsbD j = false) : highestBit v m = k := by
  induction m with
  | zero => omega
  | succ m ih =>
    rw [highestBit]
    by_cases h : m = k
    · rw [h, if_pos hk]
    · rw [if_neg (ne_true_of_eq_false (habove m (by omega) (by omega)))]
      exact ih (by omega) fun j hj hjm => habove j hj (by omega)

/-- What BSF or BSR looks for: the lowest 1 or the highest. -/
def scanFind (up : Bool) (n : Nat) (v : BitVec n) : Nat := if up then lowestBit v n 0 else highestBit v n

theorem scanFind_eq {up : Bool} {n : Nat} {v : BitVec n} {k : Fin n} (hk : v.getLsbD k = true)
    (hfirst : ∀ j : Fin n, (if up then j < k else k < j) → v.getLsbD j = false) : scanFind up n v = k := by
  cases up with
  | true => exact lowestBit_eq hk n 0 (Nat.zero_le _) (by omega) fun j _ hj => hfirst ⟨j, by omega⟩ hj
  | false => exact highestBit_eq hk n k.isLt fun j hj hjn => hfirst ⟨j, hjn⟩ hj

/-- The state a scan leaves, with its destination and ZF. -/
def scanned (s : State) (l : Loc) (r : Fin 8) (dest : BitVec s.osz.width.bits) (z : Bool) : State :=
  ((s.afterRead s.osz.width l).setReg s.osz.width r dest).withFlags { freeStatus s.freeBit s.flags with zf := z }

theorem scanForm_flat {find : (n : Nat) → BitVec n → Nat} {r : Fin 8} {rm : RM} {s : State}
    (h : s.readable s.osz.width (s.locate rm) = true) :
    let v := s.valueAt s.osz.width (s.locate rm)
    scanForm find r rm s = .ok () (scanned s (s.locate rm) r
      (if v = 0 then (s.freeWord scanSlot).truncate _ else BitVec.ofNat _ (find _ v)) (v == 0)) := by
  intro v
  rw [scanForm, M_get_bind, M_bind_ok (readRM_flat h), M_get_bind, afterRead_freeWord, afterRead_freeBit,
    afterRead_flags]
  rfl

theorem exec_scanInstr (up : Bool) (r : Fin 8) (rm : RM) (s : State) :
    exec (scanInstr up r rm) s = plain (scanForm (scanFind up) r rm) s := by cases up <;> rfl

/-! ## Bit strings -/

section Strings

variable {s : State} {rm : RM} (r : Fin 8)

/-- Where the field begins: eAX by the operand size (R460). -/
abbrev fieldStart (s : State) : Nat := (s.reg s.osz.width eax).toNat

/-- How many bits it has: CL. -/
abbrev fieldCount (s : State) : Nat := (s.reg .w8 ecx).toNat

theorem bitField_run (h : fieldCount s ≤ s.osz.width.bits) :
    bitField s.osz.width s = .ok (fieldStart s, fieldCount s) s := by
  rw [bitField, M_get_bind, if_neg (Nat.not_lt.2 h)]
  rfl

section Register

variable {x : Fin 8} (hl : s.locate rm = .reg x) (hc : fieldCount s ≤ s.osz.width.bits)
  (hfield : fieldStart s + fieldCount s ≤ s.osz.width.bits)
include hl hc hfield

theorem xbtsSteps_reg : xbtsSteps r rm s = .ok () ((s.setReg s.osz.width r (BitVec.ofNat s.osz.width.bits
    ((s.reg s.osz.width x).toNat / 2 ^ fieldStart s % 2 ^ fieldCount s))).withFlags
      (freeStatus s.freeBit s.flags)) := by
  refine (M_get_bind _ _).trans <| (M_bind_ok (bitField_run hc)).trans <| (M_get_bind _ _).trans ?_
  rw [hl]
  simp only [if_neg (Nat.not_lt.2 hfield)]
  rfl

theorem ibtsSteps_reg : ibtsSteps rm r s = .ok () ((s.setReg s.osz.width x (BitVec.ofNat s.osz.width.bits
    (insertBits (s.reg s.osz.width x).toNat (fieldStart s) (fieldCount s) (s.reg s.osz.width r).toNat))).withFlags
      (freeStatus s.freeBit s.flags)) := by
  refine (M_get_bind _ _).trans <| (M_bind_ok (bitField_run hc)).trans <| (M_get_bind _ _).trans ?_
  rw [hl]
  simp only [if_neg (Nat.not_lt.2 hfield)]
  rfl

end Register

section Memory

variable {seg : SReg} {off a : Word32} {n word : Nat} (hl : s.locate rm = .mem seg off) (h0 : 0 < fieldCount s)
  (hc : fieldCount s ≤ s.osz.width.bits) (hb : s.stringBytes off (fieldStart s) (fieldCount s) = (a, n))
  (hread : s.canAccess seg a n false = true) (hword : natOfBytes (s.operandBytes seg a n) = word)
include hl h0 hc hb hread hword

theorem xbtsSteps_mem : xbtsSteps r rm s = .ok () (((s.afterLoad seg a n).setReg s.osz.width r
    (BitVec.ofNat s.osz.width.bits (word / 2 ^ (fieldStart s % 8) % 2 ^ fieldCount s))).withFlags
      (freeStatus s.freeBit s.flags)) := by
  refine (M_get_bind _ _).trans <| (M_bind_ok (bitField_run hc)).trans <| (M_get_bind _ _).trans ?_
  rw [hl]
  subst hword
  simp only [hb, if_neg (Nat.ne_of_gt h0)]
  exact M_bind_ok (lreadBytes_flat hread)

theorem ibtsSteps_mem (hwrite : s.canAccess seg a n true = true) : ibtsSteps rm r s =
    .ok () (((s.afterLoad seg a n).afterStore seg a (bytesOfNat n
      (insertBits word (fieldStart s % 8) (fieldCount s) (s.reg s.osz.width r).toNat))).withFlags
        (freeStatus s.freeBit s.flags)) := by
  have hstore (v : Nat) : (s.afterLoad seg a n).canAccess seg a (bytesOfNat n v).length true = true := by
    rw [bytesOfNat_length, canAccess_congr rfl rfl fun q => seg_afterLoad s seg q a n]
    exact hwrite
  refine (M_get_bind _ _).trans <| (M_bind_ok (bitField_run hc)).trans <| (M_get_bind _ _).trans ?_
  rw [hl]
  subst hword
  simp only [hb, if_neg (Nat.ne_of_gt h0)]
  exact (M_bind_ok (checkAccess_flat hwrite)).trans <| (M_bind_ok (lreadBytes_flat hread)).trans <|
    M_bind_ok (lwriteBytes_flat (hstore _))

end Memory

end Strings

/-- Without the instructions in the part, the encoding is exception 6 before anything else (R460). -/
theorem bitString_absent {s : State} (h : s.cfg.hasIbtsXbts = false) (body : M Unit) :
    bitString body s = deliver s (s.faultEvent 6 none) := by
  refine runSteps_refused (by decide) ?_
  rw [M_get_bind, show s.begun.cfg.hasIbtsXbts = false from h]
  exact M_bind_error (require_false_run 6 _)

theorem bitString_next {s t : State} {body : M Unit} (hp : s.prefixesOk false) (h : s.cfg.hasIbtsXbts = true)
    (hb : body s.begun = .ok () t) : bitString body s = .next (retire s t .next) := by
  refine runSteps_next ?_
  rw [M_get_bind, show s.begun.cfg.hasIbtsXbts = true from h]
  exact (M_bind_ok (require_true_run 6 _)).trans <| (M_bind_ok (checkPrefixes_run hp)).trans (M_bind_ok hb)

theorem canAccess_begun (s : State) (r : SReg) (off : Word32) (n : Nat) (write : Bool) :
    s.begun.canAccess r off n write = s.canAccess r off n write := canAccess_congr rfl rfl (seg_begun s) r off n write

theorem operandBytes_begun (s : State) (r : SReg) (off : Word32) (n : Nat) :
    s.begun.operandBytes r off n = s.operandBytes r off n := by
  rw [State.operandBytes, seg_begun]
  rfl

end Sys2Proof.Machine

open Sys2Proof Sys2Proof.Machine Sys2Proof.Claims

/-- Settles O26: the mask keeps the change to one bit, and each form is a read of its word, or a read and a write. -/
theorem bitTestResult : Obligations.BitTestResult := by
  unfold Obligations.BitTestResult
  refine ⟨fun w op u v k f => ⟨rfl, rfl, fun j => ?bit⟩, fun op f s hp h => ?instruction⟩
  case bit =>
    rw [getLsbD_bitCompute j.isLt]
    simp only [Fin.ext_iff]
    rfl
  case instruction =>
    rw [exec_bitInstr]
    exact withLock_next hp (bitForm_flat ((bitReady_begun op f s).trans h))

/-- Settles O27: a 1 with only 0 on the side the search comes from is the bit it finds. -/
theorem bitScanResult : Obligations.BitScanResult := by
  unfold Obligations.BitScanResult
  intro up r rm s w l v after hp hread
  have hrun : exec (scanInstr up r rm) s = .next (retire s (after
      (if v = 0 then (s.freeWord scanSlot).truncate _ else BitVec.ofNat _ (scanFind up _ v)) (v == 0)) .next) := by
    have hvalue : s.begun.valueAt w l = v := valueAt_begun s w l
    rw [exec_scanInstr, ← hvalue]
    exact plain_next hp (scanForm_flat (s := s.begun) ((readable_begun s w l).trans hread))
  refine ⟨fun h0 => ?zero, fun k hk hfirst => ?found⟩
  case zero => rw [hrun, if_pos h0, beq_iff_eq.2 h0]
  case found =>
    have h0 : v ≠ 0 := fun h => by simp [h] at hk
    rw [hrun, if_neg h0, beq_eq_false_iff_ne.2 h0, scanFind_eq hk hfirst]

/-- Settles O28: without the parameter the first check fails; with it the field is in a register or in its bytes of
memory. -/
theorem bitStringResult : Obligations.BitStringResult := by
  unfold Obligations.BitStringResult
  intro s rm r hp w o c free field
  refine ⟨fun habsent => ⟨bitString_absent habsent _, bitString_absent habsent _⟩, fun hpresent h0 hc => ?present⟩
  cases hl : s.locate rm with
  | reg x =>
    exact fun hfield => ⟨bitString_next hp hpresent (xbtsSteps_reg (s := s.begun) r hl hc hfield),
      bitString_next hp hpresent (ibtsSteps_reg (s := s.begun) r hl hc hfield)⟩
  | mem seg off =>
    have hbytes (a : Word32) (n : Nat) := congrArg natOfBytes (operandBytes_begun s seg a n)
    have haccess := canAccess_begun s seg
    refine ⟨fun hread => bitString_next hp hpresent ?xbts, fun hread hwrite => bitString_next hp hpresent ?ibts⟩
    case xbts => exact xbtsSteps_mem (s := s.begun) r hl h0 hc rfl ((haccess ..).trans hread) (hbytes _ _)
    case ibts =>
      exact ibtsSteps_mem (s := s.begun) r hl h0 hc rfl ((haccess ..).trans hread) (hbytes _ _)
        ((haccess ..).trans hwrite)
end

section
/-!
PROOF. The state after RESET, and words of the encoding tables that decode to their instructions. It settles O9 and O3.
-/
namespace Sys2Proof.Machine

/-! ## The registers after RESET -/

theorem reset_seg (c : Config) {r : SReg} (h : r ≠ .cs) : (State.resetWith c).seg r = SegReg.dataAtReset := by
  cases r with
  | cs => exact absurd rfl h
  | es | ss | ds | fs | gs => rfl

/-- BH and BL are the two bytes that R705 puts into BX. -/
theorem reset_bh_bl (c : Config) :
    (State.resetWith c).reg .w8 7 = 0x03#8 ∧ (State.resetWith c).reg .w8 3 = c.revisionId := by
  have hfield (low : Nat) : (((0x03#8 ++ c.revisionId).zeroExtend 32).extractLsb' low 8).toNat =
      (768 + c.revisionId.toNat) / 2 ^ low % 2 ^ 8 := by
    have hrev := c.revisionId.isLt
    rw [extractLsb'_toNat_div, BitVec.toNat_setWidth, append_toNat]
    show (768 + c.revisionId.toNat) % 2 ^ 32 / _ % _ = _
    rw [Nat.mod_eq_of_lt (a := 768 + _) (by omega)]
  have hrev := c.revisionId.isLt
  exact ⟨BitVec.eq_of_toNat_eq ((hfield 8).trans (show (768 + c.revisionId.toNat) / 2 ^ 8 % 2 ^ 8 = 3 by omega)),
    BitVec.eq_of_toNat_eq ((hfield 0).trans (by omega))⟩

/-- AX tells whether a self-test has failed (R706). -/
theorem reset_ax (c : Config) :
    (State.resetWith c).reg .w16 eax = if c.selfTest && !c.selfTestPass then 1#16 else 0#16 := by
  show BitVec.extractLsb' 0 16 (if c.selfTest && !c.selfTestPass then 1#32 else 0#32) = _
  split <;> rfl

end Sys2Proof.Machine

open Sys2Proof Sys2Proof.Machine Sys2Proof.Claims

/-- Settles O9: each item is a field of the state that RESET leaves. -/
theorem resetValues : Obligations.ResetValues := by
  unfold Obligations.ResetValues
  intro c s
  obtain ⟨hbh, hbl⟩ := reset_bh_bl c
  have hflags : s.flags.toWord = 0x00000002 := (by decide : EFlags.atReset.toWord = 0x00000002)
  refine ⟨rfl, rfl, rfl, hflags, rfl, rfl, fun r hr => ?segments, rfl, rfl, rfl, rfl, rfl, rfl, rfl, hbh, hbl,
    fun ht hpass => ?passed, fun ht hfail => ?failed, rfl, rfl, rfl, rfl, rfl, rfl⟩
  case segments =>
    rw [reset_seg c hr]
    rfl
  case passed => exact ⟨(reset_ax c).trans (if_neg (by rw [ht, hpass]; decide)), rfl⟩
  case failed =>
    have hax := (reset_ax c).trans (if_pos (by rw [ht, hfail]; rfl))
    exact .inl (by rw [hax]; decide)

/-- Settles O3: the decoder, run on each word. -/
theorem writtenWordsDecode : Obligations.WrittenWordsDecode := by
  unfold Obligations.WrittenWordsDecode
  exact ⟨rfl, rfl, rfl, rfl, rfl, rfl, rfl, rfl, rfl, rfl, rfl⟩
end

section
/-!
PROOF. The sixteen conditions: their opcodes and what they say of the flags. It settles O17.
-/
namespace Sys2Proof.Machine

open Sys2Proof.Claims

/-! ## The opcodes of Jcc and SETcc -/

theorem decode_jccByte (k : Fin 16) (osz asz : Size) (bs : List Byte) :
    decode osz asz (BitVec.ofNat 8 (0x70 + k.val) :: bs) =
      withByte bs fun d bs => done (jccInstr (conditionNumber k) (.jb d)) bs := by fin_cases k <;> rfl

theorem decode_jccFull (k : Fin 16) (osz asz : Size) (bs : List Byte) :
    decode osz asz (0x0F :: BitVec.ofNat 8 (0x80 + k.val) :: bs) =
      withImmV osz bs fun d bs => done (jccInstr (conditionNumber k) (.jv d)) bs := by fin_cases k <;> rfl

theorem decode_setcc (k : Fin 16) (osz asz : Size) (bs : List Byte) :
    decode osz asz (0x0F :: BitVec.ofNat 8 (0x90 + k.val) :: bs) =
      withModRM asz bs fun _ rm bs => done (setccInstr (conditionNumber k) rm) bs := by fin_cases k <;> rfl

/-- The opcode of a condition with the operand in register `r`. -/
theorem decode_setccReg (k : Fin 16) (r : Fin 8) (osz asz : Size) (rest : List Byte) :
    decode osz asz (0x0F :: BitVec.ofNat 8 (0x90 + k.val) :: BitVec.ofNat 8 (0xC0 + r.val) :: rest) =
      some (.instr (setccInstr (conditionNumber k) (.reg r)), rest) := by
  have hmodrm : BitVec.ofNat 8 (0xC0 + r.val) = fieldsByte 3 0 r := registerByte_eq 0 r
  rw [decode_setcc, hmodrm, withModRM_reg]
  rfl

/-! ## What they say of the flags -/

/-- An odd condition negates the one before it (R497). -/
theorem holds_odd (k : Fin 8) (f : EFlags) : (conditionNumber ⟨2 * k.val + 1, by omega⟩).holds f =
    !(conditionNumber ⟨2 * k.val, by omega⟩).holds f := by
  match k with
  | 0 | 1 | 2 | 4 | 5 => rfl
  | 3 => exact (Bool.not_or _ _).symm
  | 6 => exact (Bool.not_not _).symm
  | 7 => exact ((Bool.not_or _ _).trans (congrArg (!f.zf && ·) (Bool.not_not _))).symm

end Sys2Proof.Machine

open Sys2Proof Sys2Proof.Machine Sys2Proof.Claims

/-- Settles O17: the opcodes of Jcc and SETcc by their low four bits, and each condition as a formula of the flags. -/
theorem conditionTable : Obligations.ConditionTable := by
  unfold Obligations.ConditionTable
  refine ⟨fun k d osz asz rest => ⟨?byte, fun r => decode_setccReg k r osz asz rest, fun e => ?word, fun e g h => ?dword⟩,
    holds_odd, fun f => ?meaning⟩
  case byte =>
    rw [decode_jccByte]
    rfl
  case word =>
    rw [decode_jccFull]
    rfl
  case dword =>
    rw [decode_jccFull]
    rfl
  case meaning => simp [Cond.holds]
end

section
/-!
PROOF. The instructions that change flags alone, and NOP: their opcodes and the flags they write. It settles O52.
-/
namespace Sys2Proof.Machine

open Sys2Proof.Claims

theorem decode_flagOp (op : FlagOp) (osz asz : Size) (rest : List Byte) :
    decode osz asz (op.opcode :: rest) = some (.instr op.instr, rest) := by cases op <;> rfl

/-- A check that passes is followed by the other steps. -/
theorem require0_passed {α : Type} {c : Bool} (hc : c = true) (v : Byte) (f : Unit → M α) (s : State) :
    (require0 c v >>= f) s = f () s := by rw [require0_bind, if_pos hc]

/-- CLI and STI where IF may be changed (R536, R537). -/
theorem exec_flagOp {op : FlagOp} {s : State} (hp : s.prefixesOk false) (hr : op.ready s = true) :
    exec op.instr s = .next (retire s (op.after s.begun) .next) := by
  cases op with
  | clc | stc | cmc | cld | std | sahf | nop => exact plain_next hp rfl
  | cli => exact plain_next hp (require0_passed (s := s.begun) hr 13 _)
  | sti =>
    refine plain_next hp ((require0_passed (s := s.begun) hr 13 _).trans ?_)
    refine congrArg (EStateM.Result.ok ()) ?_
    simp only [FlagOp.after, FlagOp.flags]
    by_cases hif : s.begun.flags.intf = true
    · simp only [if_pos hif]
      rfl
    · simp only [if_neg hif]
      rfl

end Sys2Proof.Machine

open Sys2Proof Sys2Proof.Machine Sys2Proof.Claims

/-- Settles O52: each instruction is a change of the flags, for CLI and STI after the check of IOPL. -/
theorem flagInstructions : Obligations.FlagInstructions := by
  unfold Obligations.FlagInstructions
  exact ⟨decode_flagOp, fun op s hp hr => exec_flagOp hp hr⟩
end

section
/-!
PROOF. Where ESC and WAIT do not run: exception 7, BUSY#, exception 16, the reserved memory forms, and CR0.ET that does not
fit the coprocessor. It settles O59.
-/
namespace Sys2Proof.Machine

open Sys2Proof.Claims

/-- Behind legal prefixes an instruction ends as its own steps do. -/
theorem transfer_eq_conclude {s : State} {body : M Retire} (hp : s.prefixesOk false) :
    transfer body s = conclude s (body s.begun) :=
  congrArg (conclude s) (M_bind_ok (checkPrefixes_run hp))

/-- An exception raised before anything is changed. -/
theorem transfer_refused {s : State} {body : M Retire} {v : Byte} {c : Option Word32} (hp : s.prefixesOk false)
    (hv : v ≠ 8) (hb : body s.begun = .error (.exc { vector := v, code := c, newTask := false }) s.begun) :
    transfer body s = deliver s (s.faultEvent v c) := transfer_exc (t := s.begun) hp hv hb

/-- An exception without an error code that a failing check raises. -/
theorem require_failed {α : Type} {c : Bool} (hc : c = false) (v : Byte) (f : Unit → M α) (s : State) :
    (require c v >>= f) s = .error (.exc { vector := v, code := none, newTask := false }) s := by
  rw [hc]
  exact M_bind_error (require_false_run v s)

/-- A check that passes is followed by the other steps. -/
theorem require_passed {α : Type} {c : Bool} (hc : c = true) (v : Byte) (f : Unit → M α) (s : State) :
    (require c v >>= f) s = f () s := by
  rw [hc]
  exact M_bind_ok (require_true_run v s)

/-! ## ESC instructions -/

/-- With CR0.EM or CR0.TS set no ESC instruction runs (R606). -/
theorem escRequire_eq_false {s : State} (h : s.cr0.em = true ∨ s.cr0.ts = true) : (!s.cr0.em && !s.cr0.ts) = false := by
  obtain h | h := h <;> simp [h]

theorem escRequire_eq_true {s : State} (hem : s.cr0.em = false) (hts : s.cr0.ts = false) :
    (!s.cr0.em && !s.cr0.ts) = true := by rw [hem, hts]; rfl

theorem exec_escReserved (f : ReservedForm) (s : State) : exec (.escReserved f) s = transfer reservedSteps s := by
  cases f <;> rfl

theorem exec_esc_absent {s : State} {i : Instr} (hp : s.prefixesOk false)
    (hi : (∃ u, escUse i = some u) ∨ (∃ f, i = .escReserved f)) (h : s.cr0.em = true ∨ s.cr0.ts = true) :
    exec i s = deliver s (s.faultEvent 7 none) := by
  have hcheck : (!s.begun.cr0.em && !s.begun.cr0.ts) = false := escRequire_eq_false h
  obtain ⟨u, hu⟩ | ⟨f, rfl⟩ := hi
  · obtain ⟨o, -, hx⟩ := runsEsc_of_escUse hu
    exact (hx s).trans (transfer_refused hp (by decide) ((M_get_bind _ _).trans (require_failed hcheck 7 _ _)))
  · rw [exec_escReserved]
    exact transfer_refused hp (by decide) ((M_get_bind _ _).trans (require_failed hcheck 7 _ _))

theorem exec_escReserved_refused {s : State} (hp : s.prefixesOk false) (f : ReservedForm) (hem : s.cr0.em = false)
    (hts : s.cr0.ts = false) : exec (.escReserved f) s = .refused .escReservedMemory := by
  have hcheck : (!s.begun.cr0.em && !s.begun.cr0.ts) = true := escRequire_eq_true hem hts
  rw [exec_escReserved, transfer_eq_conclude hp, reservedSteps, M_get_bind, require_passed hcheck]
  rfl

/-- CR0.ET that does not fit comes before BUSY# (R612). -/
theorem escSteps_etWrong {s : State} (e : Esc) (hem : s.cr0.em = false) (hts : s.cr0.ts = false)
    (het : etFits s = false) : escSteps e s = .error (.fault .etMismatch) s := by
  rw [escSteps, M_get_bind, require_passed (escRequire_eq_true hem hts), etWrong_eq_not_etFits, het]
  rfl

/-- An ESC instruction that waits begins again while BUSY# is active (R609). -/
theorem escSteps_busy {s : State} {e : Esc} (hem : s.cr0.em = false) (hts : s.cr0.ts = false) (het : etFits s = true)
    (hw : e.waits = true) (hb : busySeen s = true) : escSteps e s = .ok .wait s := by
  have hwait : (e.waits && s.busy) = true := by rw [hw]; exact hb
  rw [escSteps, M_get_bind, require_passed (escRequire_eq_true hem hts), etWrong_eq_not_etFits, het, hwait]
  rfl

/-- ERROR# is exception 16, after a store that is due (R607, R609). -/
theorem escSteps_error {s : State} {e : Esc} (hd : s.cop.due = none) (hem : s.cr0.em = false) (hts : s.cr0.ts = false)
    (het : etFits s = true) (hw : e.waits = true) (hb : busySeen s = false) (herr : errorSeen s = true) :
    escSteps e s = .error (.exc { vector := 16, code := none, newTask := false }) s := by
  have hcheck : (!(e.waits && s.copError)) = false := by
    rw [hw, show s.copError = true from herr]
    rfl
  rw [escSteps_begin e hem hts het (.inr hb), hd]
  exact require_failed hcheck 16 _ s

/-! ## WAIT -/

/-- What WAIT does behind its prefixes (R608). -/
def waitSteps : M Retire := do
  let s ← get
  require (!(s.cr0.mp && s.cr0.ts)) 7
  if s.busy then return .wait
  if s.cop.due.isSome then return (← makeDueStore)
  require (!s.copError) 16
  return .next

theorem exec_wait_eq {s : State} (hp : s.prefixesOk false) : exec .wait s = conclude s (waitSteps s.begun) :=
  transfer_eq_conclude hp

/-- With CR0.MP and CR0.TS set WAIT is exception 7 (R606). -/
theorem exec_wait_absent {s : State} (hp : s.prefixesOk false) (hmp : s.cr0.mp = true) (hts : s.cr0.ts = true) :
    exec .wait s = deliver s (s.faultEvent 7 none) := by
  have hcheck : (!(s.begun.cr0.mp && s.begun.cr0.ts)) = false := by
    rw [show s.begun.cr0 = s.cr0 from rfl, hmp, hts]
    rfl
  exact transfer_refused (body := waitSteps) hp (by decide) ((M_get_bind _ _).trans (require_failed hcheck 7 _ _))

theorem makeDueStore_etWrong {s : State} (het : etFits s = false) :
    makeDueStore s = .error (.fault .etMismatch) s := by
  rw [makeDueStore, M_get_bind, etWrong_eq_not_etFits, het]
  rfl

section Runs

variable {s : State} (hmp : ¬(s.cr0.mp = true ∧ s.cr0.ts = true))
include hmp

theorem waitSteps_begin : waitSteps s = (do
    if s.busy then return .wait
    if s.cop.due.isSome then return (← makeDueStore)
    require (!s.copError) 16
    return .next : M Retire) s := by
  have hcheck : (!(s.cr0.mp && s.cr0.ts)) = true := by
    rw [Bool.not_eq_true', Bool.eq_false_iff, Ne, Bool.and_eq_true]
    exact hmp
  rw [waitSteps, M_get_bind, require_passed hcheck]

theorem waitSteps_busy (hb : busySeen s = true) : waitSteps s = .ok .wait s := by
  rw [waitSteps_begin hmp, show s.busy = true from hb]
  rfl

theorem waitSteps_error (hd : s.cop.due = none) (hb : busySeen s = false) (herr : errorSeen s = true) :
    waitSteps s = .error (.exc { vector := 16, code := none, newTask := false }) s := by
  rw [waitSteps_begin hmp, show s.busy = false from hb, hd, show s.copError = true from herr]
  rfl

/-- A store that is due stops where CR0.ET does not fit (R612, U19). -/
theorem waitSteps_etWrong (hd : s.cop.due ≠ none) (het : etFits s = false) (hb : busySeen s = false) :
    waitSteps s = .error (.fault .etMismatch) s := by
  rw [waitSteps_begin hmp, show s.busy = false from hb, Option.isSome_iff_ne_none.2 hd]
  exact makeDueStore_etWrong het

end Runs

/-! ## PEREQ -/

/-- CR0.ET can be wrong only for a coprocessor that is fitted. -/
theorem coproc_of_etFits {s : State} (h : etFits s = false) : s.cfg.coproc ≠ .none := by
  intro hc
  rw [etFits, hc] at h
  cases h

theorem step_etWrong {s : State} (het : etFits s = false) (hd : s.cop.due ≠ none) (hr : s.pins.reset = false)
    (hh : s.pins.hold = false) (hq : s.pins.pereq = true) (hx : s.run = .executing) : step s = .fault .etMismatch := by
  have hrun : s.onBus.run = .executing := (s.onBus_field State.run fun _ _ _ _ _ => rfl).trans hx
  have hpereq : s.onBus.pereq = true := by
    rw [s.onBus_field State.pereq fun _ _ _ _ _ => rfl, State.pereq, hq, Bool.and_true]
    exact bne_iff_ne.2 (coproc_of_etFits het)
  have hdue : s.onBus.cop.due.isSome = true := by
    rw [s.onBus_field (·.cop.due) fun _ _ _ _ _ => rfl]
    exact Option.isSome_iff_ne_none.2 hd
  have hwrong : s.onBus.etWrong = true := by
    rw [s.onBus_field State.etWrong fun _ _ _ _ _ => rfl, etWrong_eq_not_etFits, het]
    rfl
  rw [step_eq_runStep hr hh, runStep, hrun, hpereq, hdue, hwrong]
  rfl

end Sys2Proof.Machine

open Sys2Proof Sys2Proof.Machine Sys2Proof.Claims

/-- Settles O59: the checks of an ESC instruction and of WAIT in their order, each where it is the one that stops. -/
theorem coprocessorStops : Obligations.CoprocessorStops := by
  unfold Obligations.CoprocessorStops
  intro s hp
  refine ⟨fun i hi h => exec_esc_absent hp hi h, fun f hem hts => exec_escReserved_refused hp f hem hts,
    fun i u hu hw hem hts het => ?escWaits, fun hmp hts => exec_wait_absent hp hmp hts, fun hmp => ?waits,
    fun het => ⟨fun i u hu hem hts => ?escWrong, fun hd => ⟨fun hmp hb => ?waitWrong, fun hr hh hq hx => ?pereq⟩⟩⟩
  case escWaits =>
    obtain ⟨o, -, hx⟩ := runsEsc_of_escUse hu
    have hwaits : (escOf i o).waits = true := by simp [escOf, hw]
    refine ⟨fun hb => ?_, fun hb herr hd => ?_⟩
    · exact (hx s).trans (transfer_next hp (escSteps_busy (s := s.begun) hem hts het hwaits hb))
    · exact (hx s).trans
        (transfer_refused hp (by decide) (escSteps_error (s := s.begun) hd hem hts het hwaits hb herr))
  case waits =>
    refine ⟨fun hb => ?_, fun hb herr hd => ?_⟩
    · exact transfer_next hp (waitSteps_busy (s := s.begun) hmp hb)
    · exact transfer_refused hp (by decide) (waitSteps_error (s := s.begun) hmp hd hb herr)
  case escWrong =>
    obtain ⟨o, -, hx⟩ := runsEsc_of_escUse hu
    rw [hx s, transfer_eq_conclude hp, escSteps_etWrong (s := s.begun) _ hem hts het]
    rfl
  case waitWrong =>
    rw [exec_wait_eq hp, waitSteps_etWrong (s := s.begun) hmp hd het hb]
    rfl
  case pereq => exact step_etWrong het hd hr hh hq hx
end

section
/-!
PROOF. The descriptor-table registers with paging off: the six bytes of the operand, read or stored as a word and a double
word. It settles O53.
-/
namespace Sys2Proof.Machine

open Sys2Proof.Claims

/-! ## Parts of an operand -/

/-- What lies inside the segment lies there in parts; the offsets of the parts do not wrap (R140). -/
theorem inLimit_part {g : SegReg} {off : Word32} {n k m : Nat} (hm : 0 < m) (hk : k + m ≤ n)
    (h : inLimit g off n = true) : inLimit g (off + BitVec.ofNat 32 k) m = true ∧
      (off + BitVec.ofNat 32 k).toNat = off.toNat + k := by
  have hlim := g.limit.isLt
  have hwhole : off.toNat + n - 1 ≤ 0xFFFFFFFF := by
    unfold inLimit at h
    split at h <;> simp only [Bool.and_eq_true, decide_eq_true_eq] at h
    · obtain ⟨-, hup⟩ := h
      split at hup <;> omega
    · omega
  have hoff : (off + BitVec.ofNat 32 k).toNat = off.toNat + k := by
    rw [BitVec.toNat_add, BitVec.toNat_ofNat]
    omega
  refine ⟨?_, hoff⟩
  unfold inLimit at h ⊢
  rw [hoff]
  split at h
  next he =>
    rw [if_pos he]
    simp only [Bool.and_eq_true, decide_eq_true_eq] at h ⊢
    omega
  next he =>
    rw [if_neg he]
    simp only [decide_eq_true_eq] at h ⊢
    omega

theorem canAccess_part {s : State} {r : SReg} {off : Word32} {n k m : Nat} {w : Bool} (hm : 0 < m) (hk : k + m ≤ n)
    (h : s.canAccess r off n w = true) : s.canAccess r (off + BitVec.ofNat 32 k) m w = true := by
  simp only [State.canAccess, State.segAllows, State.inReach, Bool.and_eq_true, Bool.or_eq_true, decide_eq_true_eq] at h ⊢
  obtain ⟨hflat, ⟨husable, hrights⟩, hlim, hreal⟩ := h
  obtain ⟨hin, hoff⟩ := inLimit_part hm hk hlim
  refine ⟨hflat, ⟨husable, hrights⟩, hin, hreal.imp_right fun h => ?_⟩
  omega

/-- The first bytes of an operand that can be accessed. -/
theorem canAccess_head {s : State} {r : SReg} {off : Word32} {n m : Nat} {w : Bool} (hm : 0 < m) (hk : m ≤ n)
    (h : s.canAccess r off n w = true) : s.canAccess r off m w = true := by
  have hpart := canAccess_part (k := 0) hm (by omega) h
  rwa [show BitVec.ofNat 32 0 = 0#32 from rfl, BitVec.add_zero] at hpart

theorem byteAddrs_take (la : Word32) {n k : Nat} (h : k ≤ n) : (byteAddrs la n).take k = byteAddrs la k := by
  rw [byteAddrs, ← List.map_take, List.take_range, Nat.min_eq_left h]
  rfl

theorem byteAddrs_drop (la : Word32) (n k : Nat) :
    (byteAddrs la n).drop k = byteAddrs (la + BitVec.ofNat 32 k) (n - k) := by
  refine List.ext_getElem (by simp) fun i h1 h2 => ?_
  rw [List.getElem_drop, byteAddrs_getElem, byteAddrs_getElem, BitVec.add_assoc, ← BitVec.ofNat_add]

/-! ## The six bytes of a table register -/

theorem requireCpl0_run {s : State} (h : s.cpl = 0) : requireCpl0 s = .ok () s := by
  rw [requireCpl0, M_get_bind, h]
  rfl

theorem readTable_flat {s : State} {m : MemOp} (hc : s.cpl = 0) (h : tableReady s m false = true) :
    readTable m s = .ok (tableRead s m) (afterTableRead s m) := by
  have hlimit : s.canAccess (s.ea m).1 (s.ea m).2 Width.w16.bytes false = true := canAccess_head (by decide) (by decide) h
  have hbase : (s.afterLoad (s.ea m).1 (s.ea m).2 2).canAccess (s.ea m).1 ((s.ea m).2 + 2) Width.w32.bytes false = true :=
    (canAccess_congr rfl rfl (seg_afterLoad s _ · _ _) _ _ _ _).trans (canAccess_part (k := 2) (by decide) (by decide) h)
  refine (M_bind_ok (requireCpl0_run hc)).trans <| (M_get_bind _ _).trans <| (M_bind_ok (checkAccess_flat h)).trans <|
    (M_bind_ok (lread_flat hlimit)).trans <| (M_bind_ok (lread_flat hbase)).trans ?_
  rw [operand_afterLoad]
  rfl

/-- The four bytes that follow the limit in memory: with a 16-bit operand the last is free (R552, U17). -/
def tableBaseBytes (s : State) (t : TableReg) : List Byte :=
  match s.osz with
  | .s16 => (bytesOf .w32 t.base).take 3 ++ [s.freeByte 0]
  | .s32 => bytesOf .w32 t.base

theorem tableBaseBytes_length (s : State) (t : TableReg) : (tableBaseBytes s t).length = 4 := by
  unfold tableBaseBytes
  cases s.osz <;> rfl

theorem tableStored_eq (s : State) (m : MemOp) (t : TableReg) : tableStored s m t =
    (s.afterStore (s.ea m).1 (s.ea m).2 (bytesOf .w16 t.limit)).afterStore (s.ea m).1 ((s.ea m).2 + 2)
      (tableBaseBytes s t) := rfl

theorem storeTable_flat {s : State} {m : MemOp} (t : TableReg) (h : tableReady s m true = true) :
    storeTable m t s = .ok () (tableStored s m t) := by
  have hm := canAccess_masters h
  have hlimit : (bytesOf .w16 t.limit).length = 2 := rfl
  have hbase : linear (s.seg (s.ea m).1) ((s.ea m).2 + 2) = linear (s.seg (s.ea m).1) (s.ea m).2 + 2 :=
    (BitVec.add_assoc _ _ _).symm
  have hrun : storeTable m t s = (do
      writeChecked 4 (linear (s.seg (s.ea m).1) (s.ea m).2) (byteAddrs (linear (s.seg (s.ea m).1) (s.ea m).2) 2)
        (bytesOf .w16 t.limit)
      writeChecked 4 (linear (s.seg (s.ea m).1) (s.ea m).2 + 2)
        (byteAddrs (linear (s.seg (s.ea m).1) (s.ea m).2 + 2) 4) (tableBaseBytes s t)) s := by
    refine (M_get_bind _ _).trans <| (M_bind_ok (accessAddrs_flat h)).trans ?_
    rw [byteAddrs_take _ (by decide), byteAddrs_drop]
    rfl
  rw [hrun, M_bind_ok (writeChecked_flat hm ..), writeChecked_flat (by simpa [State.noteAccess] using hm), tableStored_eq,
    State.afterStore, State.afterStore, seg_noteAccess, linear_seg_setPhysBytes, tableBaseBytes_length, hlimit, hbase]

/-- Each of the four instructions, from the state in which it begins. -/
theorem exec_tableOp (op : TableOp) {s : State} (hp : s.prefixesOk false) (h : op.ready s = true) :
    exec op.instr s = .next (retire s (op.after s.begun) .next) := by
  cases op with
  | sgdt m => exact plain_next hp ((M_get_bind _ _).trans (storeTable_flat _ ((canAccess_begun ..).trans h)))
  | sidt m => exact plain_next hp ((M_get_bind _ _).trans (storeTable_flat _ ((canAccess_begun ..).trans h)))
  | lgdt m =>
    obtain ⟨hc, hm⟩ := Bool.and_eq_true_iff.mp h
    exact plain_next hp (M_bind_ok (readTable_flat (s := s.begun) (eq_of_beq hc) ((canAccess_begun ..).trans hm)))
  | lidt m =>
    obtain ⟨hc, hm⟩ := Bool.and_eq_true_iff.mp h
    exact plain_next hp (M_bind_ok (readTable_flat (s := s.begun) (eq_of_beq hc) ((canAccess_begun ..).trans hm)))

end Sys2Proof.Machine

open Sys2Proof Sys2Proof.Machine Sys2Proof.Claims

/-- Settles O53: the two parts of the operand can be accessed where the whole can. -/
theorem tableRegisterResult : Obligations.TableRegisterResult := by
  unfold Obligations.TableRegisterResult
  exact fun op _ hp h => exec_tableOp op hp h
end

section
/-!
PROOF. LLDT, LTR, LMSW, CLTS and HLT at CPL 0, and the selectors that LLDT and LTR refuse. It settles O54.
-/
namespace Sys2Proof.Machine

open Sys2Proof.Claims

/-! ## The descriptor of LLDT and LTR -/

/-- `ReadDesc` of an entry of the GDT, by the name the obligations give it. -/
theorem readDesc_gdt {s : State} (h : s.flat = true) (sel : Word16) :
    readDesc (s.gdtAddr sel) s = .ok (gdtEntry s sel) s := readDesc_flat h _

theorem systemDesc_checks {s : State} (h : s.flat = true) (types : List Nat) (sel : Word16) :
    systemDesc sel types s = afterChecks (systemChecks s types sel) s (.ok (gdtEntry s sel) s) := by
  rw [systemDesc, M_get_bind, requireSel_bind, systemChecks, afterChecks_cons]
  cases s.inGdt sel
  case false => rfl
  case true =>
    rw [if_pos rfl, if_pos rfl, M_bind_ok (readDesc_gdt h sel), requireSel_bind, afterChecks_cons, requireSel_bind,
      afterChecks_cons, afterChecks_nil, M_pure]

/-- The checks of a selector are the same before and after the operand that holds it has been read. -/
theorem systemChecks_afterRead (s : State) (w : Width) (l : Loc) (types : List Nat) (sel : Word16) :
    systemChecks (s.begun.afterRead w l) types sel = systemChecks s types sel := by cases l <;> rfl

theorem systemChecks_vector {s : State} {types : List Nat} {sel : Word16} {v : Byte} {c : Word32}
    (h : firstFailing (systemChecks s types sel) = some (v, c)) : v ≠ 8 := by
  have hmem := mem_of_firstFailing h
  rintro rfl
  simp [systemChecks] at hmem

theorem flat_afterRead (s : State) (w : Width) (l : Loc) : (s.begun.afterRead w l).flat = s.flat := by cases l <;> rfl

theorem lldtReady_afterRead (s : State) (w : Width) (l : Loc) (sel : Word16) :
    lldtReady (s.begun.afterRead w l) sel = lldtReady s sel := by cases l <;> rfl

theorem ltrReady_afterRead (s : State) (w : Width) (l : Loc) (sel : Word16) :
    ltrReady (s.begun.afterRead w l) sel = ltrReady s sel := by cases l <;> rfl

/-! ## LLDT and LTR -/

/-- LLDT after its checks (R554). -/
def loadLdt (sel : Word16) : M Unit :=
  if selNull sel then modify fun s => { s with ldtr := { s.ldtr with selector := sel, valid := false } }
  else do
    let d ← systemDesc sel [2]
    modify fun s => { s with ldtr := { selector := sel, valid := true, base := d.base, limit := d.limit } }

/-- LTR after its checks (R556). -/
def loadTr (sel : Word16) : M Unit := do
  require0 (!selNull sel) 13
  let d ← systemDesc sel [1, 9]
  orDescHigh ((← get).gdtAddr sel) 0x200
  modify fun s => { s with tr := { selector := sel, base := d.base, limit := d.limit, is386 := d.type == 9 } }

theorem systemRead_run {s : State} {rm : RM} (hp : s.protectedMode = true) (hc : s.cpl = 0)
    (h : s.readable .w16 (s.locate rm) = true) (f : Word16 → M Unit) :
    (do requireProtected; requireCpl0; let sel ← readRM .w16 rm; f sel : M Unit) s =
      f (s.valueAt .w16 (s.locate rm)) (s.afterRead .w16 (s.locate rm)) :=
  (M_bind_ok (requireProtected_run hp)).trans <| (M_bind_ok (requireCpl0_run hc)).trans (M_bind_ok (readRM_flat h))

theorem loadLdt_run {s : State} {sel : Word16} (h : lldtReady s sel = true) :
    loadLdt sel s = .ok () (ldtLoaded s sel) := by
  unfold loadLdt ldtLoaded
  cases hn : selNull sel
  case true => rfl
  case false =>
    simp only [lldtReady, hn, Bool.false_or, Bool.and_eq_true] at h
    obtain ⟨⟨⟨⟨hflat, hin⟩, hsys⟩, htype⟩, hpresent⟩ := h
    have hpass : firstFailing (systemChecks s [2] sel) = none := by
      simp [systemChecks, firstFailing, hin, hsys, hpresent, eq_of_beq htype]
    have hdesc := (systemDesc_checks hflat [2] sel).trans (afterChecks_of_none hpass ..)
    rw [if_neg Bool.false_ne_true, if_neg Bool.false_ne_true, M_bind_ok hdesc]
    rfl

theorem loadTr_run {s : State} {sel : Word16} (h : ltrReady s sel = true) :
    loadTr sel s = .ok () (trLoaded s sel) := by
  simp only [ltrReady, Bool.and_eq_true] at h
  obtain ⟨⟨⟨⟨⟨hn, hflat⟩, hin⟩, hsys⟩, htype⟩, hpresent⟩ := h
  have hpass : firstFailing (systemChecks s [1, 9] sel) = none := by
    have htypes : [1, 9].contains (gdtEntry s sel).type = true := by simpa using htype
    simp only [systemChecks, firstFailing, hin, hsys, hpresent, htypes]
    rfl
  have hdesc := (systemDesc_checks hflat [1, 9] sel).trans (afterChecks_of_none hpass ..)
  rw [loadTr, require0_bind, hn, if_pos rfl, M_bind_ok hdesc, M_get_bind, M_bind_ok (orDescHigh_flat hflat ..),
    withField_dword, fieldAt_dword, trLoaded]
  rfl

theorem loadLdt_refused {s : State} {sel : Word16} {e : Byte × Word32} (hf : s.flat = true) (hn : selNull sel = false)
    (h : firstFailing (systemChecks s [2] sel) = some e) : loadLdt sel s = .error (checkStop e.1 e.2) s := by
  rw [loadLdt, if_neg (ne_true_of_eq_false hn)]
  exact M_bind_error ((systemDesc_checks hf [2] sel).trans (afterChecks_of_some h ..))

theorem loadTr_refused {s : State} {sel : Word16} {e : Byte × Word32} (hf : s.flat = true)
    (h : firstFailing ((!selNull sel, 13, 0) :: systemChecks s [1, 9] sel) = some e) :
    loadTr sel s = .error (checkStop e.1 e.2) s := by
  rw [firstFailing_cons] at h
  rw [loadTr, require0_bind]
  cases hn : selNull sel <;> rw [hn] at h
  case true => cases h; rfl
  case false => exact M_bind_error ((systemDesc_checks hf [1, 9] sel).trans (afterChecks_of_some h ..))

/-- A selector that is null or is refused by a check does not raise exception 8. -/
theorem ltrChecks_vector {s : State} {sel : Word16} {v : Byte} {c : Word32}
    (h : firstFailing ((!selNull sel, 13, 0) :: systemChecks s [1, 9] sel) = some (v, c)) : v ≠ 8 := by
  rw [firstFailing_cons] at h
  split at h
  · exact systemChecks_vector h
  · cases h
    decide

/-! ## The five instructions -/

section Loads

variable {s : State} {rm : RM} (hp : s.prefixesOk false) (hc : s.cpl = 0)
  (hr : s.readable .w16 (s.locate rm) = true)

include hc hr in
/-- LLDT and LTR come, once their operand has been read, to the load of the register. -/
theorem systemLoad_body (hm : s.protectedMode = true) (f : Word16 → M Unit) :
    (do requireProtected; requireCpl0; let sel ← readRM .w16 rm; f sel : M Unit) s.begun =
      f (s.valueAt .w16 (s.locate rm)) (s.begun.afterRead .w16 (s.locate rm)) := by
  have h := systemRead_run (s := s.begun) (rm := rm) hm hc ((readable_begun ..).trans hr) f
  rw [valueAt_begun] at h
  exact h

include hp hc hr

theorem exec_lldt (hm : s.protectedMode = true) (h : lldtReady s (s.valueAt .w16 (s.locate rm)) = true) :
    exec (.lldt rm) s =
      .next (retire s (ldtLoaded (s.begun.afterRead .w16 (s.locate rm)) (s.valueAt .w16 (s.locate rm))) .next) := by
  have hready : lldtReady (s.begun.afterRead .w16 (s.locate rm)) (s.valueAt .w16 (s.locate rm)) = true := by
    rwa [lldtReady_afterRead]
  exact plain_next hp ((systemLoad_body hc hr hm loadLdt).trans (loadLdt_run hready))

theorem exec_ltr (hm : s.protectedMode = true) (h : ltrReady s (s.valueAt .w16 (s.locate rm)) = true) :
    exec (.ltr rm) s =
      .next (retire s (trLoaded (s.begun.afterRead .w16 (s.locate rm)) (s.valueAt .w16 (s.locate rm))) .next) := by
  have hready : ltrReady (s.begun.afterRead .w16 (s.locate rm)) (s.valueAt .w16 (s.locate rm)) = true := by
    rwa [ltrReady_afterRead]
  exact plain_next hp ((systemLoad_body hc hr hm loadTr).trans (loadTr_run hready))

theorem exec_lldt_refused (hm : s.protectedMode = true) (hf : s.flat = true) {x : Byte} {c : Word32}
    (hn : selNull (s.valueAt .w16 (s.locate rm)) = false)
    (h : firstFailing (systemChecks s [2] (s.valueAt .w16 (s.locate rm))) = some (x, c)) :
    exec (.lldt rm) s = deliver s (s.faultEvent x (some c)) := by
  rw [← systemChecks_afterRead s .w16 (s.locate rm)] at h
  have hbody := (systemLoad_body hc hr hm loadLdt).trans
    (loadLdt_refused ((flat_afterRead ..).trans hf) hn h)
  exact (plain_exc hp (systemChecks_vector h) hbody).trans (by rw [rollback_afterRead])

theorem exec_ltr_refused (hm : s.protectedMode = true) (hf : s.flat = true) {x : Byte} {c : Word32}
    (h : firstFailing ((!selNull (s.valueAt .w16 (s.locate rm)), 13, 0) ::
      systemChecks s [1, 9] (s.valueAt .w16 (s.locate rm))) = some (x, c)) :
    exec (.ltr rm) s = deliver s (s.faultEvent x (some c)) := by
  rw [← systemChecks_afterRead s .w16 (s.locate rm)] at h
  have hbody := (systemLoad_body hc hr hm loadTr).trans (loadTr_refused ((flat_afterRead ..).trans hf) h)
  exact (plain_exc hp (ltrChecks_vector h) hbody).trans (by rw [rollback_afterRead])

theorem exec_lmsw : exec (.lmsw rm) s =
    .next (retire s (mswLoaded (s.begun.afterRead .w16 (s.locate rm)) (s.valueAt .w16 (s.locate rm))) .next) := by
  have hread := readRM_flat (s := s.begun) (rm := rm) ((readable_begun ..).trans hr)
  rw [valueAt_begun] at hread
  exact plain_next hp ((M_bind_ok (requireCpl0_run (s := s.begun) hc)).trans (M_bind_ok hread))

end Loads

theorem exec_clts {s : State} (hp : s.prefixesOk false) (hc : s.cpl = 0) :
    exec .clts s = .next (retire s { s.begun with cr0 := { s.cr0 with ts := false } } .next) :=
  plain_next hp (M_bind_ok (requireCpl0_run (s := s.begun) hc))

theorem exec_hlt {s : State} (hp : s.prefixesOk false) (hc : s.cpl = 0) :
    exec .hlt s = .next (retire s { s.begun with run := .halted, bus := .haltCycle :: s.bus } .next) :=
  plain_next hp (M_bind_ok (requireCpl0_run (s := s.begun) hc))

end Sys2Proof.Machine

open Sys2Proof Sys2Proof.Machine Sys2Proof.Claims

/-- Settles O54: each instruction reads its operand, and LLDT and LTR make the checks of their rule in its order. -/
theorem systemLoads : Obligations.SystemLoads := by
  unfold Obligations.SystemLoads
  intro s hp hc
  refine ⟨fun rm => ?_, exec_clts hp hc, exec_hlt hp hc⟩
  intro l v t hr
  exact ⟨exec_lldt hp hc hr, exec_ltr hp hc hr, fun hm hf x c =>
    ⟨exec_lldt_refused hp hc hr hm hf, exec_ltr_refused hp hc hr hm hf⟩, exec_lmsw hp hc hr⟩
end

section
/-!
PROOF. The protection queries VERR, VERW, LAR and LSL, and ARPL, in protected mode. It settles O55.
-/
namespace Sys2Proof.Machine

open Sys2Proof.Claims

/-! ## The descriptor a query finds -/

/-- The descriptor `sel` names, where the query's test `ok` accepts it, paging being off. -/
def acceptedDesc (s : State) (sel : Word16) (ok : BitVec 2 → Desc → Bool) : Option Desc :=
  if selNull sel then none
  else
    match s.descAddr sel with
    | some la => if ok s.cpl (descAt s la) then some (descAt s la) else none
    | none => none

theorem queryDesc_flat {s : State} (h : s.flat = true) (sel : Word16) (ok : BitVec 2 → Desc → Bool) :
    queryDesc sel ok s = .ok (acceptedDesc s sel ok) s := by
  rw [queryDesc, M_get_bind, acceptedDesc]
  cases selNull sel
  case true => rfl
  case false =>
    cases hd : s.descAddr sel with
    | none => rfl
    | some la =>
      refine (M_bind_ok (readDesc_flat h la)).trans ?_
      rfl

/-- The test of a query, as the model's instructions make it. -/
theorem acceptedDesc_afterRead (s : State) (w : Width) (l : Loc) (sel : Word16) (ok : BitVec 2 → Desc → Bool) :
    acceptedDesc (s.afterRead w l) sel ok = acceptedDesc s sel ok := by cases l <;> rfl

theorem flat_read (s : State) (w : Width) (l : Loc) : (s.afterRead w l).flat = s.flat := by cases l <;> rfl

/-- The descriptor a query finds is the one its own test accepts. -/
theorem found_eq (s : State) (q : Query) (ok : BitVec 2 → Desc → Bool)
    (hok : ∀ d, ok s.cpl d = q.accepts s (q.selector s) d) :
    acceptedDesc s (q.selector s) ok = q.found s := by
  rw [acceptedDesc, Query.found]
  cases s.descAddr (q.selector s) with
  | none => rfl
  | some la => simp only [hok]

/-- The operand of a query, and the descriptor its selector names. -/
theorem queryDesc_read {s : State} (q : Query) (ok : BitVec 2 → Desc → Bool) (hf : s.flat = true)
    (hok : ∀ d, ok s.cpl d = q.accepts s (q.selector s) d) :
    queryDesc (q.selector s) ok (s.afterRead (q.operand s).1 (s.locate (q.operand s).2)) =
      .ok (q.found s) (s.afterRead (q.operand s).1 (s.locate (q.operand s).2)) := by
  rw [queryDesc_flat ((flat_read ..).trans hf), acceptedDesc_afterRead, found_eq s q ok hok]

/-! ## The queries -/

/-- LAR and LSL of the value `result` of the descriptor found (R566, R567). -/
theorem queryLoad_run {s : State} (q : Query) {types : List Nat} {result : Desc → Word32} {r : Fin 8} {rm : RM}
    (hq : q.operand s = (s.osz.width, rm))
    (hok : ∀ d, ((d.isSegment || types.contains d.type) && queryPriv s.cpl (q.selector s) d) =
      q.accepts s (q.selector s) d)
    (hm : s.protectedMode = true) (hf : s.flat = true) (hr : s.readable (q.operand s).1 (s.locate (q.operand s).2) = true) :
    queryLoad types result r rm s = .ok () (match q.found s with
      | some d =>
        let t := (s.afterRead s.osz.width (s.locate rm)).setReg s.osz.width r ((result d).truncate s.osz.width.bits)
        t.withFlags { t.flags with zf := true }
      | none =>
        let t := s.afterRead s.osz.width (s.locate rm)
        t.withFlags { t.flags with zf := false }) := by
  have hsel : q.selector s = BitVec.truncate 16 (s.valueAt s.osz.width (s.locate rm)) := by
    rw [Query.selector, hq]
  have hdesc := queryDesc_read q (fun cpl d => (d.isSegment || types.contains d.type) && queryPriv cpl (q.selector s) d)
    hf hok
  rw [hq] at hdesc hr
  refine (M_bind_ok (requireProtected_run hm)).trans <| (M_get_bind _ _).trans <| (M_bind_ok (readRM_flat hr)).trans ?_
  rw [← hsel]
  refine (M_bind_ok hdesc).trans ?_
  cases q.found s <;> rfl

/-- VERR and VERW with the test `ok` (R568, R569). -/
def verify (ok : Word16 → BitVec 2 → Desc → Bool) (rm : RM) : M Unit := do
  requireProtected
  let sel ← readRM .w16 rm
  let d ← queryDesc sel (ok sel)
  putZf d.isSome

theorem verify_run {s : State} (q : Query) {ok : Word16 → BitVec 2 → Desc → Bool} {rm : RM}
    (hq : q.operand s = (.w16, rm)) (hok : ∀ d, ok (q.selector s) s.cpl d = q.accepts s (q.selector s) d)
    (hm : s.protectedMode = true) (hf : s.flat = true) (hr : s.readable (q.operand s).1 (s.locate (q.operand s).2) = true) :
    verify ok rm s = .ok () (let t := s.afterRead .w16 (s.locate rm)
      t.withFlags { t.flags with zf := (q.found s).isSome }) := by
  have hsel : q.selector s = s.valueAt .w16 (s.locate rm) := by
    rw [Query.selector, hq]
    exact BitVec.setWidth_eq _
  have hdesc := queryDesc_read q (ok (q.selector s)) hf hok
  rw [hq] at hdesc hr
  refine (M_bind_ok (requireProtected_run hm)).trans <| (M_bind_ok (readRM_flat hr)).trans ?_
  rw [← hsel]
  exact M_bind_ok hdesc

theorem exec_query (q : Query) {s : State} (hp : s.prefixesOk false) (hm : s.protectedMode = true)
    (hf : s.flat = true) (hr : s.readable (q.operand s).1 (s.locate (q.operand s).2) = true) :
    exec q.instr s = .next (retire s (q.after s.begun) .next) := by
  have hr' : s.begun.readable (q.operand s.begun).1 (s.begun.locate (q.operand s.begun).2) = true := by
    cases q <;> exact (readable_begun ..).trans hr
  unfold Query.after
  cases q with
  | verr rm =>
    refine plain_next hp <| (verify_run (s := s.begun) (ok := fun sel cpl d => d.readable && queryPriv cpl sel d) (.verr rm) rfl
      (fun _ => rfl) hm hf hr').trans ?_
    cases Query.found s.begun (.verr rm) <;> rfl
  | verw rm =>
    refine plain_next hp <| (verify_run (s := s.begun) (ok := fun sel cpl d => d.writable && privOk cpl sel d) (.verw rm) rfl
      (fun _ => rfl) hm hf hr').trans ?_
    cases Query.found s.begun (.verw rm) <;> rfl
  | lar r rm =>
    refine plain_next hp <| (M_get_bind _ _).trans <| (queryLoad_run (s := s.begun) (.lar r rm) rfl (fun _ => rfl) hm hf hr').trans ?_
    cases Query.found s.begun (.lar r rm) <;> rfl
  | lsl r rm =>
    refine plain_next hp <| (queryLoad_run (s := s.begun) (.lsl r rm) rfl (fun _ => rfl) hm hf hr').trans ?_
    cases Query.found s.begun (.lsl r rm) <;> rfl

/-! ## ARPL -/

/-- A selector with its RPL replaced: its fourteen high bits, then the RPL. -/
theorem withRpl_eq (sel : Word16) (n : BitVec 2) :
    (sel &&& 0xFFFC) ||| n.zeroExtend 16 = sel.extractLsb' 2 14 ++ n := by
  apply BitVec.eq_of_getLsbD_eq
  intro i hi
  have hmask : (0xFFFC : BitVec 16).getLsbD i = decide (2 ≤ i) :=
    (by decide : ∀ i : Fin 16, (0xFFFC#16).getLsbD i.val = decide (2 ≤ i.val)) ⟨i, hi⟩
  rw [BitVec.getLsbD_or, BitVec.getLsbD_and, hmask, BitVec.getLsbD_append]
  by_cases h : i < 2
  · simp [h, hi, Nat.not_le.mpr h]
  · have hrest : i - 2 < 14 := by omega
    have hback : 2 + (i - 2) = i := by omega
    simp [h, hi, hrest, hback, Nat.not_lt.mp h]

/-- The two low bits of a word, as a mask takes them. -/
theorem lowBits_eq (src : Word16) : src &&& 3 = (src.extractLsb' 0 2).zeroExtend 16 := by
  apply BitVec.eq_of_getLsbD_eq
  intro i hi
  have hmask : (3 : BitVec 16).getLsbD i = decide (i < 2) :=
    (by decide : ∀ i : Fin 16, (3#16).getLsbD i.val = decide (i.val < 2)) ⟨i, hi⟩
  rw [BitVec.getLsbD_and, hmask]
  simp [hi, Bool.and_comm]

/-- The operand of ARPL with the RPL of the register (R570). -/
theorem raisedRpl (d src : Word16) :
    (d &&& 0xFFFC) ||| (src &&& 3) = d.extractLsb' 2 14 ++ src.extractLsb' 0 2 := by
  rw [lowBits_eq, withRpl_eq]

theorem arpl_body {s : State} {rm : RM} {r : Fin 8} (hm : s.protectedMode = true) (h : arplReady s rm r = true) :
    (do requireProtected
        let s ← get
        let d ← readRM .w16 rm
        let src := s.reg .w16 r
        if (selRpl d).toNat < (selRpl src).toNat then
          writeLoc .w16 (s.locate rm) ((d &&& 0xFFFC) ||| (src &&& 3))
          putZf true
        else putZf false : M Unit) s = .ok () (arplAfter s rm r) := by
  simp only [arplReady, Bool.and_eq_true, Bool.or_eq_true, decide_eq_true_eq] at h
  obtain ⟨hr, hw⟩ := h
  refine (M_bind_ok (requireProtected_run hm)).trans <| (M_get_bind _ _).trans <| (M_bind_ok (readRM_flat hr)).trans ?_
  rw [arplAfter]
  by_cases hup : (selRpl (s.valueAt .w16 (s.locate rm))).toNat < (selRpl (s.reg .w16 r)).toNat
  · have hstore := hw.resolve_left (Nat.not_le.mpr hup)
    rw [← storable_afterRead s .w16 .w16 _ (s.locate rm)] at hstore
    have hup' : decide (((s.valueAt .w16 (s.locate rm) : Word16).extractLsb' 0 2).toNat <
        ((s.reg .w16 r).extractLsb' 0 2).toNat) = true := decide_eq_true hup
    rw [if_pos hup, M_bind_ok (writeLoc_flat _ hstore), hup', raisedRpl]
    rfl
  · have hup' : decide (((s.valueAt .w16 (s.locate rm) : Word16).extractLsb' 0 2).toNat <
        ((s.reg .w16 r).extractLsb' 0 2).toNat) = false := decide_eq_false hup
    rw [if_neg hup, hup']
    rfl

theorem arplReady_begun (s : State) (rm : RM) (r : Fin 8) : arplReady s.begun rm r = arplReady s rm r := by
  rw [arplReady, readable_begun, storable_begun, valueAt_begun]
  rfl

end Sys2Proof.Machine

open Sys2Proof Sys2Proof.Machine Sys2Proof.Claims

/-- Settles O55: each query reads its operand and looks at the descriptor it names; ARPL writes its operand only where it raises
the RPL. -/
theorem protectionQueries : Obligations.ProtectionQueries := by
  unfold Obligations.ProtectionQueries
  exact fun s hp hm => ⟨fun q => exec_query q hp hm, fun rm r h =>
    plain_next hp (arpl_body (s := s.begun) hm ((arplReady_begun s rm r).trans h))⟩
end

section
/-!
PROOF. IN and OUT: where ports are permitted, the order of the cycles of an access, and the transfers. It settles O56.
-/
namespace Sys2Proof.Machine

open Sys2Proof.Claims

theorem ioAllowed_iff (s : State) : s.ioAllowed = true ↔
    s.cr0.pe = false ∨ (s.flags.vm = true ∧ s.cfg.v86IoIoplSensitive = true ∧ s.flags.iopl.toNat = 3) ∨
    (s.flags.vm = false ∧ s.cpl.toNat ≤ s.flags.iopl.toNat) := by
  rw [State.ioAllowed, State.realMode, State.v86]
  cases s.cr0.pe
  · simp
  · cases s.flags.vm
    · simp [lvlLe_iff]
    · have hiopl : s.flags.iopl = 3#2 ↔ s.flags.iopl.toNat = 3 := BitVec.toNat_inj.symm
      simp [hiopl]

/-! ## The cycles of an access -/

/-- Where no device answers with BS16#, the bytes of one double word are one cycle (R85). -/
theorem dwordCycles_wide {narrow : Nat → Bool} {a : Nat} (h : narrow a = false) (bs : List Byte) :
    dwordCycles narrow a bs = cyclePart a bs := if_neg (ne_true_of_eq_false h)

theorem cyclePart_nil (a : Nat) : cyclePart a [] = [] := rfl

theorem cyclePart_of_ne_nil (a : Nat) {bs : List Byte} (h : bs ≠ []) : cyclePart a bs = [(a, bs)] :=
  if_neg (by simpa using h)

theorem isBus16_nil {s : State} (h : s.cfg.bus16 = []) (io : Bool) (a : Nat) : s.cfg.isBus16 io a = false := by
  rw [Config.isBus16, h]
  rfl

/-- The high part of an access across a double word comes first (R93); the newest cycle stands first. -/
theorem portCycles_wide {s : State} (h : s.cfg.bus16 = []) (f : Nat → List Byte → BusEvent) (port : Nat)
    {bs : List Byte} (hbs : bs ≠ []) :
    s.portCycles f port bs = if bs.length ≤ 4 - port % 4 then [f port bs]
      else [f port (bs.take (4 - port % 4)), f (port + (4 - port % 4)) (bs.drop (4 - port % 4))] := by
  have hk : 0 < 4 - port % 4 := by omega
  rw [State.portCycles, accessCycles, Sys2Proof.Machine.splitAt, List.splitAt_eq, dwordCycles_wide (isBus16_nil h ..),
    dwordCycles_wide (isBus16_nil h ..)]
  by_cases hlen : bs.length ≤ 4 - port % 4
  · rw [if_pos hlen, List.take_of_length_le hlen, List.drop_of_length_le hlen, cyclePart_nil, cyclePart_of_ne_nil _ hbs]
    rfl
  · have hlow : bs.take (4 - port % 4) ≠ [] := by
      rw [← List.length_pos_iff, List.length_take]
      omega
    have hhigh : bs.drop (4 - port % 4) ≠ [] := by
      rw [← List.length_pos_iff, List.length_drop]
      omega
    rw [if_neg hlen, cyclePart_of_ne_nil _ hlow, cyclePart_of_ne_nil _ hhigh,
      List.length_take_of_le (Nat.le_of_not_le hlen)]
    rfl

/-! ## The transfers -/

theorem inSteps_run {s : State} {w : Width} {p : Word16} (h : portsPermitted s p w.bytes = true) :
    inSteps w p s = .ok () ((afterIn s p w.bytes).setReg w eax (valueOf w (s.portBytes p w.bytes))) :=
  (M_bind_ok (ioCheck_permitted h)).trans (M_bind_ok (ioRead_run w p s))

theorem outSteps_run {s : State} {w : Width} {p : Word16} (h : portsPermitted s p w.bytes = true) :
    outSteps w p s = .ok () (afterOut s p (bytesOf w (s.reg w eax))) := M_bind_ok (ioCheck_permitted h)

theorem exec_inPort (f : InForm) (s : State) :
    exec (.inPort f) s = plain (do let s ← get; inSteps (inParts s f).1 (inParts s f).2) s := by cases f <;> rfl

theorem exec_outPort (f : OutForm) (s : State) :
    exec (.outPort f) s = plain (do let s ← get; outSteps (outParts s f).1 (outParts s f).2) s := by cases f <;> rfl

section Transfers

variable {s : State} (hp : s.prefixesOk false)
include hp

theorem exec_inPort_permitted (f : InForm) (h : portsPermitted s (inParts s f).2 (inParts s f).1.bytes = true) :
    exec (.inPort f) s = .next (retire s ((afterIn s.begun (inParts s f).2 (inParts s f).1.bytes).setReg (inParts s f).1
      eax (valueOf (inParts s f).1 (s.portBytes (inParts s f).2 (inParts s f).1.bytes))) .next) := by
  rw [exec_inPort]
  exact plain_next hp ((M_get_bind _ _).trans (inSteps_run (s := s.begun) h))

theorem exec_inPort_denied (f : InForm) (hf : s.flat = true)
    (h : portsPermitted s (inParts s f).2 (inParts s f).1.bytes = false) :
    exec (.inPort f) s = deliver s (s.faultEvent 13 (some 0)) := by
  rw [exec_inPort]
  exact plain_refused hp (by decide) ((M_get_bind _ _).trans (M_bind_error (ioCheck_denied (s := s.begun) hf h)))

theorem exec_outPort_permitted (f : OutForm) (h : portsPermitted s (outParts s f).2 (outParts s f).1.bytes = true) :
    exec (.outPort f) s = .next (retire s (afterOut s.begun (outParts s f).2
      (bytesOf (outParts s f).1 (s.reg (outParts s f).1 eax))) .next) := by
  rw [exec_outPort]
  exact plain_next hp ((M_get_bind _ _).trans (outSteps_run (s := s.begun) h))

theorem exec_outPort_denied (f : OutForm) (hf : s.flat = true)
    (h : portsPermitted s (outParts s f).2 (outParts s f).1.bytes = false) :
    exec (.outPort f) s = deliver s (s.faultEvent 13 (some 0)) := by
  rw [exec_outPort]
  exact plain_refused hp (by decide) ((M_get_bind _ _).trans (M_bind_error (ioCheck_denied (s := s.begun) hf h)))

end Transfers

end Sys2Proof.Machine

open Sys2Proof Sys2Proof.Machine Sys2Proof.Claims

/-- Settles O56: the check of the ports comes first, and a denied port leaves the state as it was. -/
theorem portTransfer : Obligations.PortTransfer := by
  unfold Obligations.PortTransfer
  exact ⟨ioAllowed_iff, fun s f port bs h hbs => portCycles_wide h f port hbs, fun s hp =>
    ⟨fun f => ⟨exec_inPort_permitted hp f, exec_inPort_denied hp f⟩,
      fun f => ⟨exec_outPort_permitted hp f, exec_outPort_denied hp f⟩⟩⟩
end

section
/-!
PROOF. The jumps that count, and near JMP, CALL and RET. It settles O40 and O41.
-/
namespace Sys2Proof.Machine

open Sys2Proof.Claims

/-! ## States after reads -/

/-- `t` is `s` with the instruction begun, or not yet, and after reads of memory with paging off: they leave nothing but matches
of breakpoints. -/
def ReadFrom (s t : State) : Prop := ∃ d sh, t = { s with trap := d, shadow := sh }

theorem ReadFrom.refl (s : State) : ReadFrom s s := ⟨s.trap, s.shadow, rfl⟩

theorem ReadFrom.trans {s t u : State} (hst : ReadFrom s t) (htu : ReadFrom t u) : ReadFrom s u := by
  obtain ⟨d, sh, rfl⟩ := hst
  obtain ⟨d', sh', rfl⟩ := htu
  exact ⟨d', sh', rfl⟩

theorem readFrom_begun (s : State) : ReadFrom s s.begun := ⟨s.trap, .none, rfl⟩

theorem readFrom_afterPeek (s : State) (sz : Size) (sp : Word32) : ReadFrom s (s.afterPeek sz sp) := ⟨_, s.shadow, rfl⟩

theorem readFrom_afterRead (s : State) (w : Width) (l : Loc) : ReadFrom s (s.afterRead w l) := by
  cases l <;> exact ⟨_, s.shadow, rfl⟩

section ReadFrom

variable {s t : State} (h : ReadFrom s t)
include h

theorem ReadFrom.canPeek (sz : Size) (sp : Word32) : t.canPeek sz sp = s.canPeek sz sp := by
  obtain ⟨d, sh, rfl⟩ := h
  rfl

theorem ReadFrom.peek (sz : Size) (sp : Word32) : t.peek sz sp = s.peek sz sp := by
  obtain ⟨d, sh, rfl⟩ := h
  rfl

theorem ReadFrom.sp : t.sp = s.sp := by
  obtain ⟨d, sh, rfl⟩ := h
  rfl

theorem ReadFrom.flags : t.flags = s.flags := by
  obtain ⟨d, sh, rfl⟩ := h
  rfl

theorem ReadFrom.ssz : t.ssz = s.ssz := by
  obtain ⟨d, sh, rfl⟩ := h
  rfl

theorem ReadFrom.rollback : s.rollback t = s := by
  obtain ⟨d, sh, rfl⟩ := h
  rfl

theorem ReadFrom.targetOk (v : Word32) : targetOk t v = targetOk s v := by
  obtain ⟨d, sh, rfl⟩ := h
  rfl

theorem ReadFrom.nearTarget (v : Word32) : t.nearTarget v = s.nearTarget v := by
  obtain ⟨d, sh, rfl⟩ := h
  rfl

theorem ReadFrom.nextEip : t.nextEip = s.nextEip := by
  obtain ⟨d, sh, rfl⟩ := h
  rfl

theorem ReadFrom.osz : t.osz = s.osz := by
  obtain ⟨d, sh, rfl⟩ := h
  rfl

theorem ReadFrom.canPush (sz : Size) : t.canPush sz = s.canPush sz := by
  obtain ⟨d, sh, rfl⟩ := h
  rfl

theorem ReadFrom.canPushItems (n k : Nat) : canPushItems t n k = canPushItems s n k := by
  obtain ⟨d, sh, rfl⟩ := h
  rfl

theorem ReadFrom.flat : t.flat = s.flat := by
  obtain ⟨d, sh, rfl⟩ := h
  rfl

theorem ReadFrom.cpl : t.cpl = s.cpl := by
  obtain ⟨d, sh, rfl⟩ := h
  rfl

theorem ReadFrom.protectedMode : t.protectedMode = s.protectedMode := by
  obtain ⟨d, sh, rfl⟩ := h
  rfl

theorem ReadFrom.namedDesc (sel : Word16) : namedDesc t sel = namedDesc s sel := by
  obtain ⟨d, sh, rfl⟩ := h
  rfl

theorem ReadFrom.namedAddr (sel : Word16) : namedAddr t sel = namedAddr s sel := by
  obtain ⟨d, sh, rfl⟩ := h
  rfl

theorem ReadFrom.namesSystem (sel : Word16) : namesSystem t sel = namesSystem s sel := by
  obtain ⟨d, sh, rfl⟩ := h
  rfl

theorem ReadFrom.directChecks (call : Bool) (sel : Word16) (off : Word32) :
    directChecks t call sel off = directChecks s call sel off := by
  obtain ⟨d, sh, rfl⟩ := h
  rfl

theorem ReadFrom.returnChecks (sel : Word16) : returnChecks t sel = returnChecks s sel := by
  obtain ⟨d, sh, rfl⟩ := h
  rfl

theorem ReadFrom.stackChecks (v : Byte) (n : BitVec 2) (sel : Word16) : stackChecks t v n sel = stackChecks s v n sel := by
  obtain ⟨d, sh, rfl⟩ := h
  rfl

theorem ReadFrom.frameItem (sz : Size) (k : Nat) : frameItem t sz k = frameItem s sz k := by
  obtain ⟨d, sh, rfl⟩ := h
  rfl

theorem ReadFrom.held (n : Nat) : held t n = held s n := by
  obtain ⟨d, sh, rfl⟩ := h
  rfl

end ReadFrom

/-! ## Near targets -/

theorem requireTarget_eq (t : Word32) (s : State) : requireTarget t s = require0 (targetOk s t) 13 s := rfl

theorem requireTarget_run {s : State} {t : Word32} (h : targetOk s t = true) : requireTarget t s = .ok () s := by
  rw [requireTarget_eq, h, require0_true_run]

theorem requireTarget_refused {s : State} {t : Word32} (h : targetOk s t = false) :
    requireTarget t s = .error (checkStop 13 0) s := by
  rw [requireTarget_eq, h]
  rfl

theorem nearBranch_run {s : State} {t : Word32} (h : targetOk s (s.nearTarget t) = true) :
    nearBranch t s = .ok .jump (jumped s (s.nearTarget t)) := M_bind_ok (requireTarget_run h)

theorem nearBranch_refused {s : State} {t : Word32} (h : targetOk s (s.nearTarget t) = false) :
    nearBranch t s = .error (checkStop 13 0) s :=
  (M_get_bind _ _).trans <| M_bind_error (requireTarget_refused h)

/-- With a 16-bit operand size a target is taken modulo 2^16 (R490). -/
theorem nearTarget_toNat (s : State) (v : Word32) :
    (s.nearTarget v).toNat = if s.osz = .s16 then v.toNat % 2 ^ 16 else v.toNat := by
  rw [State.nearTarget, wrapTo_toNat]
  cases s.osz
  · rfl
  · exact Nat.mod_eq_of_lt v.isLt

/-! ## LOOP, LOOPE, LOOPNE, JCXZ -/

theorem decode_countJump (j : CountJump) (d : Byte) (osz asz : Size) (rest : List Byte) :
    decode osz asz (j.opcode :: d :: rest) = some (.instr (j.instr d), rest) := by cases j <;> rfl

/-- The counting changes registers alone. -/
theorem counted_frame (j : CountJump) (s : State) : j.counted s = { s with regs := (j.counted s).regs } := by
  cases j
  case jcxz => rfl
  all_goals exact setAddrReg_frame ..

theorem rollback_counted (j : CountJump) (s : State) : s.rollback (j.counted s.begun) = s := by
  rw [counted_frame]
  rfl

theorem targetOk_counted (j : CountJump) (s : State) (t : Word32) : targetOk (j.counted s.begun) t = targetOk s t := by
  rw [counted_frame]
  rfl

theorem nearTarget_counted (j : CountJump) (s : State) (d : Word32) :
    (j.counted s.begun).nearTarget ((j.counted s.begun).nextEip + d) = s.nearTarget (s.nextEip + d) := by
  rw [counted_frame]
  rfl

/-- The instruction counts and then branches on its condition. -/
theorem exec_countJump (j : CountJump) (d : Byte) (s : State) :
    ∃ body : M Retire, exec (j.instr d) s = transfer body s ∧
      body s.begun = branchIf (j.taken (j.counted s.begun)) (d.signExtend 32) (j.counted s.begun) := by
  cases j
  case loop =>
    refine ⟨_, rfl, ?_⟩
    rw [loopSteps, M_modify_bind, M_get_bind, Bool.and_true]
    rfl
  all_goals exact ⟨_, rfl, rfl⟩

section CountJump

variable {s : State} {j : CountJump} (d : Byte) (hp : s.prefixesOk false)
include hp

theorem exec_countJump_stays (h : j.taken (j.counted s.begun) = false) :
    exec (j.instr d) s = .next (retire s (j.counted s.begun) .next) := by
  obtain ⟨body, hexec, hbody⟩ := exec_countJump j d s
  rw [h] at hbody
  exact hexec.trans (transfer_next hp hbody)

theorem exec_countJump_jumps (h : j.taken (j.counted s.begun) = true)
    (ht : targetOk s (s.nearTarget (s.nextEip + d.signExtend 32)) = true) :
    exec (j.instr d) s =
      .next (retire s (jumped (j.counted s.begun) (s.nearTarget (s.nextEip + d.signExtend 32))) .jump) := by
  obtain ⟨body, hexec, hbody⟩ := exec_countJump j d s
  rw [← nearTarget_counted j, ← targetOk_counted j] at ht
  rw [h, branchIf, if_pos rfl, branchBy, M_get_bind, nearBranch_run ht, nearTarget_counted] at hbody
  exact hexec.trans (transfer_next hp hbody)

theorem exec_countJump_refused (h : j.taken (j.counted s.begun) = true)
    (ht : targetOk s (s.nearTarget (s.nextEip + d.signExtend 32)) = false) :
    exec (j.instr d) s = deliver s (s.faultEvent 13 (some 0)) := by
  obtain ⟨body, hexec, hbody⟩ := exec_countJump j d s
  rw [← nearTarget_counted j, ← targetOk_counted j] at ht
  rw [h, branchIf, if_pos rfl, branchBy, M_get_bind, nearBranch_refused ht] at hbody
  exact (hexec.trans (transfer_exc hp (by decide) hbody)).trans (by rw [rollback_counted])

end CountJump

/-! ## Near JMP, CALL and RET -/

/-- CALL after its operand has been read. -/
theorem callNear_run {s : State} {t : Word32} (h : targetOk s (s.nearTarget t) = true) (hpush : s.canPush s.osz = true) :
    callNear t s = .ok .jump (jumped (s.pushed s.osz s.nextEip) (s.nearTarget t)) :=
  (M_bind_ok (requireTarget_run h)).trans (M_bind_ok (push_flat _ hpush))

theorem callNear_refused {s : State} {t : Word32} (h : targetOk s (s.nearTarget t) = false) :
    callNear t s = .error (checkStop 13 0) s :=
  (M_get_bind _ _).trans <| M_bind_error (requireTarget_refused h)

theorem readSized_run {s : State} {sz : Size} {rm : RM} (h : s.readable sz.width (s.locate rm) = true) :
    readSized sz rm s = .ok ((s.valueAt sz.width (s.locate rm)).zeroExtend 32) (s.afterRead sz.width (s.locate rm)) :=
  M_bind_ok (readRM_flat h)

theorem near_after (s : State) (f : NearForm) : ReadFrom s (f.after s.begun) := by
  cases f with
  | indirect rm => exact (readFrom_begun s).trans (readFrom_afterRead ..)
  | rel d => exact readFrom_begun s
  | relByte d => exact readFrom_begun s

theorem readSized_begun {s : State} {rm : RM} (h : s.readable s.osz.width (s.locate rm) = true) :
    readSized s.osz rm s.begun =
      .ok (NearForm.target s (.indirect rm)) (NearForm.after s.begun (.indirect rm)) := by
  refine (readSized_run (s := s.begun) ((readable_begun ..).trans h)).trans ?_
  rw [valueAt_begun]
  rfl

/-- A near jump is a branch once its operand has been read. -/
theorem exec_near_jmp {s : State} {f : NearForm} (h : f.ready s = true) :
    ∃ body : M Retire, exec f.jmp s = transfer body s ∧ body s.begun = nearBranch (f.target s) (f.after s.begun) := by
  cases f with
  | rel d => cases d <;> exact ⟨_, rfl, rfl⟩
  | relByte d => exact ⟨_, rfl, rfl⟩
  | indirect rm => exact ⟨_, rfl, (M_get_bind _ _).trans (M_bind_ok (readSized_begun h))⟩

theorem exec_near_call {s : State} {f : NearForm} {i : Instr} (hc : f.call = some i) (h : f.ready s = true) :
    ∃ body : M Retire, exec i s = transfer body s ∧ body s.begun = callNear (f.target s) (f.after s.begun) := by
  cases f with
  | rel d =>
    cases hc
    cases d <;> exact ⟨_, rfl, rfl⟩
  | relByte d => cases hc
  | indirect rm =>
    cases hc
    exact ⟨_, rfl, (M_get_bind _ _).trans (M_bind_ok (readSized_begun h))⟩

section Near

variable {s : State} {f : NearForm} (hp : s.prefixesOk false) (hr : f.ready s = true)
include hp hr

theorem exec_near_jmp_jumps (ht : targetOk s (s.nearTarget (f.target s)) = true) :
    exec f.jmp s = .next (retire s (jumped (f.after s.begun) (s.nearTarget (f.target s))) .jump) := by
  obtain ⟨body, hexec, hbody⟩ := exec_near_jmp hr
  have hfrom := near_after s f
  have hrun := nearBranch_run (s := f.after s.begun) (t := f.target s)
  rw [hfrom.nearTarget, hfrom.targetOk] at hrun
  exact hexec.trans (transfer_next hp (hbody.trans (hrun ht)))

theorem exec_near_jmp_refused (ht : targetOk s (s.nearTarget (f.target s)) = false) :
    exec f.jmp s = deliver s (s.faultEvent 13 (some 0)) := by
  obtain ⟨body, hexec, hbody⟩ := exec_near_jmp hr
  have hfrom := near_after s f
  have hrun := nearBranch_refused (s := f.after s.begun) (t := f.target s)
  rw [hfrom.nearTarget, hfrom.targetOk] at hrun
  refine (hexec.trans (transfer_exc hp (by decide) (hbody.trans (hrun ht)))).trans ?_
  rw [hfrom.rollback]

theorem exec_near_call_jumps {i : Instr} (hc : f.call = some i) (ht : targetOk s (s.nearTarget (f.target s)) = true)
    (hpush : s.canPush s.osz = true) :
    exec i s = .next (retire s
      (jumped ((f.after s.begun).pushed s.osz s.nextEip) (s.nearTarget (f.target s))) .jump) := by
  obtain ⟨body, hexec, hbody⟩ := exec_near_call hc hr
  have hfrom := near_after s f
  have hrun := callNear_run (s := f.after s.begun) (t := f.target s)
  rw [hfrom.nearTarget, hfrom.targetOk, hfrom.osz, hfrom.canPush, hfrom.nextEip] at hrun
  exact hexec.trans (transfer_next hp (hbody.trans (hrun ht hpush)))

theorem exec_near_call_refused {i : Instr} (hc : f.call = some i)
    (ht : targetOk s (s.nearTarget (f.target s)) = false) :
    exec i s = deliver s (s.faultEvent 13 (some 0)) := by
  obtain ⟨body, hexec, hbody⟩ := exec_near_call hc hr
  have hfrom := near_after s f
  have hrun := callNear_refused (s := f.after s.begun) (t := f.target s)
  rw [hfrom.nearTarget, hfrom.targetOk] at hrun
  refine (hexec.trans (transfer_exc hp (by decide) (hbody.trans (hrun ht)))).trans ?_
  rw [hfrom.rollback]

end Near

/-! ## RET -/

/-- A pop changes registers and matches of breakpoints alone. -/
theorem popped_frame (s : State) (sz : Size) :
    s.popped sz = { s with regs := (s.popped sz).regs, trap := (s.popped sz).trap } := by
  rw [State.popped, State.setSp, setAddrReg_frame]
  rfl

theorem pop_run {s : State} {sz : Size} (h : s.canPeek sz s.sp = true) :
    pop sz s = .ok (s.peek sz s.sp) (s.popped sz) := pop_flat h

theorem canPeek_begun (s : State) (sz : Size) (sp : Word32) : s.begun.canPeek sz sp = s.canPeek sz sp :=
  canAccess_begun ..

theorem peek_begun (s : State) (sz : Size) (sp : Word32) : s.begun.peek sz sp = s.peek sz sp := by
  rw [State.peek, operandBytes_begun]
  rfl

theorem rollback_popped (s : State) (sz : Size) : s.rollback (s.begun.popped sz) = s := by
  rw [popped_frame]
  rfl

theorem targetOk_popped (s : State) (sz : Size) (t : Word32) : targetOk (s.begun.popped sz) t = targetOk s t := by
  rw [popped_frame]
  rfl

/-- A near return is its steps with the bytes it releases. -/
theorem exec_retNear (n : Option Word16) (s : State) :
    ∃ iw : Word16, iw.toNat = released n ∧ exec (retInstr n) s = transfer (retNear iw) s := by
  cases n with
  | none => exact ⟨0, rfl, rfl⟩
  | some n => exact ⟨n, rfl, rfl⟩

/-- The return address of a near return. -/
theorem retNear_pop {s : State} (h : s.canPeek s.osz s.sp = true) (iw : Word16) :
    retNear iw s.begun = (do
      requireTarget (s.peek s.osz s.sp)
      modify fun s => s.setSp (s.spAbove s.sp iw.toNat)
      branchTo (s.peek s.osz s.sp)
      return .jump : M Retire) (s.begun.popped s.osz) := by
  have hpop := pop_run (s := s.begun) (sz := s.osz) ((canPeek_begun ..).trans h)
  rw [peek_begun] at hpop
  exact (M_get_bind _ _).trans (M_bind_ok hpop)

theorem exec_retNear_returns {s : State} (hp : s.prefixesOk false) (n : Option Word16)
    (h : s.canPeek s.osz s.sp = true) (ht : targetOk s (s.peek s.osz s.sp) = true) :
    let u := s.begun.popped s.osz
    exec (retInstr n) s =
      .next (retire s (jumped (u.setSp (u.spAbove u.sp (released n))) (s.peek s.osz s.sp)) .jump) := by
  obtain ⟨iw, hiw, hexec⟩ := exec_retNear n s
  have hbody := retNear_pop h iw
  rw [← targetOk_popped s s.osz] at ht
  rw [M_bind_ok (requireTarget_run ht), hiw] at hbody
  exact hexec.trans (transfer_next hp hbody)

theorem exec_retNear_refused {s : State} (hp : s.prefixesOk false) (n : Option Word16)
    (h : s.canPeek s.osz s.sp = true) (ht : targetOk s (s.peek s.osz s.sp) = false) :
    exec (retInstr n) s = deliver s (s.faultEvent 13 (some 0)) := by
  obtain ⟨iw, -, hexec⟩ := exec_retNear n s
  have hbody := retNear_pop h iw
  rw [← targetOk_popped s s.osz] at ht
  rw [M_bind_error (requireTarget_refused ht)] at hbody
  exact (hexec.trans (transfer_exc hp (by decide) hbody)).trans (by rw [rollback_popped])

end Sys2Proof.Machine

open Sys2Proof Sys2Proof.Machine Sys2Proof.Claims

/-- Settles O40: the instruction counts first, and a fault takes the counting back. -/
theorem countedJumps : Obligations.CountedJumps := by
  unfold Obligations.CountedJumps
  exact ⟨decode_countJump, fun j d s hp =>
    ⟨exec_countJump_stays d hp, exec_countJump_jumps d hp, exec_countJump_refused d hp⟩⟩

/-- Settles O41: the target is tested before a push, and after the pop of a return. -/
theorem nearTransferResult : Obligations.NearTransferResult := by
  unfold Obligations.NearTransferResult
  refine ⟨nearTarget_toNat, fun s hp => ⟨fun f hr => ⟨fun ht => ?_, fun ht => ?_⟩, fun n h => ?_⟩⟩
  · exact ⟨exec_near_jmp_jumps hp hr ht, fun i hc => exec_near_call_jumps hp hr hc ht⟩
  · exact ⟨exec_near_jmp_refused hp hr ht, fun i hc => exec_near_call_refused hp hr hc ht⟩
  · exact ⟨exec_retNear_returns hp n h, exec_retNear_refused hp n h⟩
end

section
/-!
PROOF. The items of the stack read from the stack pointer upward, and far JMP, CALL and RET outside protected mode. It settles
O42.
-/
namespace Sys2Proof.Machine

open Sys2Proof.Claims

/-! ## Items of the stack -/

theorem wrapTo_wrapTo (sz : Size) (v : Word32) : wrapTo sz (wrapTo sz v) = wrapTo sz v := by
  apply BitVec.eq_of_toNat_eq
  rw [wrapTo_toNat, wrapTo_toNat, Nat.mod_mod]

theorem wrapTo_sp (s : State) : wrapTo s.ssz s.sp = s.sp := by
  rw [State.sp, addrReg_eq, wrapTo_wrapTo]

/-- Going up from a wrapped place is going up from the place. -/
theorem wrapTo_wrapTo_add (sz : Size) (v : Word32) (n : Nat) :
    wrapTo sz (wrapTo sz v + BitVec.ofNat 32 n) = wrapTo sz (v + BitVec.ofNat 32 n) := by
  apply BitVec.eq_of_toNat_eq
  rw [wrapTo_toNat, wrapTo_toNat, BitVec.toNat_add, BitVec.toNat_add, wrapTo_toNat, BitVec.toNat_ofNat]
  cases sz <;> simp only [modulus] <;> omega

theorem above_zero (s : State) (n : Nat) : above s n 0 = s.sp := by
  rw [above, Nat.mul_zero, show BitVec.ofNat 32 0 = 0#32 from rfl, BitVec.add_zero, wrapTo_sp]

theorem spAbove_above (s : State) (n k : Nat) : s.spAbove (above s n k) n = above s n (k + 1) := by
  rw [State.spAbove, above, wrapTo_wrapTo_add, BitVec.add_assoc, ← BitVec.ofNat_add, ← Nat.mul_succ]
  rfl

theorem spAbove_sp (s : State) (n : Nat) : s.spAbove s.sp n = above s n 1 := by
  rw [← spAbove_above, above_zero]

theorem item_begun (s : State) (sz : Size) (k : Nat) : item s.begun sz k = item s sz k := peek_begun ..

theorem canPeekItems_begun (s : State) (sz : Size) (k : Nat) : canPeekItems s.begun sz k = canPeekItems s sz k := by
  have hitem (sp : Word32) : s.begun.canPeek sz sp = s.canPeek sz sp := canPeek_begun ..
  simp only [canPeekItems, hitem]
  rfl

theorem canPeek_item {s : State} {sz : Size} {n k : Nat} (h : canPeekItems s sz n = true) (hk : k < n) :
    s.canPeek sz (above s sz.bytes k) = true := List.all_eq_true.1 h k (List.mem_range.2 hk)

/-- A read of item `k` of the stack of `s` after other reads. -/
theorem stackRead_item {s t : State} {sz : Size} {n k : Nat} (ht : ReadFrom s t) (h : canPeekItems s sz n = true)
    (hk : k < n) :
    stackRead sz (above s sz.bytes k) t = .ok (item s sz k) (t.afterPeek sz (above s sz.bytes k)) := by
  rw [stackRead_flat ((ht.canPeek ..).trans (canPeek_item h hk)), ht.peek]
  rfl

/-- `t` after the items `k`, `k + 1`, …, `n` of them, of the stack of `s` have been read. -/
def afterItemsFrom (s : State) (sz : Size) (k n : Nat) (t : State) : State :=
  (List.range' k n).foldl (fun t i => t.afterPeek sz (above s sz.bytes i)) t

theorem afterItems_eq (s : State) (sz : Size) (n : Nat) : afterItems s sz n = afterItemsFrom s sz 0 n s := by
  rw [afterItems, afterItemsFrom, List.range_eq_range']

theorem readFrom_afterItemsFrom (s : State) (sz : Size) (k n : Nat) (t : State) :
    ReadFrom t (afterItemsFrom s sz k n t) := by
  induction n generalizing k t with
  | zero => exact .refl t
  | succ n ih => exact (readFrom_afterPeek ..).trans (ih (k + 1) _)

theorem readFrom_afterItems (s : State) (sz : Size) (n : Nat) : ReadFrom s (afterItems s sz n) := by
  rw [afterItems_eq]
  exact readFrom_afterItemsFrom ..

/-- The items of a stack, read one after the other (R478, R504). -/
theorem stackItems_run {s t : State} {sz : Size} {k n m : Nat} (ht : ReadFrom s t) (h : canPeekItems s sz m = true)
    (hm : k + n ≤ m) :
    stackItems sz (above s sz.bytes k) n t =
      .ok ((List.range' k n).map (item s sz)) (afterItemsFrom s sz k n t) := by
  induction n generalizing k t with
  | zero => rfl
  | succ n ih =>
    have hfrom := ht.trans (readFrom_afterPeek t sz (above s sz.bytes k))
    have hup : (t.afterPeek sz (above s sz.bytes k)).spAbove (above s sz.bytes k) sz.bytes = above s sz.bytes (k + 1) := by
      obtain ⟨d, sh, hd⟩ := hfrom
      rw [hd, ← spAbove_above]
      rfl
    rw [stackItems, M_bind_ok (stackRead_item ht h (by omega)), M_get_bind, hup,
      M_bind_ok (ih hfrom (by omega))]
    rfl

theorem stackItems_sp_run {s : State} {sz : Size} {n : Nat} (h : canPeekItems s sz n = true) :
    stackItems sz s.sp n s = .ok ((List.range n).map (item s sz)) (afterItems s sz n) := by
  rw [← above_zero s sz.bytes, stackItems_run (.refl s) h (by omega), afterItems_eq, List.range_eq_range']

/-! ## Far transfers outside protected mode -/

theorem callRoom_run {s : State} {call : Bool} {sz : Size} (h : call = true → canPushItems s sz.bytes 2 = true) :
    callRoom (viaOf call) sz s = .ok () s := by
  cases call
  case false => rfl
  case true => exact requireRoom_run (h rfl)

theorem pushReturn_run {s : State} {call : Bool} {sz : Size} (h : call = true → canPushItems s sz.bytes 2 = true) :
    pushReturn (viaOf call) sz s = .ok () (callPushed s call sz) := by
  cases call
  case false => rfl
  case true => exact (M_get_bind _ _).trans (pushAll_flat [s.cs.selector.zeroExtend 32, s.nextEip] (h rfl))

theorem farReal_run (sel : Word16) (off : Word32) (s : State) : farReal sel off s = .ok () (farJumped s sel off) := rfl

theorem farSteps_real {s : State} {call : Bool} {sel : Word16} {off : Word32} (hm : s.protectedMode = false)
    (hroom : call = true → canPushItems s s.osz.bytes 2 = true) (ht : targetOk s off = true) :
    farSteps (viaOf call) sel off s = .ok .jump (farJumped (callPushed s call s.osz) sel off) := by
  rw [farSteps, M_get_bind, hm, if_neg Bool.false_ne_true, farRealSteps, M_get_bind, M_bind_ok (callRoom_run hroom),
    M_bind_ok (requireTarget_run ht), M_bind_ok (pushReturn_run hroom)]
  rfl

theorem far_readFrom (s : State) (f : FarForm) : ReadFrom s (f.after s.begun) := by
  obtain ⟨d, hd⟩ := far_after s f
  exact ⟨d, .none, hd⟩

theorem exec_far_real {s : State} (hp : s.prefixesOk false) (hm : s.protectedMode = false) {call : Bool} {f : FarForm}
    (hr : f.ready s = true) (ht : targetOk s (f.pointer s).1 = true)
    (hroom : call = true → canPushItems s s.osz.bytes 2 = true) :
    exec (f.instr call) s = .next (retire s
      (farJumped (callPushed (f.after s.begun) call s.osz) (f.pointer s).2 (f.pointer s).1) .jump) := by
  obtain ⟨body, hexec, hbody⟩ := exec_far call hr
  have hfrom := far_readFrom s f
  have hrun := farSteps_real (s := f.after s.begun) (call := call) (sel := (f.pointer s).2) (off := (f.pointer s).1)
  rw [hfrom.protectedMode, hfrom.osz, hfrom.targetOk, hfrom.canPushItems] at hrun
  exact hexec.trans (transfer_next hp (hbody.trans (hrun hm hroom ht)))

/-- A far return is its steps with the bytes it releases. -/
theorem exec_retFar (n : Option Word16) (s : State) :
    ∃ iw : Word16, iw.toNat = released n ∧ exec (farRetInstr n) s = transfer (retFar iw) s := by
  cases n with
  | none => exact ⟨0, rfl, rfl⟩
  | some n => exact ⟨n, rfl, rfl⟩

theorem retFar_real {s : State} {iw : Word16} (hm : s.protectedMode = false) (h : canPeekItems s s.osz 2 = true)
    (ht : targetOk s (item s s.osz 0) = true) :
    let t := (afterItems s s.osz 2).setSp (wrapTo s.ssz (s.sp + BitVec.ofNat 32 (2 * s.osz.bytes + iw.toNat)))
    retFar iw s = .ok .jump (farJumped t ((item s s.osz 1).truncate 16) (item s s.osz 0)) := by
  have hoff := stackRead_item (.refl s) h (show 0 < 2 by decide)
  have hfrom := readFrom_afterPeek s s.osz (above s s.osz.bytes 0)
  have hsel := stackRead_item hfrom h (show 1 < 2 by decide)
  rw [above_zero] at hoff
  rw [retFar, M_get_bind, hm, if_neg Bool.false_ne_true, M_bind_ok hoff, spAbove_sp]
  rw [above_zero] at hsel hfrom
  have ht' : targetOk ((s.afterPeek s.osz s.sp).afterPeek s.osz (above s s.osz.bytes 1)) (item s s.osz 0) = true :=
    (hfrom.trans (readFrom_afterPeek ..)).targetOk _ |>.trans ht
  rw [M_bind_ok hsel, M_bind_ok (requireTarget_run ht'), M_modify_bind, M_bind_ok (farReal_run ..), afterItems_eq]
  have hitems : afterItemsFrom s s.osz 0 2 s = (s.afterPeek s.osz s.sp).afterPeek s.osz (above s s.osz.bytes 1) := by
    rw [← above_zero s s.osz.bytes]
    rfl
  rw [hitems]
  rfl

end Sys2Proof.Machine

open Sys2Proof Sys2Proof.Machine Sys2Proof.Claims

/-- Settles O42: a call has its room and its target tested before it pushes; a return reads its two items first. -/
theorem farTransferReal : Obligations.FarTransferReal := by
  unfold Obligations.FarTransferReal
  refine fun s hp hm => ⟨fun call f hr ht hroom => exec_far_real hp hm hr ht hroom, fun n h ht => ?_⟩
  intro t
  obtain ⟨iw, hiw, hexec⟩ := exec_retFar n s
  have hbody := retFar_real (s := s.begun) (iw := iw) hm ((canPeekItems_begun ..).trans h) (by rwa [item_begun])
  rw [item_begun, item_begun, hiw] at hbody
  exact hexec.trans (transfer_next hp hbody)
end

section
/-!
PROOF. The forms of POP, POPF and POPA, and the frames of ENTER and LEAVE. It settles O37 and O38.
-/
namespace Sys2Proof.Machine

open Sys2Proof.Claims

/-! ## Numbers -/

theorem spAbove_toNat (s : State) (v : Word32) (n : Nat) : (s.spAbove v n).toNat = (v.toNat + n) % modulus s.ssz := by
  rw [State.spAbove, wrapTo_toNat, BitVec.toNat_add, BitVec.toNat_ofNat]
  cases s.ssz <;> simp only [modulus] <;> omega

theorem operandBytes_length (s : State) (r : SReg) (off : Word32) (n : Nat) : (s.operandBytes r off n).length = n := by
  simp [State.operandBytes, byteAddrs]

/-- A stack item is the number its bytes make, the lowest first (R470). -/
theorem peek_toNat (s : State) (sz : Size) (sp : Word32) :
    (s.peek sz sp).toNat = natOfBytes (s.operandBytes .ss sp sz.bytes) ∧ (s.peek sz sp).toNat < modulus sz := by
  have hlt := natOfBytes_lt (s.operandBytes .ss sp sz.bytes)
  rw [operandBytes_length] at hlt
  have hsize : 2 ^ (8 * sz.bytes) = modulus sz := by cases sz <;> rfl
  have hword : modulus sz ≤ 2 ^ 32 := by cases sz <;> decide
  rw [hsize] at hlt
  have hnat : (s.peek sz sp).toNat = natOfBytes (s.operandBytes .ss sp sz.bytes) := by
    rw [State.peek, BitVec.toNat_ofNat, Nat.mod_eq_of_lt (Nat.lt_of_lt_of_le hlt hword)]
  exact ⟨hnat, hnat ▸ hlt⟩

theorem peek_byte (s : State) (sz : Size) (v : Word32) {k : Nat} (hk : k < sz.bytes) :
    (s.peek sz v).toNat / 2 ^ (8 * k) % 2 ^ 8 =
      (s.physByte (BitVec.ofNat 32 (s.ss.base.toNat + v.toNat + k))).toNat := by
  have hlen : k < (s.operandBytes .ss v sz.bytes).length := by rwa [operandBytes_length]
  rw [(peek_toNat s sz v).1, natOfBytes_byte hlen]
  simp only [State.operandBytes, List.getElem_map, byteAddrs_getElem, linear_add_ofNat]
  rfl

/-- The flags POPF changes, and at which level (R481). -/
theorem poppedFlags_bits (s : State) (v : Word32) : let f := s.poppedFlags v
    (∀ p ∈ [(0, f.cf), (2, f.pf), (4, f.af), (6, f.zf), (7, f.sf), (8, f.tf), (10, f.df), (11, f.ovf), (14, f.nt)],
      p.2 = v.getLsbD p.1) ∧
    f.iopl = (if s.cpl = 0 then v.extractLsb' 12 2 else s.flags.iopl) ∧
    f.intf = (if s.cpl.toNat ≤ s.flags.iopl.toNat then v.getLsbD 9 else s.flags.intf) ∧
    f.rf = s.flags.rf ∧ f.vm = s.flags.vm := by
  refine ⟨?_, ?_, ?_, rfl, rfl⟩
  · simp only [List.forall_mem_cons, List.not_mem_nil, false_implies, implies_true, and_true]
    exact ⟨rfl, rfl, rfl, rfl, rfl, rfl, rfl, rfl, rfl⟩
  · simp only [State.poppedFlags, beq_iff_eq]
    rfl
  · simp only [State.poppedFlags, lvlLe_iff]
    rfl

/-! ## The forms of POP -/

/-- The first item of the stack, and what a pop of it leaves. -/
theorem pop_begun {s : State} (h : s.canPeek s.osz s.sp = true) :
    pop s.osz s.begun = .ok (s.peek s.osz s.sp) (s.begun.popped s.osz) := by
  have hpop := pop_run (s := s.begun) (sz := s.osz) ((canPeek_begun ..).trans h)
  rwa [peek_begun] at hpop

/-- The seven forms of POP Sreg are one body. -/
theorem exec_popSeg (p : PopSeg) (s : State) : exec p.instr s = plain (popSeg p.reg) s := by cases p <;> rfl

/-- POP Sreg after its item has been read. -/
theorem popSeg_read {s : State} {r : SReg} (h : s.canPeek s.osz s.sp = true) :
    popSeg r s = (do
      loadSeg r ((s.peek s.osz s.sp).truncate 16)
      modify fun t => t.setSp (t.spAbove t.sp s.osz.bytes)
      if r = .ss then modify fun t => { t with shadow := .ss } : M Unit) (s.afterPeek s.osz s.sp) :=
  (M_get_bind _ _).trans (M_bind_ok (stackRead_flat h))

theorem popSeg_run {s : State} {r : SReg} (h : s.canPeek s.osz s.sp = true)
    (hl : segLoads s r ((s.peek s.osz s.sp).truncate 16) = true) : popSeg r s = .ok () (popSegAfter r s) := by
  rw [popSeg_read h, M_bind_ok (loadSeg_run (s := s.afterPeek s.osz s.sp) hl), M_modify_bind, popSegAfter, ssShadow]
  split <;> rfl

theorem popSeg_refused {s : State} {r : SReg} {v : Byte} {c : Word32} (h : s.canPeek s.osz s.sp = true)
    (hm : s.protectedMode = true) (hc : firstFailing (segChecks s r ((s.peek s.osz s.sp).truncate 16)) = some (v, c)) :
    popSeg r s = .error (checkStop v c) (s.afterPeek s.osz s.sp) := by
  have hflat : s.flat = true := (Bool.and_eq_true_iff.1 h).1
  rw [popSeg_read h]
  exact M_bind_error ((loadSeg_checks (s := s.afterPeek s.osz s.sp) hflat hm).trans (afterChecks_of_some hc ..))

section Pop

variable {s : State} (hp : s.prefixesOk false) (h : s.canPeek s.osz s.sp = true)
include hp h

theorem exec_pop_register (r : Fin 8) : exec (.pop (.r r)) s =
    .next (retire s ((s.begun.popped s.osz).setAddrReg s.osz r (s.peek s.osz s.sp)) .next) :=
  plain_next hp ((M_get_bind _ _).trans (M_bind_ok (pop_begun h)))

theorem exec_pop_place (rm : RM) (hw : (s.begun.popped s.osz).storable s.osz.width ((s.begun.popped s.osz).locate rm) = true) :
    exec (.pop (.ev rm)) s = .next (retire s ((s.begun.popped s.osz).afterWrite s.osz.width
      ((s.begun.popped s.osz).locate rm) ((s.peek s.osz s.sp).truncate s.osz.width.bits)) .next) :=
  plain_next hp ((M_get_bind _ _).trans ((M_bind_ok (pop_begun h)).trans (writeRM_flat _ hw)))

theorem exec_popSeg_loads (p : PopSeg) (hl : segLoads s p.reg ((s.peek s.osz s.sp).truncate 16) = true) :
    exec p.instr s = .next (retire s (popSegAfter p.reg s.begun) .next) := by
  rw [exec_popSeg]
  exact plain_next hp (popSeg_run (s := s.begun) ((canPeek_begun ..).trans h) ((peek_begun s s.osz s.sp).symm ▸ hl))

theorem exec_popSeg_refused (p : PopSeg) {v : Byte} {c : Word32} (hm : s.protectedMode = true)
    (hc : firstFailing (segChecks s p.reg ((s.peek s.osz s.sp).truncate 16)) = some (v, c)) :
    exec p.instr s = deliver s (s.faultEvent v (some c)) := by
  have hbody := popSeg_refused (s := s.begun) (r := p.reg) ((canPeek_begun ..).trans h) hm
    ((peek_begun s s.osz s.sp).symm ▸ hc)
  rw [exec_popSeg]
  exact (plain_exc hp (segChecks_vector hc) hbody).trans (by rw [((readFrom_begun s).trans (readFrom_afterPeek ..)).rollback])

theorem exec_popf (ha : s.v86Allowed = true) : exec .popf s =
    .next (retire s ((s.begun.popped s.osz).withFlags (s.poppedFlags (s.peek s.osz s.sp))) .next) := by
  have hsame : (s.begun.popped s.osz).poppedFlags (s.peek s.osz s.sp) = s.poppedFlags (s.peek s.osz s.sp) := by
    rw [popped_frame]
    rfl
  have hallowed : s.begun.v86Allowed = true := ha
  refine plain_next hp ((M_get_bind _ _).trans <| (require0_passed hallowed ..).trans <| (M_bind_ok (pop_begun h)).trans ?_)
  rw [M_modify, hsame]
  rfl

end Pop

/-- The stack pointer past `k` items, as a step up from where it stands. -/
theorem spAbove_block (s : State) (n k : Nat) : s.spAbove s.sp (k * n) = above s n k := by
  rw [State.spAbove, above, Nat.mul_comm]

theorem popaSteps_run {s : State} (h : canPeekItems s s.osz 8 = true) : popaSteps s = .ok () (popaAfter s) := by
  have hfrom := readFrom_afterItems s s.osz 8
  have hup : (afterItems s s.osz 8).spAbove (afterItems s s.osz 8).sp (8 * s.osz.bytes) = above s s.osz.bytes 8 := by
    rw [← spAbove_block]
    obtain ⟨d, sh, hd⟩ := hfrom
    rw [hd]
    rfl
  rw [popaSteps, M_get_bind, M_bind_ok (stackItems_sp_run h), M_modify_bind, hup]
  rfl

theorem exec_popa {s : State} (hp : s.prefixesOk false) (h : canPeekItems s s.osz 8 = true) :
    exec .popa s = .next (retire s (popaAfter s.begun) .next) :=
  plain_next hp (popaSteps_run (s := s.begun) ((canPeekItems_begun ..).trans h))

/-! ## ENTER and LEAVE -/

/-- The frame pointer moved down by one item, as wide as the stack pointer (R483). -/
theorem addrReg_framePointer (s : State) (n : Nat) :
    let p := s.spBelow (s.addrReg s.ssz ebp) n
    let t := s.setAddrReg s.ssz ebp p
    t.addrReg t.ssz ebp = p := by
  intro p t
  have hssz : t.ssz = s.ssz := by
    rw [show t = { s with regs := t.regs } from setAddrReg_frame ..]
    rfl
  rw [hssz, addrReg_setAddrReg_same]
  exact wrapTo_wrapTo ..

theorem copyDisplay_run (sz : Size) (n : Nat) {s : State} (h : canCopyDisplay sz n s = true) :
    copyDisplay sz n s = .ok () (displayCopied sz n s) := by
  induction n generalizing s with
  | zero => rfl
  | succ n ih =>
    simp only [canCopyDisplay, Bool.and_eq_true] at h
    obtain ⟨⟨hpeek, hpush⟩, hrest⟩ := h
    rw [copyDisplay, M_modify_bind, M_get_bind, addrReg_framePointer, M_bind_ok (stackRead_flat hpeek),
      M_bind_ok (push_flat _ hpush)]
    exact ih hrest

/-! The shadow, which is over when an instruction begins, does not bear on the stack. -/

theorem afterStore_begun (s : State) (r : SReg) (off : Word32) (bs : List Byte) :
    s.begun.afterStore r off bs = (s.afterStore r off bs).begun := by
  rw [State.afterStore, seg_begun, setPhysBytes_begun]
  rfl

theorem setAddrReg_begun (s : State) (sz : Size) (r : Fin 8) (v : Word32) :
    s.begun.setAddrReg sz r v = (s.setAddrReg sz r v).begun := by cases sz <;> rfl

theorem pushed_begun (s : State) (sz : Size) (v : Word32) : s.begun.pushed sz v = (s.pushed sz v).begun := by
  have hplace : s.begun.spBelow s.begun.sp sz.bytes = s.spBelow s.sp sz.bytes := rfl
  have hssz : (s.afterStore .ss (s.spBelow s.sp sz.bytes) (bytesOfNat sz.bytes v.toNat)).begun.ssz =
    (s.afterStore .ss (s.spBelow s.sp sz.bytes) (bytesOfNat sz.bytes v.toNat)).ssz := rfl
  rw [State.pushed, hplace, afterStore_begun, State.setSp, hssz, setAddrReg_begun]
  rfl

theorem canCopyDisplay_begun (sz : Size) (n : Nat) (s : State) :
    canCopyDisplay sz n s.begun = canCopyDisplay sz n s := by
  induction n generalizing s with
  | zero => rfl
  | succ n ih =>
    have hdown : s.begun.setAddrReg s.begun.ssz ebp (s.begun.spBelow (s.begun.addrReg s.begun.ssz ebp) sz.bytes) =
        (s.setAddrReg s.ssz ebp (s.spBelow (s.addrReg s.ssz ebp) sz.bytes)).begun := setAddrReg_begun ..
    have hread (t : State) (sp : Word32) : t.begun.afterPeek sz sp = (t.afterPeek sz sp).begun := rfl
    simp only [canCopyDisplay, hdown, canPeek_begun, peek_begun, hread, canPush_begun, pushed_begun, ih]
    rfl

theorem displayCopied_begun (sz : Size) (n : Nat) (s : State) :
    displayCopied sz n s.begun = (displayCopied sz n s).begun := by
  induction n generalizing s with
  | zero => rfl
  | succ n ih =>
    have hdown : s.begun.setAddrReg s.begun.ssz ebp (s.begun.spBelow (s.begun.addrReg s.begun.ssz ebp) sz.bytes) =
        (s.setAddrReg s.ssz ebp (s.spBelow (s.addrReg s.ssz ebp) sz.bytes)).begun := setAddrReg_begun ..
    have hread (t : State) (sp : Word32) : t.begun.afterPeek sz sp = (t.afterPeek sz sp).begun := rfl
    simp only [displayCopied, hdown, peek_begun, hread, pushed_begun, ih]
    rfl

theorem enterReady_begun (imm2 : Byte) (s : State) : enterReady imm2 s.begun = enterReady imm2 s := by
  have hosz : s.begun.osz = s.osz := rfl
  have hframe : s.begun.addrReg s.osz ebp = s.addrReg s.osz ebp := rfl
  simp only [enterReady, hosz, hframe, canPush_begun, pushed_begun, canCopyDisplay_begun, displayCopied_begun]

theorem enterSteps_run {s : State} {imm : Word16} {imm2 : Byte} (h : enterReady imm2 s = true) :
    enterSteps imm imm2 s = .ok () (enterAfter imm imm2 s) := by
  simp only [enterReady, Bool.and_eq_true, Bool.or_eq_true, beq_iff_eq] at h
  obtain ⟨hpush, hlinks⟩ := h
  rw [enterSteps, M_get_bind, M_get_bind, enterAfter, frameLinks]
  refine (M_bind_ok (push_flat _ hpush)).trans <| (M_get_bind _ _).trans ?_
  by_cases hlevel : imm2.toNat % 32 = 0
  · rw [if_pos hlevel, if_pos hlevel]
    rfl
  · obtain ⟨hcopy, hlast⟩ := hlinks.resolve_left hlevel
    rw [if_neg hlevel, if_neg hlevel]
    exact (M_bind_ok (copyDisplay_run _ _ hcopy)).trans (M_bind_ok (push_flat _ hlast))

theorem unwound_frame (s : State) : unwound s = { s with regs := (unwound s).regs } := setAddrReg_frame ..

theorem leave_run {s : State} (h : (unwound s).canPeek s.osz (unwound s).sp = true) :
    (do modify fun s => s.setSp (s.addrReg s.ssz ebp)
        let sz := (← get).osz
        let v ← pop sz
        putSized sz ebp v : M Unit) s =
      .ok () (((unwound s).popped s.osz).setAddrReg s.osz ebp ((unwound s).peek s.osz (unwound s).sp)) := by
  have hosz : (unwound s).osz = s.osz := by
    rw [unwound_frame]
    rfl
  refine (M_modify_bind _ _ _).trans <| (M_get_bind _ _).trans ?_
  rw [show (s.setSp (s.addrReg s.ssz ebp)) = unwound s from rfl, hosz]
  exact M_bind_ok (pop_run h)

end Sys2Proof.Machine

open Sys2Proof Sys2Proof.Machine Sys2Proof.Claims

/-- Settles O37: POP Sreg loads its register before the stack pointer moves, so that a refusal leaves it. -/
theorem popResult : Obligations.PopResult := by
  unfold Obligations.PopResult
  refine ⟨poppedFlags_bits, ?numbers, fun s hp => ⟨fun h => ?_, exec_popa hp⟩⟩
  case numbers =>
    intro s sz v n
    exact ⟨ssz_eq_sizeIf s, by rw [State.sp, addrReg_eq, wrapTo_toNat]; rfl, spAbove_toNat s v n,
      reg32_setAddrReg_same s s.ssz esp v, (peek_toNat s sz v).2, fun k hk => peek_byte s sz v hk⟩
  exact ⟨exec_pop_register hp h, exec_pop_place hp h, exec_popSeg_loads hp h,
    fun p v c => exec_popSeg_refused hp h p, exec_popf hp h⟩

/-- Settles O38: ENTER is a push, the copy of the display and a second push; LEAVE is a pop from the frame pointer. -/
theorem frameResult : Obligations.FrameResult := by
  unfold Obligations.FrameResult
  intro s hp t
  have hosz : t.osz = s.osz := by
    rw [show t = unwound s.begun from rfl, unwound_frame]
    rfl
  refine ⟨fun imm imm2 h => plain_next hp (enterSteps_run ?_), fun h => plain_next hp (leave_run (s := s.begun) ?_)⟩
  · rwa [enterReady_begun]
  · rwa [hosz] at h
end

section
/-!
PROOF. Far JMP and CALL to a code segment in protected mode: the checks of R501 and R502 in their order, and the transfer after
them. It serves O43 and O44.
-/
namespace Sys2Proof.Machine

open Sys2Proof.Claims

/-! ## Checks in a row -/

theorem afterChecks_append {α : Type} (l m : List Check) (s : State) (r : EStateM.Result Stop State α) :
    afterChecks (l ++ m) s r = afterChecks l s (afterChecks m s r) := by
  induction l with
  | nil => rfl
  | cons c l ih =>
    obtain ⟨b, v, e⟩ := c
    rw [List.cons_append, afterChecks_cons, afterChecks_cons, ih]

/-- Where every check holds none fails. -/
theorem firstFailing_eq_none {l : List Check} (h : l.all (fun c => c.1) = true) : firstFailing l = none := by
  rw [← Option.isNone_iff_eq_none, firstFailing_isNone, h]

/-- A list of checks without exception 8 does not raise it. -/
theorem firstFailing_ne_eight {l : List Check} {v : Byte} {c : Word32} (h : firstFailing l = some (v, c))
    (hl : ∀ x ∈ l, x.2.1 ≠ 8) : v ≠ 8 := hl _ (mem_of_firstFailing h)

/-! ## States after pushes -/

/-- `t` differs from `s` in general registers, memory and matches of breakpoints at most. -/
def StackOnly (s t : State) : Prop :=
  t = { s with regs := t.regs, trap := t.trap, mem := t.mem, stale := t.stale }

theorem StackOnly.refl (s : State) : StackOnly s s := rfl

theorem StackOnly.trans {s t u : State} (h : StackOnly s t) (k : StackOnly t u) : StackOnly s u := by
  unfold StackOnly at *
  rw [k, h]

/-- A field that pushes leave alone. -/
theorem StackOnly.field {α : Type} {s t : State} (h : StackOnly s t) (f : State → α)
    (hf : ∀ rg tr m st, f { s with regs := rg, trap := tr, mem := m, stale := st } = f s) : f t = f s := by
  rw [show t = _ from h]
  exact hf ..

theorem stackOnly_afterStore (s : State) (r : SReg) (off : Word32) (bs : List Byte) :
    StackOnly s (s.afterStore r off bs) := by
  have hsame := (s.setPhysBytes_same (byteAddrs (linear (s.seg r) off) bs.length) bs).eq
  rw [State.setPhysBytes_masters] at hsame
  unfold StackOnly State.afterStore State.noteAccess
  rw [hsame]

theorem stackOnly_setAddrReg (s : State) (sz : Size) (r : Fin 8) (v : Word32) : StackOnly s (s.setAddrReg sz r v) := by
  unfold StackOnly
  rw [setAddrReg_frame]

theorem stackOnly_pushed (s : State) (sz : Size) (v : Word32) : StackOnly s (s.pushed sz v) :=
  (stackOnly_afterStore ..).trans (stackOnly_setAddrReg ..)

theorem stackOnly_pushedItems (s : State) (sz : Size) (vs : List Word32) : StackOnly s (pushedItems s sz vs) := by
  induction vs generalizing s with
  | nil => exact .refl s
  | cons v vs ih => exact (stackOnly_pushed ..).trans (ih _)

theorem StackOnly.flat {s t : State} (h : StackOnly s t) : t.flat = s.flat := h.field State.flat fun _ _ _ _ => rfl

theorem StackOnly.cpl {s t : State} (h : StackOnly s t) : t.cpl = s.cpl := h.field State.cpl fun _ _ _ _ => rfl

/-! ## The room on the stack -/

theorem requireRoom_bind {β : Type} (sz : Size) (k : Nat) (f : Unit → M β) (s : State) :
    (requireRoom sz k >>= f) s = if roomFor s sz.bytes k then f () s else .error (checkStop 12 0) s := by
  have h : (requireRoom sz k >>= f) s = (require0 (roomFor s sz.bytes k) 12 >>= f) s := rfl
  rw [h, require0_bind]

theorem roomFor_of_canPushItems {s : State} {n k : Nat} (h : canPushItems s n k = true) : roomFor s n k = true := by
  simp only [canPushItems, roomFor, List.all_eq_true] at h ⊢
  intro i hi
  have hseg := canAccess_seg (h i hi)
  simp only [State.segAllows, Bool.and_eq_true] at hseg
  exact hseg.2

/-- Where there is room for all items, the first push tells whether the stack can be written at all. -/
theorem pushAll_room {s : State} {sz : Size} (hf : s.flat = true) (vs : List Word32)
    (hroom : roomFor s sz.bytes vs.length = true) :
    pushAll sz vs s = if canPushItems s sz.bytes vs.length then .ok () (pushedItems s sz vs)
      else .error (checkStop 12 0) s := by
  cases hpush : canPushItems s sz.bytes vs.length
  case true => exact pushAll_flat vs hpush
  case false =>
    cases vs with
    | nil => cases hpush
    | cons v vs =>
      have hfirst : s.segAllows .ss (s.spBelow s.sp sz.bytes) sz.bytes true = false := by
        by_contra hallows
        rw [Bool.not_eq_false] at hallows
        simp only [State.segAllows, Bool.and_eq_true] at hallows
        obtain ⟨hrights, -⟩ := hallows
        refine Bool.false_ne_true (hpush.symm.trans ?_)
        simp only [canPushItems, roomFor, List.all_eq_true] at hroom ⊢
        intro i hi
        simp only [State.canAccess, State.segAllows, Bool.and_eq_true]
        exact ⟨hf, hrights, hroom i hi⟩
      exact M_bind_error (push_unheld v hfirst)

/-- The end of a transfer at the same level: the room, the entry point, the pushes (R501 to R503, R646). -/
theorem entry_checks {β : Type} {s : State} {sz : Size} (hf : s.flat = true) (vs : List Word32) (d : Desc) (off : Word32)
    (f : Unit → M β) :
    (do requireRoom sz vs.length
        require0 (decide (off.toNat ≤ d.limit.toNat)) 13
        pushAll sz vs >>= f : M β) s =
      afterChecks (entryChecks s sz.bytes vs.length d off) s (f () (pushedItems s sz vs)) := by
  rw [requireRoom_bind, entryChecks, afterChecks_cons]
  cases hroom : roomFor s sz.bytes vs.length
  case false => rfl
  case true =>
    rw [if_pos rfl, if_pos rfl, require0_bind, afterChecks_cons, afterChecks_cons, afterChecks_nil, M_bind,
      pushAll_room hf vs hroom, inSegment]
    cases canPushItems s sz.bytes vs.length <;> rfl

theorem entryChecks_none {s : State} {n k : Nat} {d : Desc} {off : Word32} (hpush : canPushItems s n k = true)
    (hoff : inSegment d off = true) : firstFailing (entryChecks s n k d off) = none :=
  firstFailing_eq_none (by simp [entryChecks, roomFor_of_canPushItems hpush, hoff, hpush])

/-! ## Code segments -/

/-- A selector, and the descriptor it names: the first checks of every transfer. -/
theorem named_bind {β : Type} {s : State} (hf : s.flat = true) (sel : Word16) (f : Desc × Word32 → M β) :
    (do require0 (!selNull sel) 13; fetchDesc 13 sel >>= f : M β) s =
      afterChecks [(!selNull sel, 13, 0), ((s.descAddr sel).isSome, 13, selCode sel)] s
        (f (namedDesc s sel, namedAddr s sel) s) := by
  rw [require0_bind, afterChecks_cons, bind_afterChecks (fetchDesc_checks hf 13 sel)]

/-- What it means that a selector names a code segment. -/
structure NamedCode (s : State) (sel : Word16) (d : Desc) (la : Word32) : Prop where
  flat : s.flat = true
  notNull : selNull sel = false
  addr : s.descAddr sel = some la
  desc : namedDesc s sel = d
  place : namedAddr s sel = la
  code : d.isCode = true
  present : d.present = true

theorem namedCode_of_codeAt {s : State} {sel : Word16} {d : Desc} {la : Word32} (h : codeAt s sel = some (d, la)) :
    NamedCode s sel d la := by
  unfold codeAt at h
  cases hn : selNull sel
  case true =>
    rw [hn] at h
    cases h
  case false =>
    cases hf : s.flat
    case false =>
      rw [hn, hf] at h
      cases h
    case true =>
      rw [hn, hf] at h
      cases ha : s.descAddr sel with
      | none =>
        rw [ha] at h
        cases h
      | some at' =>
        rw [ha] at h
        simp only [Bool.not_true, Bool.or_self, Bool.false_eq_true, if_false] at h
        split at h
        next hcp =>
          cases h
          obtain ⟨hc, hp⟩ := Bool.and_eq_true_iff.1 hcp
          exact ⟨hf, hn, ha, namedDesc_of_some ha, namedAddr_of_some ha, hc, hp⟩
        next => cases h

theorem NamedCode.codeChecks_none {s : State} {sel : Word16} {d : Desc} {la : Word32} (h : NamedCode s sel d la) :
    firstFailing (codeChecks s sel true) = none :=
  firstFailing_eq_none (by simp [codeChecks, h.notNull, h.addr, h.desc, h.code, h.present])

/-- The load of CS and the jump (R506). -/
theorem loadCs_branch {s : State} (hf : s.flat = true) (sel : Word16) (d : Desc) (la : Word32) (cpl : BitVec 2)
    (off : Word32) (r : Retire) :
    (do loadCs sel d la cpl; branchTo off; return r : M Retire) s = .ok r (codeLoaded s sel d la cpl off) := by
  have hload : loadCs sel d la cpl s =
      .ok () { accessedSet s d la with cs := d.toSeg (sel.extractLsb' 2 14 ++ cpl), cpl := cpl } := by
    rw [loadCs, M_bind_ok (setAccessed_flat hf _ _), withRpl_eq]
    rfl
  rw [M_bind_ok hload]
  rfl

/-! ## Far jumps and calls -/

/-- What a call pushes (R502, R503). -/
def callItems (s : State) (call : Bool) : List Word32 :=
  if call then [s.cs.selector.zeroExtend 32, s.nextEip] else []

theorem callItems_length (s : State) (call : Bool) : (callItems s call).length = if call then 2 else 0 := by
  cases call <;> rfl

theorem callPushed_eq (s : State) (call : Bool) (sz : Size) : callPushed s call sz = pushedItems s sz (callItems s call) := by
  cases call <;> rfl

theorem sameLevel_checks {s : State} (hf : s.flat = true) (call : Bool) (sz : Size) (sel : Word16) (d : Desc)
    (la off : Word32) :
    sameLevel (viaOf call) sz sel d la off s =
      afterChecks (entryChecks s sz.bytes (if call then 2 else 0) d off) s
        (.ok .jump (codeLoaded (callPushed s call sz) sel d la s.cpl off)) := by
  have hsteps : sameLevel (viaOf call) sz sel d la off s = (do
      requireRoom sz (callItems s call).length
      require0 (decide (off.toNat ≤ d.limit.toNat)) 13
      pushAll sz (callItems s call) >>= fun _ => do
        let t ← get
        loadCs sel d la t.cpl
        branchTo off
        return .jump : M Retire) s := by
    cases call
    case false => rfl
    case true =>
      show (requireRoom sz 2 >>= _) s = (requireRoom sz 2 >>= _) s
      rw [requireRoom_bind, requireRoom_bind, require0_bind, require0_bind]
      rfl
  have hpushed := stackOnly_pushedItems s sz (callItems s call)
  rw [hsteps, entry_checks hf, callItems_length, M_get_bind, loadCs_branch (hpushed.flat.trans hf), hpushed.cpl,
    callPushed_eq]

theorem directCode_checks (s : State) (sel : Word16) (d : Desc) :
    directCode sel d s =
      afterChecks [(directAllowed s sel d, 13, selCode sel), (d.present, 11, selCode sel)] s (.ok () s) := by
  rw [directCode, M_get_bind, requireSel_bind, afterChecks_cons, afterChecks_cons, afterChecks_nil, requireSel_run,
    selectorCode_eq]
  rfl

/-- A far jump or call that names no gate and no task (R501, R502). -/
theorem farProtected_checks {s : State} (hf : s.flat = true) (call : Bool) {sel : Word16}
    (hn : namesSystem s sel = false) (off : Word32) :
    farProtectedSteps (viaOf call) sel off s = afterChecks (directChecks s call sel off) s
      (.ok .jump (codeLoaded (callPushed s call s.osz) sel (namedDesc s sel) (namedAddr s sel) s.cpl off)) := by
  have hsplit : directChecks s call sel off =
      [(!selNull sel, 13, 0), ((s.descAddr sel).isSome, 13, selCode sel)] ++
        (((namedDesc s sel).isCode, 13, selCode sel) ::
          ([(directAllowed s sel (namedDesc s sel), 13, selCode sel), ((namedDesc s sel).present, 11, selCode sel)] ++
          entryChecks s s.osz.bytes (if call then 2 else 0) (namedDesc s sel) off)) := rfl
  rw [hsplit, afterChecks_append, farProtectedSteps, named_bind hf]
  cases hnull : selNull sel
  case true => rfl
  case false =>
    congr 1
    dsimp only
    rw [M_get_bind, afterChecks_cons]
    cases hc : (namedDesc s sel).isCode
    case true =>
      rw [if_pos rfl, if_pos rfl, bind_afterChecks (directCode_checks s sel _), afterChecks_append]
      dsimp only
      rw [sameLevel_checks hf]
    case false =>
      have hgate : (!(namedDesc s sel).isSegment &&
          ((namedDesc s sel).type == 4 || (namedDesc s sel).type == 12)) = false := by
        revert hn
        simp [namesSystem, hnull]
        tauto
      have htask : (!(namedDesc s sel).isSegment && ((namedDesc s sel).type == 1 || (namedDesc s sel).type == 9 ||
          (namedDesc s sel).type == 5)) = false := by
        revert hn
        simp [namesSystem, hnull]
        tauto
      rw [if_neg Bool.false_ne_true, if_neg Bool.false_ne_true, hgate, htask, if_neg Bool.false_ne_true,
        if_neg Bool.false_ne_true]
      show EStateM.Result.error (checkStop 13 ((sel &&& 0xFFFC).zeroExtend 32)) s = _
      rw [selectorCode_eq]
      rfl

/-- No check of a direct transfer raises exception 8. -/
theorem directChecks_vector {s : State} {call : Bool} {sel : Word16} {off : Word32} {v : Byte} {c : Word32}
    (h : firstFailing (directChecks s call sel off) = some (v, c)) : v ≠ 8 :=
  firstFailing_ne_eight h (by simp [directChecks, codeChecks, entryChecks])

theorem NamedCode.not_system {s : State} {sel : Word16} {d : Desc} {la : Word32} (h : NamedCode s sel d la) :
    namesSystem s sel = false := by
  have hseg := h.code
  simp only [Desc.isCode, Bool.and_eq_true] at hseg
  simp [namesSystem, h.desc, hseg.1]

theorem NamedCode.directChecks_none {s : State} {call : Bool} {sel : Word16} {d : Desc} {la off : Word32}
    (h : NamedCode s sel d la) (ha : directAllowed s sel d = true) (hoff : inSegment d off = true)
    (hpush : call = true → canPushItems s s.osz.bytes 2 = true) :
    firstFailing (directChecks s call sel off) = none := by
  have hroom : canPushItems s s.osz.bytes (if call then 2 else 0) = true := by
    cases call
    case false => rfl
    case true => exact hpush rfl
  have hentry := entryChecks_none hroom hoff
  have hcode := h.codeChecks_none
  rw [← Option.isNone_iff_eq_none, firstFailing_isNone] at hentry hcode ⊢
  rw [directChecks, List.all_append, h.desc, ha, hcode, hentry]
  rfl

/-- A far jump or call in protected mode is its steps after the far pointer has been read. -/
theorem exec_far_protected {s : State} {call : Bool} {f : FarForm} (hm : s.protectedMode = true)
    (hr : f.ready s = true) :
    ∃ body : M Retire, exec (f.instr call) s = transfer body s ∧
      body s.begun = farProtectedSteps (viaOf call) (f.pointer s).2 (f.pointer s).1 (f.after s.begun) := by
  obtain ⟨body, hexec, hbody⟩ := exec_far call hr
  rw [farSteps, M_get_bind, if_pos ((far_readFrom s f).protectedMode.trans hm)] at hbody
  exact ⟨body, hexec, hbody⟩

section Direct

variable {s : State} {call : Bool} {f : FarForm} (hp : s.prefixesOk false) (hm : s.protectedMode = true)
  (hr : f.ready s = true)
include hp hm hr

theorem exec_far_direct {d : Desc} {la : Word32} (hcode : codeAt s (f.pointer s).2 = some (d, la))
    (ha : directAllowed s (f.pointer s).2 d = true) (hoff : inSegment d (f.pointer s).1 = true)
    (hpush : call = true → canPushItems s s.osz.bytes 2 = true) :
    exec (f.instr call) s = .next (retire s
      (codeLoaded (callPushed (f.after s.begun) call s.osz) (f.pointer s).2 d la s.cpl (f.pointer s).1) .jump) := by
  obtain ⟨body, hexec, hbody⟩ := exec_far_protected (call := call) hm hr
  have hfrom := far_readFrom s f
  have hnamed := namedCode_of_codeAt hcode
  have hsteps := farProtected_checks (hfrom.flat.trans hnamed.flat) call
    ((hfrom.namesSystem _).trans hnamed.not_system) (f.pointer s).1
  rw [hfrom.directChecks, afterChecks_of_none (hnamed.directChecks_none ha hoff hpush), hfrom.osz,
    hfrom.cpl, hfrom.namedDesc, hfrom.namedAddr, hnamed.desc, hnamed.place] at hsteps
  exact hexec.trans (transfer_next hp (hbody.trans hsteps))

theorem exec_far_direct_refused (hf : s.flat = true) (hn : namesSystem s (f.pointer s).2 = false) {v : Byte}
    {c : Word32} (hc : firstFailing (directChecks s call (f.pointer s).2 (f.pointer s).1) = some (v, c)) :
    exec (f.instr call) s = deliver s (s.faultEvent v (some c)) := by
  obtain ⟨body, hexec, hbody⟩ := exec_far_protected (call := call) hm hr
  have hfrom := far_readFrom s f
  have hsteps := farProtected_checks (hfrom.flat.trans hf) call ((hfrom.namesSystem _).trans hn)
    (f.pointer s).1
  rw [hfrom.directChecks, afterChecks_of_some hc] at hsteps
  refine (hexec.trans (transfer_exc hp (directChecks_vector hc) (hbody.trans hsteps))).trans ?_
  rw [hfrom.rollback]

end Direct

end Sys2Proof.Machine
end

section
/-!
PROOF. Far returns and IRET in protected mode: the frame on the stack, the checks of R508, R509 and R512 in their order, and the
return after them. It settles O43.
-/
namespace Sys2Proof.Machine

open Sys2Proof.Claims

/-! ## The frame of a return -/

theorem readFrom_afterFrame (s : State) (sz : Size) (ks : List Nat) : ReadFrom s (afterFrame s sz ks) := by
  suffices h : ∀ t, ReadFrom t (ks.foldl (fun t k => t.afterPeek sz (s.sp + BitVec.ofNat 32 k)) t) from h s
  induction ks with
  | nil => exact .refl
  | cons k ks ih => exact fun t => (readFrom_afterPeek ..).trans (ih _)

theorem afterFrame_append (s : State) (sz : Size) (ks ls : List Nat) :
    afterFrame s sz (ks ++ ls) =
      ls.foldl (fun t k => t.afterPeek sz (s.sp + BitVec.ofNat 32 k)) (afterFrame s sz ks) := List.foldl_append

theorem flat_of_held {s : State} {n : Nat} (h : held s n = true) : s.flat = true := (Bool.and_eq_true_iff.1 h).1

/-- What the stack holds it holds in parts. -/
theorem held_mono {s : State} {n m : Nat} (h : held s n = true) (hm : 0 < m) (hn : m ≤ n) : held s m = true :=
  canAccess_head hm hn h

theorem requireHeld_held {s : State} {n : Nat} (h : held s n = true) : requireHeld s.sp n s = .ok () s :=
  requireHeld_run (canAccess_seg h)

theorem requireHeld_refused {s : State} {n : Nat} (hf : s.flat = true) (h : held s n = false) :
    requireHeld s.sp n s = .error (checkStop 12 0) s := by
  refine requireHeld_unheld ?_
  simpa only [Claims.held, State.canAccess, hf, Bool.true_and] using h

/-- A read of an item that lies in the part of the stack that is held. -/
theorem frameRead_run {s t : State} {sz : Size} {n k : Nat} (ht : ReadFrom s t) (h : held s n = true)
    (hk : k + sz.bytes ≤ n) :
    frameRead sz s.sp k t = .ok (frameItem s sz k) (t.afterPeek sz (s.sp + BitVec.ofNat 32 k)) := by
  have hpeek : s.canPeek sz (s.sp + BitVec.ofNat 32 k) = true := canAccess_part (by cases sz <;> decide) hk h
  rw [frameRead, stackRead_flat ((ht.canPeek ..).trans hpeek), ht.peek]
  rfl

/-! ## The code segment of a return -/

theorem returnDesc_checks {s : State} (hf : s.flat = true) (sel : Word16) :
    returnDesc sel s = afterChecks (returnChecks s sel) s (.ok (namedDesc s sel, namedAddr s sel) s) := by
  rw [returnDesc, M_get_bind, require0_bind, returnChecks, afterChecks_cons, requireSel_bind, afterChecks_cons,
    bind_afterChecks (fetchDesc_checks hf 13 sel)]
  simp only [afterChecks_cons, afterChecks_nil, requireSel_bind, M_pure, Bool.and_eq_true]
  cases (namedDesc s sel).isCode <;> cases (namedDesc s sel).conforming <;> simp

theorem jumped_setSp (s : State) (v off : Word32) : (jumped s off).setSp v = jumped (s.setSp v) off := by
  have hssz : (jumped s off).ssz = s.ssz := rfl
  rw [State.setSp, State.setSp, hssz]
  cases s.ssz <;> rfl

/-- `s` with CS loaded at level `cpl`; execution does not go on there yet. -/
def csLoaded (s : State) (sel : Word16) (d : Desc) (la : Word32) (cpl : BitVec 2) : State :=
  { accessedSet s d la with cs := d.toSeg (sel.extractLsb' 2 14 ++ cpl), cpl := cpl }

theorem codeLoaded_eq (s : State) (sel : Word16) (d : Desc) (la : Word32) (cpl : BitVec 2) (off : Word32) :
    codeLoaded s sel d la cpl off = jumped (csLoaded s sel d la cpl) off := rfl

theorem loadCs_run {s : State} (hf : s.flat = true) (sel : Word16) (d : Desc) (la : Word32) (cpl : BitVec 2) :
    loadCs sel d la cpl s = .ok () (csLoaded s sel d la cpl) := by
  rw [loadCs, M_bind_ok (setAccessed_flat hf _ _), withRpl_eq]
  rfl

/-- The load of CS bears neither on the stack pointer nor on its size. -/
theorem csLoaded_spAbove (s : State) (sel : Word16) (d : Desc) (la : Word32) (cpl : BitVec 2) (n : Nat) :
    (csLoaded s sel d la cpl).spAbove (csLoaded s sel d la cpl).sp n = wrapTo s.ssz (s.sp + BitVec.ofNat 32 n) := by
  have hsame := accessedSet_same s d la
  have hssz : (csLoaded s sel d la cpl).ssz = s.ssz := hsame.field State.ssz fun _ _ _ => rfl
  have hsp : (csLoaded s sel d la cpl).sp = s.sp := hsame.field State.sp fun _ _ _ => rfl
  rw [State.spAbove, hssz, hsp]

/-! ## The end of a return -/

/-- A return to the same level (R508). -/
theorem returnTo_same {s : State} (hf : s.flat = true) {sel : Word16} (hr : selRpl sel = s.cpl) (off : Word32) (sz : Size)
    (used : Nat) (iw : Word16) :
    returnTo sel off sz used iw s =
      afterChecks (returnChecks s sel ++ [(inSegment (namedDesc s sel) off, 13, 0)]) s
        (.ok () ((codeLoaded s sel (namedDesc s sel) (namedAddr s sel) s.cpl off).setSp
          (wrapTo s.ssz (s.sp + BitVec.ofNat 32 (used + iw.toNat))))) := by
  rw [returnTo, M_get_bind, bind_afterChecks (returnDesc_checks hf sel), afterChecks_append]
  dsimp only
  rw [if_pos (by rw [hr]; exact beq_self_eq_true _), require0_bind, afterChecks_cons, afterChecks_nil,
    M_bind_ok (loadCs_run hf ..), M_modify_bind, csLoaded_spAbove, hr, codeLoaded_eq, jumped_setSp]
  rfl

/-! ## The outer stack -/

/-- The selector of the outer stack and its descriptor: what R509 checks besides the entry point. -/
def outerChecks (s : State) (sel : Word16) (off : Word32) (ssel : Word16) : List Check :=
  (!selNull ssel, 13, 0) :: stackChecks s 13 (selRpl sel) ssel ++ [(inSegment (namedDesc s sel) off, 13, 0)]

theorem ReadFrom.outerChecks {s t : State} (h : ReadFrom s t) (sel : Word16) (off : Word32) (ssel : Word16) :
    outerChecks t sel off ssel = outerChecks s sel off ssel := by
  obtain ⟨d, sh, rfl⟩ := h
  rfl

theorem leftBehind_eq (g : SegReg) (r : BitVec 2) : leftBehind g r = g.outward r := by
  unfold SegReg.outward leftBehind SegReg.nulled lvlLe
  cases g.usable <;> cases g.code <;> cases g.ec <;> simp

/-- Where execution goes on does not bear on the load of a descriptor. -/
theorem jumped_accessedSet (s : State) (off : Word32) (d : Desc) (la : Word32) :
    jumped (accessedSet (jumped s off) d la) off = jumped (accessedSet s d la) off := by
  unfold accessedSet
  split <;> rfl

/-- The data segments after a return to level `r` (R509). -/
def outwardSegs (s : State) (r : BitVec 2) : State :=
  { s with es := s.es.outward r, ds := s.ds.outward r, fs := s.fs.outward r, gs := s.gs.outward r }

/-- `s` on the outer stack of a return to level `r`, with the data segments left behind (R509). -/
def onOuterStack (s : State) (sz : Size) (r : BitVec 2) (ssel : Word16) (sd : Desc) (v : Word32) : State :=
  outwardSegs ((s.setSeg .ss (sd.toSeg ssel)).outerSp sz v) r

theorem outerSp_jumped (s : State) (sz : Size) (v off : Word32) :
    (jumped s off).outerSp sz v = jumped (s.outerSp sz v) off := by
  cases sz
  case s16 => rfl
  case s32 => exact jumped_setSp ..

theorem onOuterStack_jumped (s : State) (sz : Size) (r : BitVec 2) (ssel : Word16) (sd : Desc) (v off : Word32) :
    onOuterStack (jumped s off) sz r ssel sd v = jumped (onOuterStack s sz r ssel sd v) off := by
  have hseg : (jumped s off).setSeg .ss (sd.toSeg ssel) = jumped (s.setSeg .ss (sd.toSeg ssel)) off := rfl
  rw [onOuterStack, hseg, outerSp_jumped]
  rfl

theorem outerReturned_eq (s : State) (sel : Word16) (d : Desc) (la off : Word32) (ssel : Word16) (sd : Desc)
    (sla v : Word32) :
    outerReturned s sel d la off ssel sd sla v =
      jumped (onOuterStack (accessedSet (csLoaded s sel d la (selRpl sel)) sd sla) s.osz (selRpl sel) ssel sd v) off := by
  have hfree : (accessedSet (codeLoaded s sel d la (selRpl sel) off) sd sla).freeWord espSlot = s.freeWord espSlot :=
    ((accessedSet_same ..).field (fun u => u.freeWord espSlot) fun _ _ _ => rfl).trans
      ((accessedSet_same s d la).field (fun u => u.freeWord espSlot) fun _ _ _ => rfl)
  have hplace : outerReturned s sel d la off ssel sd sla v =
      jumped (onOuterStack (accessedSet (codeLoaded s sel d la (selRpl sel) off) sd sla) s.osz (selRpl sel) ssel sd v)
        off := by
    unfold outerReturned onOuterStack outwardSegs State.outerSp replaceWord
    simp only [leftBehind_eq, ← hfree]
    cases s.osz <;> rfl
  rw [hplace, codeLoaded_eq, ← onOuterStack_jumped, jumped_accessedSet, onOuterStack_jumped]

/-- A return to an outer level, the two items of the outer stack having been read (R509). -/
theorem outer_steps {s : State} (hf : s.flat = true) (sel ssel : Word16) (off nesp : Word32) (iw : Word16) :
    (do require0 (!selNull ssel) 13
        let (sd, sla) ← stackDesc 13 (selRpl sel) ssel
        require0 (decide (off.toNat ≤ (namedDesc s sel).limit.toNat)) 13
        loadCs sel (namedDesc s sel) (namedAddr s sel) (selRpl sel)
        setAccessed sd sla
        modify fun t => onOuterStack t s.osz (selRpl sel) ssel sd (nesp + iw.zeroExtend 32)
        branchTo off : M Unit) s =
      afterChecks (outerChecks s sel off ssel) s (.ok () (outerReturned s sel (namedDesc s sel) (namedAddr s sel) off
        ssel (namedDesc s ssel) (namedAddr s ssel) (nesp + BitVec.ofNat 32 iw.toNat))) := by
  have hiw : iw.zeroExtend 32 = BitVec.ofNat 32 iw.toNat := by
    apply BitVec.eq_of_toNat_eq
    simp
  have hflat : (csLoaded s sel (namedDesc s sel) (namedAddr s sel) (selRpl sel)).flat = true :=
    (accessedSet_flat ..).trans hf
  rw [require0_bind, outerChecks, List.cons_append, afterChecks_cons, bind_afterChecks (stackDesc_checks hf ..),
    afterChecks_append]
  dsimp only
  rw [require0_bind, afterChecks_cons, afterChecks_nil, M_bind_ok (loadCs_run hf ..), M_bind_ok (setAccessed_flat hflat ..),
    M_modify_bind, outerReturned_eq, hiw]
  rfl

/-- A return to an outer level: the room of the outer stack pointer, the reads of its two items, the checks (R509). -/
theorem returnTo_outer {s : State} (hf : s.flat = true) {sel : Word16} (hr : selRpl sel ≠ s.cpl) (off : Word32)
    (n : Nat) (iw : Word16) :
    let b := s.osz.bytes
    let used := n + iw.toNat
    let t := afterFrame s s.osz [used, used + b]
    let ssel : Word16 := (frameItem s s.osz (used + b)).truncate 16
    returnTo sel off s.osz n iw s =
      afterChecks (returnChecks s sel ++ [(held s (used + 2 * b), 12, 0)]) s
        (afterChecks (outerChecks s sel off ssel) t (.ok () (outerReturned t sel (namedDesc s sel) (namedAddr s sel) off
          ssel (namedDesc s ssel) (namedAddr s ssel) (frameItem s s.osz used + BitVec.ofNat 32 iw.toNat)))) := by
  intro b used t ssel
  rw [returnTo, M_get_bind, bind_afterChecks (returnDesc_checks hf sel), afterChecks_append]
  dsimp only
  rw [if_neg (by simpa using hr), afterChecks_cons, afterChecks_nil]
  cases hheld : held s (used + 2 * b)
  case false => rw [M_bind_error (requireHeld_refused hf hheld)]; rfl
  case true =>
    have hfrom := readFrom_afterFrame s s.osz [used, used + b]
    have hsp := frameRead_run (.refl s) hheld (show used + s.osz.bytes ≤ used + 2 * b by omega)
    have hsel := frameRead_run (readFrom_afterPeek s s.osz (s.sp + BitVec.ofNat 32 used)) hheld
      (show used + b + s.osz.bytes ≤ used + 2 * b by omega)
    have hsteps := outer_steps (s := t) (hfrom.flat.trans hf) sel ssel off (frameItem s s.osz used) iw
    rw [hfrom.osz, hfrom.namedDesc, hfrom.namedAddr, hfrom.namedDesc, hfrom.namedAddr, hfrom.outerChecks] at hsteps
    rw [M_bind_ok (requireHeld_held hheld), M_bind_ok hsp, M_bind_ok hsel, if_pos rfl]
    exact congrArg (afterChecks _ s) hsteps

/-! ## The checks of the whole frame -/

/-- The check that fails first in two lists. -/
theorem firstFailing_append {l m : List Check} {e : Byte × Word32} (h : firstFailing (l ++ m) = some e) :
    firstFailing l = some e ∨ (firstFailing l = none ∧ firstFailing m = some e) := by
  induction l with
  | nil => exact .inr ⟨rfl, h⟩
  | cons c l ih =>
    obtain ⟨b, e'⟩ := c
    rw [List.cons_append, firstFailing_cons] at h
    rw [firstFailing_cons]
    cases b
    case false => exact .inl h
    case true => exact ih h

/-- `x` raises `e`, and nothing but matches of breakpoints has changed since `s`. -/
def Raises {α : Type} (s : State) (x : EStateM.Result Stop State α) (e : Byte × Word32) : Prop :=
  ∃ t, ReadFrom s t ∧ x = .error (checkStop e.1 e.2) t

/-- The offset and the selector on top of the frame of a return. -/
def frameOff (s : State) : Word32 := frameItem s s.osz 0

def frameSel (s : State) : Word16 := (frameItem s s.osz s.osz.bytes).truncate 16

theorem returnTo_refused {s : State} (hf : s.flat = true) (n : Nat) (iw : Word16) {e : Byte × Word32}
    (h : firstFailing (frameChecks s (n + iw.toNat)) = some e) :
    Raises s (returnTo (frameSel s) (frameOff s) s.osz n iw s) e := by
  by_cases hr : selRpl (frameSel s) = s.cpl
  · have hchecks : frameChecks s (n + iw.toNat) =
        returnChecks s (frameSel s) ++ [(inSegment (namedDesc s (frameSel s)) (frameOff s), 13, 0)] :=
      congrArg (returnChecks s (frameSel s) ++ ·) (if_pos hr)
    rw [hchecks] at h
    exact ⟨s, .refl s, (returnTo_same hf hr ..).trans (afterChecks_of_some h ..)⟩
  · have hchecks : frameChecks s (n + iw.toNat) =
        (returnChecks s (frameSel s) ++ [(held s (n + iw.toNat + 2 * s.osz.bytes), 12, 0)]) ++
          outerChecks s (frameSel s) (frameOff s) ((frameItem s s.osz (n + iw.toNat + s.osz.bytes)).truncate 16) := by
      rw [List.append_assoc]
      exact congrArg (returnChecks s (frameSel s) ++ ·) (if_neg hr)
    rw [hchecks] at h
    rcases firstFailing_append h with hfirst | ⟨hpass, hrest⟩
    · exact ⟨s, .refl s, (returnTo_outer hf hr ..).trans (afterChecks_of_some hfirst ..)⟩
    · refine ⟨afterFrame s s.osz [n + iw.toNat, n + iw.toNat + s.osz.bytes], readFrom_afterFrame ..,
        (returnTo_outer hf hr ..).trans ?_⟩
      rw [afterChecks_of_none hpass, afterChecks_of_some hrest]

/-- No check of a return raises exception 8. -/
theorem frameChecks_vector {s : State} {used : Nat} {v : Byte} {c : Word32}
    (h : firstFailing (frameChecks s used) = some (v, c)) : v ≠ 8 := by
  refine firstFailing_ne_eight h (List.forall_mem_append.2 ⟨by simp [returnChecks], ?_⟩)
  split <;> simp [stackChecks]

theorem NamedCode.returnChecks_none {s : State} {sel : Word16} {d : Desc} {la : Word32} (h : NamedCode s sel d la)
    (hle : lvlLe s.cpl (selRpl sel) = true)
    (hdpl : (if d.conforming then lvlLe d.dpl (selRpl sel) else d.dpl == selRpl sel) = true) :
    firstFailing (returnChecks s sel) = none :=
  firstFailing_eq_none (by simp [returnChecks, h.notNull, h.addr, h.desc, h.code, h.present, hle, hdpl])

/-- A return that R508 allows completes. -/
theorem returnTo_same_completes {s : State} {sel : Word16} {d : Desc} {la off : Word32} (h : NamedCode s sel d la)
    (ha : returnAllowed s sel d = true) (hoff : inSegment d off = true) (sz : Size) (n : Nat) (iw : Word16) :
    returnTo sel off sz n iw s = .ok () ((codeLoaded s sel d la s.cpl off).setSp
      (wrapTo s.ssz (s.sp + BitVec.ofNat 32 (n + iw.toNat)))) := by
  obtain ⟨hrpl, hdpl⟩ := Bool.and_eq_true_iff.1 ha
  have hr : selRpl sel = s.cpl := eq_of_beq hrpl
  have hpass : firstFailing (returnChecks s sel ++ [(inSegment (namedDesc s sel) off, 13, 0)]) = none := by
    have hret := h.returnChecks_none (by rw [hr, lvlLe_iff]) (by rw [hr]; exact hdpl)
    rw [← Option.isNone_iff_eq_none, firstFailing_isNone] at hret ⊢
    rw [List.all_append, hret, h.desc, hoff]
    rfl
  rw [returnTo_same h.flat hr, afterChecks_of_none hpass, h.desc, h.place]

theorem ReadFrom.namedCode {s t : State} (h : ReadFrom s t) {sel : Word16} {d : Desc} {la : Word32}
    (hn : NamedCode s sel d la) : NamedCode t sel d la := by
  obtain ⟨tr, sh, rfl⟩ := h
  exact ⟨hn.flat, hn.notNull, hn.addr, hn.desc, hn.place, hn.code, hn.present⟩

theorem ReadFrom.frameChecks {s t : State} (h : ReadFrom s t) (used : Nat) : frameChecks t used = frameChecks s used := by
  obtain ⟨d, sh, rfl⟩ := h
  rfl

theorem ReadFrom.frameOff {s t : State} (h : ReadFrom s t) : frameOff t = frameOff s := by
  obtain ⟨d, sh, rfl⟩ := h
  rfl

theorem ReadFrom.frameSel {s t : State} (h : ReadFrom s t) : frameSel t = frameSel s := by
  obtain ⟨d, sh, rfl⟩ := h
  rfl

/-! ## RET far -/

theorem retFar_frame {s u : State} (hu : ReadFrom s u) (hm : s.protectedMode = true)
    (h : held s (2 * s.osz.bytes) = true) (iw : Word16) :
    retFar iw u = (do
      returnTo (frameSel s) (frameOff s) s.osz (2 * s.osz.bytes) iw
      return .jump : M Retire) (afterFrame u s.osz [0, s.osz.bytes]) := by
  have hheld : held u (2 * s.osz.bytes) = true := (hu.held _).trans h
  have hoff := frameRead_run (.refl u) hheld (show 0 + s.osz.bytes ≤ 2 * s.osz.bytes by omega)
  have hsel := frameRead_run (readFrom_afterPeek u s.osz (u.sp + BitVec.ofNat 32 0)) hheld
    (show s.osz.bytes + s.osz.bytes ≤ 2 * s.osz.bytes by omega)
  rw [hu.frameItem] at hoff hsel
  rw [retFar, M_get_bind, hu.protectedMode, hm, if_pos rfl, hu.osz, M_bind_ok (requireHeld_held hheld), M_bind_ok hoff,
    M_bind_ok hsel]
  rfl

section RetFar

variable {s : State} (hp : s.prefixesOk false) (hm : s.protectedMode = true) {n : Option Word16}
include hp hm

theorem exec_retFar_next {t : State} (h : held s (2 * s.osz.bytes) = true)
    (hx : ∀ iw : Word16, iw.toNat = released n → returnTo (frameSel s) (frameOff s) s.osz (2 * s.osz.bytes) iw
      (afterFrame s.begun s.osz [0, s.osz.bytes]) = .ok () t) :
    exec (farRetInstr n) s = .next (retire s t .jump) := by
  obtain ⟨iw, hiw, hexec⟩ := exec_retFar n s
  have hbody := retFar_frame (readFrom_begun s) hm h iw
  rw [M_bind_ok (hx iw hiw)] at hbody
  exact hexec.trans (transfer_next hp hbody)

theorem exec_retFar_refused {v : Byte} {c : Word32} (h : held s (2 * s.osz.bytes) = true)
    (hc : firstFailing (frameChecks s (2 * s.osz.bytes + released n)) = some (v, c)) :
    exec (farRetInstr n) s = deliver s (s.faultEvent v (some c)) := by
  obtain ⟨iw, hiw, hexec⟩ := exec_retFar n s
  have hbody := retFar_frame (readFrom_begun s) hm h iw
  have hfrom := (readFrom_begun s).trans (readFrom_afterFrame s.begun s.osz [0, s.osz.bytes])
  have hraises := returnTo_refused (hfrom.flat.trans (flat_of_held h)) (2 * s.osz.bytes) iw
    (by rw [hfrom.frameChecks, hiw]; exact hc)
  rw [hfrom.frameSel, hfrom.frameOff, hfrom.osz] at hraises
  obtain ⟨t, ht, hrun⟩ := hraises
  rw [M_bind_error hrun] at hbody
  refine (hexec.trans (transfer_exc hp (frameChecks_vector hc) hbody)).trans ?_
  rw [(hfrom.trans ht).rollback]

theorem exec_retFar_unheld (hf : s.flat = true) (h : held s (2 * s.osz.bytes) = false) :
    exec (farRetInstr n) s = deliver s (s.faultEvent 12 (some 0)) := by
  obtain ⟨iw, -, hexec⟩ := exec_retFar n s
  have hbody : retFar iw s.begun = .error (checkStop 12 0) s.begun := by
    rw [retFar, M_get_bind, if_pos (show s.begun.protectedMode = true from hm)]
    exact M_bind_error (requireHeld_refused (s := s.begun) hf (((readFrom_begun s).held _).trans h))
  exact hexec.trans (transfer_exc (t := s.begun) hp (by decide) hbody)

theorem exec_retFar_same {d : Desc} {la : Word32} (hcode : codeAt s (frameSel s) = some (d, la))
    (ha : returnAllowed s (frameSel s) d = true) (hoff : inSegment d (frameOff s) = true)
    (h : held s (2 * s.osz.bytes) = true) :
    exec (farRetInstr n) s = .next (retire s
      ((codeLoaded (afterFrame s.begun s.osz [0, s.osz.bytes]) (frameSel s) d la s.cpl (frameOff s)).setSp
        (wrapTo s.ssz (s.sp + BitVec.ofNat 32 (2 * s.osz.bytes + released n)))) .jump) := by
  refine exec_retFar_next hp hm h fun iw hiw => ?_
  have hfrom := (readFrom_begun s).trans (readFrom_afterFrame s.begun s.osz [0, s.osz.bytes])
  have hallowed : returnAllowed (afterFrame s.begun s.osz [0, s.osz.bytes]) (frameSel s) d = true := by
    rw [returnAllowed, hfrom.cpl]
    exact ha
  rw [returnTo_same_completes (hfrom.namedCode (namedCode_of_codeAt hcode)) hallowed hoff, hfrom.cpl, hfrom.ssz, hfrom.sp,
    hiw]

end RetFar

/-! ## IRET -/

theorem iretProtected_frame {s u : State} (hu : ReadFrom s u) (hnt : s.flags.nt = false)
    (h : held s (3 * s.osz.bytes) = true) :
    iretProtected s.osz u = (if s.osz = .s32 ∧ (frameItem s s.osz (2 * s.osz.bytes)).getLsbD 17 ∧ s.cpl = 0 then iretV86
      else do
        returnTo (frameSel s) (frameOff s) s.osz (3 * s.osz.bytes) 0
        modify fun t => { t with flags := s.iretFlags s.osz (frameItem s s.osz (2 * s.osz.bytes)) } : M Unit)
      (afterFrame u s.osz [0, s.osz.bytes, 2 * s.osz.bytes]) := by
  have hheld : held u (3 * s.osz.bytes) = true := (hu.held _).trans h
  have hfirst := readFrom_afterFrame u s.osz [0]
  have hsecond := readFrom_afterFrame u s.osz [0, s.osz.bytes]
  have hoff := frameRead_run (.refl u) hheld (show 0 + s.osz.bytes ≤ 3 * s.osz.bytes by omega)
  have hsel := frameRead_run hfirst hheld (show s.osz.bytes + s.osz.bytes ≤ 3 * s.osz.bytes by omega)
  have hflags := frameRead_run hsecond hheld (show 2 * s.osz.bytes + s.osz.bytes ≤ 3 * s.osz.bytes by omega)
  have hnt' : u.flags.nt = false := hu.flags ▸ hnt
  have hiret (sz : Size) (w : Word32) : u.iretFlags sz w = s.iretFlags sz w := by
    obtain ⟨d, sh, rfl⟩ := hu
    rfl
  rw [hu.frameItem] at hoff hsel hflags
  rw [iretProtected, M_get_bind, hnt', if_neg Bool.false_ne_true, M_bind_ok (requireHeld_held hheld), M_bind_ok hoff]
  refine (M_bind_ok hsel).trans <| (M_bind_ok hflags).trans ?_
  rw [hiret, hu.cpl]
  rfl

/-- The frame of an IRET that does not return to virtual-8086 mode (R512). -/
def plainIret (s : State) : Prop :=
  ¬(s.osz = .s32 ∧ (frameItem s s.osz (2 * s.osz.bytes)).getLsbD 17 = true ∧ s.cpl = 0)

/-- The state in which an IRET looks at the selector it returns to. -/
def iretRead (s : State) : State := afterFrame s.begun s.osz [0, s.osz.bytes, 2 * s.osz.bytes]

theorem readFrom_iretRead (s : State) : ReadFrom s (iretRead s) :=
  (readFrom_begun s).trans (readFrom_afterFrame ..)

section Iret

variable {s : State} (hp : s.prefixesOk false) (hm : s.protectedMode = true)
include hp hm

theorem exec_iret_next {t : State} (h : iretProtected s.osz s.begun = .ok () t) :
    exec .iret s = .next (retire s { t with nmiBlocked := false } .loaded) := by
  have hop : iretOp s.begun = .ok () { t with nmiBlocked := false } := by
    rw [iretOp, M_get_bind, if_pos (show s.begun.protectedMode = true from hm)]
    exact M_bind_ok h
  exact transfer_next hp (M_bind_ok hop)

theorem exec_iret_exc {v : Byte} {c : Word32} (hv : v ≠ 8) (h : Raises s (iretProtected s.osz s.begun) (v, c)) :
    exec .iret s = deliver s (s.faultEvent v (some c)) := by
  obtain ⟨t, hfrom, hrun⟩ := h
  have hop : iretOp s.begun = .error (checkStop v c) t := by
    rw [iretOp, M_get_bind, if_pos (show s.begun.protectedMode = true from hm)]
    exact M_bind_error hrun
  exact (transfer_exc hp hv (M_bind_error hop)).trans (by rw [hfrom.rollback])

variable (hnt : s.flags.nt = false)
include hnt

theorem exec_iret_unheld (hf : s.flat = true) (h : held s (3 * s.osz.bytes) = false) :
    exec .iret s = deliver s (s.faultEvent 12 (some 0)) := by
  refine exec_iret_exc hp hm (by decide) ⟨s.begun, readFrom_begun s, ?_⟩
  rw [iretProtected, M_get_bind, if_neg (show ¬s.begun.flags.nt = true from ne_true_of_eq_false hnt)]
  exact M_bind_error (requireHeld_refused (s := s.begun) hf (((readFrom_begun s).held _).trans h))

variable (h : held s (3 * s.osz.bytes) = true) (hplain : plainIret s)
include h hplain

theorem exec_iret_returns {t : State}
    (hx : returnTo (frameSel s) (frameOff s) s.osz (3 * s.osz.bytes) 0 (iretRead s) = .ok () t) :
    exec .iret s = .next (retire s
      { t.withFlags (s.iretFlags s.osz (frameItem s s.osz (2 * s.osz.bytes))) with nmiBlocked := false } .loaded) := by
  refine exec_iret_next hp hm ((iretProtected_frame (readFrom_begun s) hnt h).trans ?_)
  rw [if_neg hplain]
  exact M_bind_ok hx

theorem exec_iret_refused {v : Byte} {c : Word32}
    (hc : firstFailing (frameChecks s (3 * s.osz.bytes)) = some (v, c)) :
    exec .iret s = deliver s (s.faultEvent v (some c)) := by
  have hfrom := readFrom_iretRead s
  have hraises := returnTo_refused (hfrom.flat.trans (flat_of_held h)) (3 * s.osz.bytes) 0
    (by rw [hfrom.frameChecks]; exact hc)
  rw [hfrom.frameSel, hfrom.frameOff, hfrom.osz] at hraises
  obtain ⟨t, ht, hrun⟩ := hraises
  refine exec_iret_exc hp hm (frameChecks_vector hc) ⟨t, hfrom.trans ht, ?_⟩
  rw [iretProtected_frame (readFrom_begun s) hnt h, if_neg hplain]
  exact M_bind_error hrun

theorem exec_iret_same {d : Desc} {la : Word32} (hcode : codeAt s (frameSel s) = some (d, la))
    (ha : returnAllowed s (frameSel s) d = true) (hoff : inSegment d (frameOff s) = true) :
    exec .iret s = .next (retire s
      { ((codeLoaded (iretRead s) (frameSel s) d la s.cpl (frameOff s)).setSp
            (wrapTo s.ssz (s.sp + BitVec.ofNat 32 (3 * s.osz.bytes)))).withFlags
          (s.iretFlags s.osz (frameItem s s.osz (2 * s.osz.bytes))) with nmiBlocked := false } .loaded) := by
  have hfrom := readFrom_iretRead s
  have hallowed : returnAllowed (iretRead s) (frameSel s) d = true := by
    rw [returnAllowed, hfrom.cpl]
    exact ha
  have hrun := returnTo_same_completes (hfrom.namedCode (namedCode_of_codeAt hcode)) hallowed hoff s.osz
    (3 * s.osz.bytes) 0
  rw [hfrom.cpl, hfrom.ssz, hfrom.sp] at hrun
  exact exec_iret_returns hp hm hnt h hplain hrun

end Iret

end Sys2Proof.Machine

open Sys2Proof Sys2Proof.Machine Sys2Proof.Claims

/-- Settles O43: each transfer is its checks in the order of the rule, and what it does where they all hold. -/
theorem farTransferProtected : Obligations.FarTransferProtected := by
  unfold Obligations.FarTransferProtected
  intro s hp hm b
  refine ⟨fun call f d la hr hcode ha hoff hpush => exec_far_direct hp hm hr hcode ha hoff hpush, ?returns, ?refusals⟩
  case returns =>
    intro d la off sel hcode ha hoff
    exact ⟨fun h n => exec_retFar_same hp hm hcode ha hoff h,
      fun h hnt hplain => exec_iret_same hp hm hnt h hplain hcode ha hoff⟩
  case refusals =>
    intro hf
    refine ⟨fun h n => exec_retFar_unheld hp hm hf h, fun h hnt => exec_iret_unheld hp hm hnt hf h, fun v c => ?_⟩
    refine ⟨fun call f hr hn hc => exec_far_direct_refused hp hm hr hf hn hc, fun _ => ⟨?_, ?_⟩⟩
    · exact fun n h hc => exec_retFar_refused hp hm h hc
    · exact fun h hnt hplain hc => exec_iret_refused hp hm hnt h hplain hc
end

section
/-!
PROOF. Far returns and IRET to an outer level, and IRET to virtual-8086 mode. It settles O45.
-/
namespace Sys2Proof.Machine

open Sys2Proof.Claims

/-! ## Stack segments -/

/-- What it means that a selector names a stack segment for level `n`. -/
structure NamedStack (s : State) (n : BitVec 2) (sel : Word16) (d : Desc) (la : Word32) : Prop where
  flat : s.flat = true
  notNull : selNull sel = false
  addr : s.descAddr sel = some la
  desc : namedDesc s sel = d
  place : namedAddr s sel = la
  rpl : (selRpl sel == n) = true
  writable : d.writable = true
  dpl : (d.dpl == n) = true
  present : d.present = true

theorem namedStack_of_stackAt {s : State} {n : BitVec 2} {sel : Word16} {d : Desc} {la : Word32}
    (h : stackAt s n sel = some (d, la)) : NamedStack s n sel d la := by
  unfold stackAt at h
  split at h
  next => cases h
  next hnf =>
    obtain ⟨hn, hf⟩ : selNull sel = false ∧ s.flat = true := by simpa using hnf
    split at h
    next at' ha =>
      dsimp only at h
      split at h
      next hall =>
        cases h
        simp only [Bool.and_eq_true] at hall
        obtain ⟨⟨⟨hrpl, hw⟩, hdpl⟩, hpres⟩ := hall
        exact ⟨hf, hn, ha, namedDesc_of_some ha, namedAddr_of_some ha, hrpl, hw, hdpl, hpres⟩
      next => cases h
    next => cases h

theorem NamedStack.stackChecks_none {s : State} {n : BitVec 2} {sel : Word16} {d : Desc} {la : Word32}
    (h : NamedStack s n sel d la) (v : Byte) : (stackChecks s v n sel).all (fun c => c.1) = true := by
  simp [stackChecks, h.addr, h.desc, h.rpl, h.writable, h.dpl, h.present]

theorem ReadFrom.namedStack {s t : State} (h : ReadFrom s t) {n : BitVec 2} {sel : Word16} {d : Desc} {la : Word32}
    (hn : NamedStack s n sel d la) : NamedStack t n sel d la := by
  obtain ⟨tr, sh, rfl⟩ := h
  exact ⟨hn.flat, hn.notNull, hn.addr, hn.desc, hn.place, hn.rpl, hn.writable, hn.dpl, hn.present⟩

/-! ## The return to an outer level -/

/-- A return that R508 and R509 allow completes. -/
theorem returnTo_outer_completes {s : State} {sel : Word16} {d sd : Desc} {la sla off : Word32} {n : Nat} {iw : Word16}
    (h : NamedCode s sel d la) (ha : outerAllowed s sel d = true) (hoff : inSegment d off = true)
    (hheld : held s (n + iw.toNat + 2 * s.osz.bytes) = true)
    (hs : NamedStack s (selRpl sel) ((frameItem s s.osz (n + iw.toNat + s.osz.bytes)).truncate 16) sd sla) :
    returnTo sel off s.osz n iw s = .ok () (outerReturned
      (afterFrame s s.osz [n + iw.toNat, n + iw.toNat + s.osz.bytes]) sel d la off
      ((frameItem s s.osz (n + iw.toNat + s.osz.bytes)).truncate 16) sd sla
      (frameItem s s.osz (n + iw.toNat) + BitVec.ofNat 32 iw.toNat)) := by
  obtain ⟨hlt, hdpl⟩ := Bool.and_eq_true_iff.1 ha
  have hlt : s.cpl.toNat < (selRpl sel).toNat := of_decide_eq_true hlt
  have hr : selRpl sel ≠ s.cpl := fun he => Nat.lt_irrefl _ (he ▸ hlt)
  have hcode : firstFailing (returnChecks s sel ++ [(held s (n + iw.toNat + 2 * s.osz.bytes), 12, 0)]) = none := by
    have hret := h.returnChecks_none ((lvlLe_iff ..).2 (Nat.le_of_lt hlt)) hdpl
    rw [← Option.isNone_iff_eq_none, firstFailing_isNone] at hret ⊢
    rw [List.all_append, hret, hheld]
    rfl
  have hstack : firstFailing (outerChecks s sel off
      ((frameItem s s.osz (n + iw.toNat + s.osz.bytes)).truncate 16)) = none := by
    refine firstFailing_eq_none ?_
    rw [outerChecks, List.cons_append, List.all_cons, List.all_append, hs.stackChecks_none, hs.notNull, h.desc, hoff]
    rfl
  refine (returnTo_outer h.flat hr off n iw).trans ?_
  rw [afterChecks_of_none hcode, afterChecks_of_none hstack, h.desc, h.place, hs.desc, hs.place]

theorem afterFrame_afterFrame (s : State) (sz : Size) (ks ls : List Nat) :
    afterFrame (afterFrame s sz ks) sz ls = afterFrame s sz (ks ++ ls) := by
  rw [afterFrame_append, afterFrame, (readFrom_afterFrame s sz ks).sp]

theorem ReadFrom.outerAllowed {s t : State} (h : ReadFrom s t) (sel : Word16) (d : Desc) :
    outerAllowed t sel d = outerAllowed s sel d := by
  obtain ⟨tr, sh, rfl⟩ := h
  rfl

section Outer

variable {s : State} {d sd : Desc} {la sla : Word32} (hp : s.prefixesOk false) (hm : s.protectedMode = true)
  (hcode : codeAt s (frameSel s) = some (d, la)) (ha : outerAllowed s (frameSel s) d = true)
  (hoff : inSegment d (frameOff s) = true)
include hp hm hcode ha hoff

theorem exec_retFar_outer (n : Option Word16)
    (h : held s (2 * s.osz.bytes + released n + 2 * s.osz.bytes) = true)
    (hs : stackAt s (selRpl (frameSel s))
      ((frameItem s s.osz (2 * s.osz.bytes + released n + s.osz.bytes)).truncate 16) = some (sd, sla)) :
    exec (farRetInstr n) s = .next (retire s (outerReturned
      (afterFrame s.begun s.osz [0, s.osz.bytes, 2 * s.osz.bytes + released n,
        2 * s.osz.bytes + released n + s.osz.bytes]) (frameSel s) d la (frameOff s)
      ((frameItem s s.osz (2 * s.osz.bytes + released n + s.osz.bytes)).truncate 16) sd sla
      (frameItem s s.osz (2 * s.osz.bytes + released n) + BitVec.ofNat 32 (released n))) .jump) := by
  have hfirst : held s (2 * s.osz.bytes) = true := held_mono h (by cases s.osz <;> decide) (by omega)
  refine exec_retFar_next hp hm hfirst fun iw hiw => ?_
  rw [← hiw] at h hs ⊢
  have hfrom := (readFrom_begun s).trans (readFrom_afterFrame s.begun s.osz [0, s.osz.bytes])
  have hrun := returnTo_outer_completes (n := 2 * s.osz.bytes) (iw := iw) (sd := sd) (sla := sla)
    (hfrom.namedCode (namedCode_of_codeAt hcode)) ((hfrom.outerAllowed ..).trans ha) hoff
  rw [hfrom.osz, hfrom.held, hfrom.frameItem, hfrom.frameItem, afterFrame_afterFrame] at hrun
  exact hrun h (hfrom.namedStack (namedStack_of_stackAt hs))

theorem exec_iret_outer (h : held s (5 * s.osz.bytes) = true) (hnt : s.flags.nt = false) (hplain : plainIret s)
    (hs : stackAt s (selRpl (frameSel s)) ((frameItem s s.osz (3 * s.osz.bytes + s.osz.bytes)).truncate 16) =
      some (sd, sla)) :
    exec .iret s = .next (retire s
      { (outerReturned (afterFrame s.begun s.osz [0, s.osz.bytes, 2 * s.osz.bytes, 3 * s.osz.bytes, 4 * s.osz.bytes])
            (frameSel s) d la (frameOff s) ((frameItem s s.osz (3 * s.osz.bytes + s.osz.bytes)).truncate 16) sd sla
            (frameItem s s.osz (3 * s.osz.bytes))).withFlags
          (s.iretFlags s.osz (frameItem s s.osz (2 * s.osz.bytes))) with nmiBlocked := false } .loaded) := by
  have hfirst : held s (3 * s.osz.bytes) = true := held_mono h (by cases s.osz <;> decide) (by omega)
  have hfour : 4 * s.osz.bytes = 3 * s.osz.bytes + s.osz.bytes := by omega
  have hheld : held s (3 * s.osz.bytes + 0 + 2 * s.osz.bytes) = true := by
    rwa [show 3 * s.osz.bytes + 0 + 2 * s.osz.bytes = 5 * s.osz.bytes by omega]
  have hfrom := readFrom_iretRead s
  have hrun := returnTo_outer_completes (n := 3 * s.osz.bytes) (iw := 0) (sd := sd) (sla := sla)
    (hfrom.namedCode (namedCode_of_codeAt hcode)) ((hfrom.outerAllowed ..).trans ha) hoff
  rw [hfrom.osz, hfrom.held, hfrom.frameItem, hfrom.frameItem, show BitVec.toNat (0 : Word16) = 0 from rfl,
    show BitVec.ofNat 32 0 = 0#32 from rfl, BitVec.add_zero] at hrun
  refine exec_iret_returns hp hm hnt hfirst hplain ((hrun hheld (hfrom.namedStack (namedStack_of_stackAt hs))).trans ?_)
  rw [iretRead, afterFrame_afterFrame, hfour]
  rfl

end Outer

/-! ## Reads that repeat -/

/-- The matches of a read are those of the breakpoints alone: a read after another finds the same. -/
theorem afterPeek_comm (s : State) (sz : Size) (p q : Word32) :
    (s.afterPeek sz p).afterPeek sz q = (s.afterPeek sz q).afterPeek sz p := by
  have hor (x y z : BitVec 4) : (x ||| y) ||| z = (x ||| z) ||| y := by
    rw [BitVec.or_assoc, BitVec.or_comm y, ← BitVec.or_assoc]
  unfold State.afterPeek State.afterLoad State.noteAccess
  congr 1
  exact congrArg₂ (fun h q : BitVec 4 => { s.trap with hits := h, quiet := q }) (hor ..) (hor ..)

theorem afterPeek_again (s : State) (sz : Size) (p : Word32) :
    (s.afterPeek sz p).afterPeek sz p = s.afterPeek sz p := by
  have hor (x y : BitVec 4) : (x ||| y) ||| y = x ||| y := by rw [BitVec.or_assoc, BitVec.or_self]
  unfold State.afterPeek State.afterLoad State.noteAccess
  congr 1
  exact congrArg₂ (fun h q : BitVec 4 => { s.trap with hits := h, quiet := q }) (hor ..) (hor ..)

/-- An item that has been read leaves nothing new when it is read again. -/
theorem foldl_afterPeek_again (sz : Size) (sp : Word32) {k : Nat} {ks : List Nat} (h : k ∈ ks) (t : State) :
    ks.foldl (fun t k => t.afterPeek sz (sp + BitVec.ofNat 32 k)) (t.afterPeek sz (sp + BitVec.ofNat 32 k)) =
      ks.foldl (fun t k => t.afterPeek sz (sp + BitVec.ofNat 32 k)) t := by
  induction ks generalizing t with
  | nil => cases h
  | cons l ks ih =>
    rw [List.foldl_cons, List.foldl_cons]
    rcases List.mem_cons.1 h with rfl | hks
    · rw [afterPeek_again]
    · rw [afterPeek_comm, ih hks]

theorem afterFrame_cons (s : State) (sz : Size) (k : Nat) (ks : List Nat) (h : k ∈ ks) :
    afterFrame s sz (k :: ks) = afterFrame s sz ks := foldl_afterPeek_again sz s.sp h s

/-! ## IRET to virtual-8086 mode -/

/-- The distances of the nine items of a frame that returns to virtual-8086 mode (R513). -/
def v86Offsets : List Nat := [0, 4, 8, 12, 16, 20, 24, 28, 32]

/-- `w` with the registers loaded from the items `it` of such a frame. -/
def v86Loaded (w : State) (it : Nat → Word32) : State :=
  let sel (k : Nat) : SegReg := SegReg.v86 ((it k).truncate 16)
  { (jumped w (it 0 &&& 0xFFFF)).setReg32 esp (it 3) with
    flags := { EFlags.ofWord (it 2) with vm := true }, cpl := 3
    cs := sel 1, ss := sel 4, es := sel 5, ds := sel 6, fs := sel 7, gs := sel 8 }

theorem v86Returned_eq {s w : State} (h : afterFrame s .s32 v86Offsets = w) : v86Returned s =
    { v86Loaded w (fun k => frameItem s .s32 (4 * k)) with nmiBlocked := false } := by
  have hlist : [0, 4, 8, 12, 16, 20, 24, 28, 32] = v86Offsets := rfl
  rw [v86Returned, hlist, h]
  rfl

theorem iretV86_run {u : State} (h : held u 36 = true) :
    iretV86 u = .ok () (v86Loaded (afterFrame u .s32 v86Offsets) fun k => frameItem u .s32 (4 * k)) := by
  have hread (ks : List Nat) {k : Nat} (hk : 4 * k + Size.s32.bytes ≤ 36) :
      frameRead .s32 u.sp (4 * k) (afterFrame u .s32 ks) =
        .ok (frameItem u .s32 (4 * k)) (afterFrame u .s32 (ks ++ [4 * k])) := by
    rw [frameRead_run (readFrom_afterFrame ..) h hk, afterFrame_append]
    rfl
  refine (M_get_bind _ _).trans <| (M_bind_ok (requireHeld_held h)).trans ?_
  refine (M_bind_ok (hread [] (k := 0) (by decide))).trans <| (M_bind_ok (hread _ (k := 1) (by decide))).trans <|
    (M_bind_ok (hread _ (k := 2) (by decide))).trans <| (M_bind_ok (hread _ (k := 3) (by decide))).trans <|
    (M_bind_ok (hread _ (k := 4) (by decide))).trans <| (M_bind_ok (hread _ (k := 5) (by decide))).trans <|
    (M_bind_ok (hread _ (k := 6) (by decide))).trans <| (M_bind_ok (hread _ (k := 7) (by decide))).trans <|
    (M_bind_ok (hread _ (k := 8) (by decide))).trans ?_
  rw [show v86Offsets = [] ++ [4 * 0] ++ [4 * 1] ++ [4 * 2] ++ [4 * 3] ++ [4 * 4] ++ [4 * 5] ++ [4 * 6] ++ [4 * 7] ++
    [4 * 8] from rfl]
  generalize afterFrame u .s32 _ = w
  rfl

/-- The three items that an IRET looks at first are among the nine. -/
theorem v86Returned_iretRead {s : State} (hsz : s.osz = .s32) : v86Returned (iretRead s) = v86Returned s.begun := by
  have hfrom : ReadFrom s.begun (iretRead s) := readFrom_afterFrame ..
  have hread : iretRead s = afterFrame s.begun .s32 [0, 4, 8] := by
    rw [iretRead, hsz]
    rfl
  have hframe : afterFrame (iretRead s) .s32 v86Offsets = afterFrame s.begun .s32 v86Offsets := by
    rw [hread, afterFrame_afterFrame]
    exact (afterFrame_cons _ _ _ _ (by decide)).trans <| (afterFrame_cons _ _ _ _ (by decide)).trans
      (afterFrame_cons _ _ _ _ (by decide))
  rw [v86Returned_eq hframe, v86Returned_eq rfl]
  simp only [hfrom.frameItem]

section V86

variable {s : State} (hp : s.prefixesOk false) (hm : s.protectedMode = true) (hsz : s.osz = .s32) (hc : s.cpl = 0)
  (hnt : s.flags.nt = false) (hvm : (frameItem s .s32 8).getLsbD 17 = true)
include hsz hc hnt hvm

theorem iretSteps_toV86 (h : held s 12 = true) : iretProtected s.osz s.begun = iretV86 (iretRead s) := by
  have hheld : held s (3 * s.osz.bytes) = true := by rwa [hsz]
  have hv86 : s.osz = .s32 ∧ (frameItem s s.osz (2 * s.osz.bytes)).getLsbD 17 ∧ s.cpl = 0 := by
    refine ⟨hsz, ?_, hc⟩
    rwa [hsz]
  rw [iretProtected_frame (readFrom_begun s) hnt hheld, if_pos hv86]
  rfl

include hp hm

theorem exec_iretV86 (h : held s 36 = true) : exec .iret s = .next (retire s (v86Returned s.begun) .loaded) := by
  have hfrom := readFrom_iretRead s
  have hrun := iretV86_run ((hfrom.held 36).trans h)
  rw [← iretSteps_toV86 hsz hc hnt hvm (held_mono h (by decide) (by decide))] at hrun
  rw [exec_iret_next hp hm hrun, ← v86Returned_iretRead hsz, v86Returned_eq rfl]

theorem exec_iretV86_unheld (h : held s 12 = true) (hrest : held s 36 = false) :
    exec .iret s = deliver s (s.faultEvent 12 (some 0)) := by
  have hfrom := readFrom_iretRead s
  refine exec_iret_exc hp hm (by decide) ⟨iretRead s, hfrom, ?_⟩
  rw [iretSteps_toV86 hsz hc hnt hvm h]
  exact (M_get_bind _ _).trans
    (M_bind_error (requireHeld_refused (hfrom.flat.trans (flat_of_held h)) ((hfrom.held 36).trans hrest)))

end V86

end Sys2Proof.Machine

open Sys2Proof Sys2Proof.Machine Sys2Proof.Claims

/-- Settles O45: the items of the outer stack are read after the checks on the code segment, and those of the frame of
virtual-8086 mode all at once. -/
theorem outerReturn : Obligations.OuterReturn := by
  unfold Obligations.OuterReturn
  intro s hp hm b off sel outerSel
  refine ⟨fun d sd la sla hcode ha hoff => ⟨fun n => ?_, fun h hnt hs hplain => ?_⟩,
    fun hsz hc hnt hvm => ⟨?_, ?_⟩, fun v c hlt => ⟨fun n h hcheck => ?_, fun h hnt hplain hcheck => ?_⟩⟩
  · intro used h hs
    exact exec_retFar_outer hp hm hcode ha hoff n h hs
  · exact exec_iret_outer hp hm hcode ha hoff h hnt hplain hs
  · exact exec_iretV86 hp hm hsz hc hnt hvm
  · exact exec_iretV86_unheld hp hm hsz hc hnt hvm
  · exact exec_retFar_refused hp hm h hcheck
  · exact exec_iret_refused hp hm hnt h hplain hcheck
end

section
/-!
PROOF. The stack that the task state segment gives for an inner level, and the change to it (R504, R647). It serves O44 and O49.
-/
namespace Sys2Proof.Machine

open Sys2Proof.Claims

/-! ## The inner stack -/

/-- The low word of a double word, as a read of a word takes it. -/
theorem physDword_low (s : State) (la : Word32) :
    (s.physDword la).extractLsb' 0 16 = s.physByte (la + 1) ++ s.physByte la := by
  apply BitVec.eq_of_toNat_eq
  have h0 := (s.physByte la).isLt
  have h1 := (s.physByte (la + 1)).isLt
  rw [extractLsb'_toNat_div, append_toNat, physDword_toNat]
  omega

/-- The place of the stack pointer of level `n` in the task state segment; its selector stands behind it (R150, R151). -/
def innerPlace (s : State) (n : BitVec 2) : Word32 :=
  if s.tr.is386 then s.tr.base + 4 + BitVec.ofNat 32 (8 * n.toNat) else s.tr.base + 2 + BitVec.ofNat 32 (4 * n.toNat)

theorem innerPointer_386 {s : State} (h : s.tr.is386 = true) (n : BitVec 2) :
    innerPointer s n = (s.physByte (innerPlace s n + 4 + 1) ++ s.physByte (innerPlace s n + 4),
      s.physDword (innerPlace s n)) := by
  have hsel : s.tr.base + BitVec.ofNat 32 (8 * n.toNat + 8) = s.tr.base + 4 + BitVec.ofNat 32 (8 * n.toNat) + 4 := by
    show _ = s.tr.base + BitVec.ofNat 32 4 + BitVec.ofNat 32 (8 * n.toNat) + BitVec.ofNat 32 4
    rw [add_offset, add_offset, show 4 + (8 * n.toNat + 4) = 8 * n.toNat + 8 by omega]
  have hsp : s.tr.base + BitVec.ofNat 32 (8 * n.toNat + 4) = s.tr.base + 4 + BitVec.ofNat 32 (8 * n.toNat) := by
    show _ = s.tr.base + BitVec.ofNat 32 4 + BitVec.ofNat 32 (8 * n.toNat)
    rw [add_offset, show 4 + 8 * n.toNat = 8 * n.toNat + 4 by omega]
  rw [innerPointer, innerPlace, if_pos h, if_pos h, hsel, hsp, physDword_low]

theorem innerPointer_286 {s : State} (h : s.tr.is386 = false) (n : BitVec 2) :
    innerPointer s n = (s.physByte (innerPlace s n + 2 + 1) ++ s.physByte (innerPlace s n + 2),
      (s.physByte (innerPlace s n + 1) ++ s.physByte (innerPlace s n) : Word16).zeroExtend 32) := by
  have hsel : s.tr.base + BitVec.ofNat 32 (4 * n.toNat + 4) = s.tr.base + 2 + BitVec.ofNat 32 (4 * n.toNat) + 2 := by
    show _ = s.tr.base + BitVec.ofNat 32 2 + BitVec.ofNat 32 (4 * n.toNat) + BitVec.ofNat 32 2
    rw [add_offset, add_offset, show 2 + (4 * n.toNat + 2) = 4 * n.toNat + 4 by omega]
  have hsp : s.tr.base + BitVec.ofNat 32 (4 * n.toNat + 2) = s.tr.base + 2 + BitVec.ofNat 32 (4 * n.toNat) := by
    show _ = s.tr.base + BitVec.ofNat 32 2 + BitVec.ofNat 32 (4 * n.toNat)
    rw [add_offset, show 2 + 4 * n.toNat = 4 * n.toNat + 2 by omega]
  have h' := ne_true_of_eq_false h
  rw [innerPointer, innerPlace, if_neg h', if_neg h', hsel, hsp, physDword_low, physDword_low]

/-- The stack of an inner level as an `InnerStack`. -/
def namedInner (s : State) (n : BitVec 2) : InnerStack :=
  { sel := (innerPointer s n).1, sp := (innerPointer s n).2, desc := namedDesc s (innerPointer s n).1
    addr := namedAddr s (innerPointer s n).1 }

/-- The checks on the stack that the task state segment gives (R504, R647). -/
theorem innerStack_end {s : State} (hf : s.flat = true) (n : BitVec 2) (b k : Nat) :
    (do require0 (!selNull (innerPointer s n).1) 10
        let (d, la) ← stackDesc 10 n (innerPointer s n).1
        let g := d.toSeg (innerPointer s n).1
        requireSel (roomBelow (fun off => inLimit g off b) (if g.db then .s32 else .s16) (innerPointer s n).2 b k) 12
          (innerPointer s n).1
        return { sel := (innerPointer s n).1, sp := (innerPointer s n).2, desc := d, addr := la } : M InnerStack) s =
      afterChecks (innerChecks s n b k).tail s (.ok (namedInner s n) s) := by
  rw [require0_bind, innerChecks, List.cons_append, List.cons_append, List.tail_cons, afterChecks_cons,
    bind_afterChecks (stackDesc_checks hf 10 n _), afterChecks_append]
  dsimp only
  rw [requireSel_bind, afterChecks_cons, afterChecks_nil]
  rfl

theorem innerStack_checks {s : State} (hf : s.flat = true) (n : BitVec 2) (b k : Nat) :
    innerStack n b k s = afterChecks (innerChecks s n b k) s (.ok (namedInner s n) s) := by
  have hsplit : innerChecks s n b k = (innerInTss s n, 10, selCode s.tr.selector) :: (innerChecks s n b k).tail := rfl
  rw [hsplit, afterChecks_cons, ← innerStack_end hf, innerStack, M_get_bind, requireSel_bind]
  refine congrArg (fun r => if innerInTss s n = true then r else _) ?_
  cases h : s.tr.is386
  case true =>
    have hplace : innerPlace s n = s.tr.base + 4 + BitVec.ofNat 32 (8 * n.toNat) := if_pos h
    rw [innerPointer_386 h, hplace]
    exact (M_bind_ok (sysRead_word_flat hf _)).trans (M_bind_ok (sysRead_dword_flat hf _))
  case false =>
    have hplace : innerPlace s n = s.tr.base + 2 + BitVec.ofNat 32 (4 * n.toNat) := if_neg (ne_true_of_eq_false h)
    have hsp (la : Word32) : ((fun v => v.zeroExtend 32) <$> sysRead .w16 la : M Word32) s =
        .ok ((s.physByte (la + 1) ++ s.physByte la : Word16).zeroExtend 32) s := by
      rw [M_map, sysRead_word_flat hf]
    rw [innerPointer_286 h, hplace]
    exact (M_bind_ok (sysRead_word_flat hf _)).trans (M_bind_ok (hsp _))

/-- The change to an inner stack (R504, R647, R648). -/
theorem switchStack_run {s : State} (hf : s.flat = true) (n : BitVec 2) :
    switchStack (namedInner s n) n s =
      .ok () (onInnerStack s n (namedDesc s (innerPointer s n).1) (namedAddr s (innerPointer s n).1)) := by
  have hflags := (accessedSet_same s (namedDesc s (innerPointer s n).1) (namedAddr s (innerPointer s n).1)).field
    State.flags fun _ _ _ => rfl
  rw [switchStack, M_bind_ok (setAccessed_flat hf ..), onInnerStack, ← hflags]
  rfl

/-! ## The room on the inner stack -/

theorem onInnerStack_ss (s : State) (n : BitVec 2) (d : Desc) (la : Word32) :
    (onInnerStack s n d la).ss = d.toSeg (innerPointer s n).1 := by
  rw [onInnerStack, State.setSp, setAddrReg_frame]

theorem onInnerStack_ssz {s : State} (hpe : s.cr0.pe = true) (n : BitVec 2) (d : Desc) (la : Word32) :
    (onInnerStack s n d la).ssz = if (d.toSeg (innerPointer s n).1).db then .s32 else .s16 := by
  have hcr0 : (accessedSet s d la).cr0 = s.cr0 := (accessedSet_same s d la).field State.cr0 fun _ _ _ => rfl
  rw [onInnerStack, State.setSp, setAddrReg_frame]
  simp [State.ssz, State.protectedMode, hcr0, hpe]

theorem onInnerStack_sp (s : State) (n : BitVec 2) (d : Desc) (la : Word32) :
    (onInnerStack s n d la).sp = wrapTo (onInnerStack s n d la).ssz (innerPointer s n).2 := by
  have hssz (u : State) (v : Word32) : (u.setSp v).ssz = u.ssz := by
    rw [State.setSp, setAddrReg_frame]
    rfl
  rw [onInnerStack, sp_setSp, hssz]

/-- Items that can be pushed on the inner stack have the room that R504 and R647 ask for. -/
theorem innerRoom_of_canPushItems {s : State} {n : BitVec 2} {d : Desc} {la : Word32} {b k : Nat} (hpe : s.cr0.pe = true)
    (h : canPushItems (onInnerStack s n d la) b k = true) :
    ((List.range k).all fun i => inLimit (d.toSeg (innerPointer s n).1)
      (wrapTo (if (d.toSeg (innerPointer s n).1).db then .s32 else .s16)
        ((innerPointer s n).2 - BitVec.ofNat 32 (b * (i + 1)))) b) = true := by
  simp only [canPushItems, List.all_eq_true] at h ⊢
  intro i hi
  have hseg := canAccess_seg (h i hi)
  have hplace : below (onInnerStack s n d la) (onInnerStack s n d la).sp b (i + 1) =
      wrapTo (onInnerStack s n d la).ssz ((innerPointer s n).2 - BitVec.ofNat 32 (b * (i + 1))) := by
    have hwrap := wrapTo_sub (onInnerStack s n d la).ssz (innerPointer s n).2 0 (b * (i + 1))
    rw [show BitVec.ofNat 32 0 = 0#32 from rfl, BitVec.sub_zero, Nat.zero_add] at hwrap
    rw [below, onInnerStack_sp, hwrap]
  simp only [State.segAllows, State.inReach, Bool.and_eq_true] at hseg
  obtain ⟨-, hlimit, -⟩ := hseg
  rwa [hplace, onInnerStack_ssz hpe, show State.seg _ .ss = _ from onInnerStack_ss s n d la] at hlimit

/-- The inner stack passes its checks where it is a stack segment for the level, and the items can be pushed. -/
theorem innerChecks_pass {s : State} {n : BitVec 2} {d : Desc} {la : Word32} {b k : Nat} (hpe : s.cr0.pe = true)
    (hin : innerInTss s n = true) (hs : NamedStack s n (innerPointer s n).1 d la)
    (hpush : canPushItems (onInnerStack s n d la) b k = true) :
    (innerChecks s n b k).all (fun c => c.1) = true := by
  have hroom := innerRoom_of_canPushItems hpe hpush
  rw [innerChecks, List.cons_append, List.cons_append, List.all_cons, List.all_cons, List.all_append,
    hs.stackChecks_none, hs.notNull, hin, hs.desc]
  simpa using hroom

theorem namedInner_eq {s : State} {n : BitVec 2} {d : Desc} {la : Word32}
    (hs : NamedStack s n (innerPointer s n).1 d la) :
    onInnerStack s n (namedDesc s (innerPointer s n).1) (namedAddr s (innerPointer s n).1) = onInnerStack s n d la := by
  rw [hs.desc, hs.place]

end Sys2Proof.Machine
end

section
/-!
PROOF. Far JMP and CALL through a call gate: the checks of R503 and R504 in their order, and the transfer after them. It settles
O44.
-/
namespace Sys2Proof.Machine

open Sys2Proof.Claims

/-! ## The parameters -/

theorem stackRead_refused {s t : State} {sz : Size} {sp : Word32} (ht : ReadFrom s t) (hf : s.flat = true)
    (h : s.canPeek sz sp = false) : stackRead sz sp t = .error (checkStop 12 0) t := by
  have hseg : t.segAllows .ss sp sz.bytes false = false := by
    rw [← ht.canPeek, State.canPeek, State.canAccess, ht.flat, hf, Bool.true_and] at h
    exact h
  cases sz
  case s16 => exact M_bind_error (M_bind_error (lreadBytes_refused hseg))
  case s32 => exact M_bind_error (lreadBytes_refused hseg)

/-- An item that cannot be read stops the reading of a series (R504). -/
theorem stackItems_unheld {s t : State} {sz : Size} {k n : Nat} (ht : ReadFrom s t) (hf : s.flat = true)
    (h : (List.range' k n).all (fun i => s.canPeek sz (above s sz.bytes i)) = false) :
    Raises s (stackItems sz (above s sz.bytes k) n t) (12, 0) := by
  induction n generalizing k t with
  | zero => cases h
  | succ n ih =>
    have hcons : (s.canPeek sz (above s sz.bytes k) &&
        (List.range' (k + 1) n).all fun i => s.canPeek sz (above s sz.bytes i)) = false := h
    cases hpeek : s.canPeek sz (above s sz.bytes k)
    case false => exact ⟨t, ht, M_bind_error (stackRead_refused ht hf hpeek)⟩
    case true =>
      rw [hpeek, Bool.true_and] at hcons
      have hread : stackRead sz (above s sz.bytes k) t =
          .ok (t.peek sz (above s sz.bytes k)) (t.afterPeek sz (above s sz.bytes k)) :=
        stackRead_flat ((ht.canPeek ..).trans hpeek)
      have hfrom := ht.trans (readFrom_afterPeek t sz (above s sz.bytes k))
      have hup : (t.afterPeek sz (above s sz.bytes k)).spAbove (above s sz.bytes k) sz.bytes =
          above s sz.bytes (k + 1) := by
        rw [← spAbove_above]
        obtain ⟨d, sh, hd⟩ := hfrom
        rw [hd]
        rfl
      obtain ⟨u, hu, hrun⟩ := ih hfrom hcons
      refine ⟨u, hu, ?_⟩
      rw [stackItems, M_bind_ok hread, M_get_bind, hup]
      exact M_bind_error hrun

theorem stackItems_sp_unheld {s : State} {sz : Size} {n : Nat} (hf : s.flat = true)
    (h : canPeekItems s sz n = false) : Raises s (stackItems sz s.sp n s) (12, 0) := by
  rw [canPeekItems, List.range_eq_range'] at h
  have hraises := stackItems_unheld (.refl s) hf h
  rwa [above_zero] at hraises

/-! ## An inner call -/

theorem gateCount_eq (g : Desc) : gateCount g = (g.extractLsb' 32 5).toNat := rfl

theorem innerCallFrame_length (s : State) (g : Desc) : (innerCallFrame s g).length = 4 + gateCount g := by
  simp [innerCallFrame, gateCount_eq]
  omega

/-- An inner call after its checks: the parameters, the change of stacks, the pushes, the jump (R504). -/
def innerCallRest (s : State) (g : Desc) (csel : Word16) (d : Desc) (la off : Word32) : M Retire := do
  let params ← stackItems (gateSize g) s.sp (gateCount g)
  switchStack (namedInner s d.dpl) d.dpl
  pushAll (gateSize g) ([selItem s.ss, s.reg32 esp] ++ params.reverse ++ [selItem s.cs, s.nextEip])
  loadCs csel d la d.dpl
  branchTo off
  return .jump

theorem innerCall_checks {s : State} (hf : s.flat = true) (g : Desc) (csel : Word16) (d : Desc) (la off : Word32) :
    innerCall g csel d la off s =
      afterChecks (innerChecks s d.dpl (gateSize g).bytes (4 + gateCount g) ++ [(inSegment d off, 13, 0)]) s
        (innerCallRest s g csel d la off s) := by
  rw [innerCall, M_get_bind, bind_afterChecks (innerStack_checks hf ..), afterChecks_append]
  dsimp only
  rw [require0_bind, afterChecks_cons, afterChecks_nil]
  rfl

theorem onInnerStack_flat {s : State} (hf : s.flat = true) (n : BitVec 2) (d : Desc) (la : Word32) :
    (onInnerStack s n d la).flat = true := by
  rw [onInnerStack, State.setSp, setAddrReg_frame]
  exact (accessedSet_flat s d la).trans hf

theorem ReadFrom.namedInner {s t : State} (h : ReadFrom s t) (n : BitVec 2) : namedInner t n = namedInner s n := by
  obtain ⟨d, sh, rfl⟩ := h
  rfl

theorem ReadFrom.innerPointer {s t : State} (h : ReadFrom s t) (n : BitVec 2) : innerPointer t n = innerPointer s n := by
  obtain ⟨d, sh, rfl⟩ := h
  rfl

theorem ReadFrom.innerChecks {s t : State} (h : ReadFrom s t) (n : BitVec 2) (b k : Nat) :
    innerChecks t n b k = innerChecks s n b k := by
  obtain ⟨d, sh, rfl⟩ := h
  rfl

theorem innerCallRest_run {s : State} {g : Desc} {csel : Word16} {d sd : Desc} {la sla off : Word32}
    (hf : s.flat = true) (hpeek : canPeekItems s (gateSize g) (gateCount g) = true)
    (hs : NamedStack s d.dpl (innerPointer s d.dpl).1 sd sla)
    (hpush : canPushItems (onInnerStack (afterItems s (gateSize g) (gateCount g)) d.dpl sd sla) (gateSize g).bytes
      (innerCallFrame s g).length = true) :
    innerCallRest s g csel d la off s = .ok .jump (codeLoaded
      (pushedItems (onInnerStack (afterItems s (gateSize g) (gateCount g)) d.dpl sd sla) (gateSize g)
        (innerCallFrame s g)) csel d la d.dpl off) := by
  have hfrom := readFrom_afterItems s (gateSize g) (gateCount g)
  have hflat := hfrom.flat.trans hf
  have hswitch := switchStack_run hflat d.dpl
  have hs' : NamedStack (afterItems s (gateSize g) (gateCount g)) d.dpl
      (innerPointer (afterItems s (gateSize g) (gateCount g)) d.dpl).1 sd sla := by
    rw [hfrom.innerPointer]
    exact hfrom.namedStack hs
  rw [namedInner_eq hs', hfrom.namedInner] at hswitch
  have hpushed := stackOnly_pushedItems (onInnerStack (afterItems s (gateSize g) (gateCount g)) d.dpl sd sla) (gateSize g)
    (innerCallFrame s g)
  rw [innerCallRest, M_bind_ok (stackItems_sp_run hpeek), M_bind_ok hswitch]
  exact (M_bind_ok (pushAll_flat (innerCallFrame s g) hpush)).trans
    (loadCs_branch (hpushed.flat.trans (onInnerStack_flat hflat ..)) ..)

/-! ## The gate -/

/-- The level changes: the segment is not conforming and has another level (R503, R646). -/
def goesInner (s : State) (d : Desc) : Bool := !d.conforming && d.dpl != s.cpl

/-- The checks on a call gate and on the segment it names (R503). -/
def gatePrefix (s : State) (call : Bool) (sel : Word16) : List Check :=
  let g := namedDesc s sel
  let csel := gateSelector g
  let d := namedDesc s csel
  (privOk s.cpl sel g, 13, selCode sel) :: (g.present, 11, selCode sel) ::
    codeChecks s csel (lvlLe d.dpl s.cpl && (call || !goesInner s d))

theorem goesInner_not (s : State) (d : Desc) : (!goesInner s d) = (d.conforming || d.dpl == s.cpl) := by
  simp [goesInner, bne]

theorem viaOf_beq (call : Bool) : (viaOf call == .call) = call := by cases call <;> rfl

/-- The checks on the segment that a call gate names, once it has been found (R503). -/
theorem gateTarget_checks (s : State) (call : Bool) (csel : Word16) (d : Desc) (f : Unit → M Retire) :
    (do requireSel (d.isCode && lvlLe d.dpl s.cpl) 13 csel
        requireSel (viaOf call == .call || d.conforming || d.dpl == s.cpl) 13 csel
        requireSel d.present 11 csel >>= f : M Retire) s =
      afterChecks [(d.isCode, 13, selCode csel), (lvlLe d.dpl s.cpl && (call || !goesInner s d), 13, selCode csel),
        (d.present, 11, selCode csel)] s (f () s) := by
  rw [requireSel_bind, requireSel_bind, requireSel_bind, afterChecks_cons, afterChecks_cons, afterChecks_cons,
    afterChecks_nil, viaOf_beq, goesInner_not, Bool.or_assoc]
  cases d.isCode
  case false => rfl
  case true => cases lvlLe d.dpl s.cpl <;> rfl

theorem throughGate_checks {s : State} (hf : s.flat = true) (call : Bool) (sel : Word16) :
    let g := namedDesc s sel
    let csel := gateSelector g
    let d := namedDesc s csel
    let la := namedAddr s csel
    let off := gateOffset g (gateSize g)
    throughGate (viaOf call) sel g s = afterChecks (gatePrefix s call sel) s
      ((if call && goesInner s d then innerCall g csel d la off else sameLevel (viaOf call) (gateSize g) csel d la off) s) := by
  intro g csel d la off
  have hsplit : gatePrefix s call sel =
      (privOk s.cpl sel g, 13, selCode sel) :: (g.present, 11, selCode sel) ::
        ([(!selNull csel, 13, 0), ((s.descAddr csel).isSome, 13, selCode csel)] ++ [(d.isCode, 13, selCode csel),
          (lvlLe d.dpl s.cpl && (call || !goesInner s d), 13, selCode csel), (d.present, 11, selCode csel)]) := rfl
  have hinner : (viaOf call == .call && !d.conforming && d.dpl != s.cpl) = (call && goesInner s d) := by
    rw [viaOf_beq, Bool.and_assoc, goesInner]
  rw [hsplit, afterChecks_cons, afterChecks_cons, afterChecks_append, throughGate, M_get_bind, requireSel_bind,
    requireSel_bind, named_bind hf, ← hinner]
  exact congrArg (fun r => if privOk s.cpl sel g then (if g.present then afterChecks _ s r else _) else _)
    (gateTarget_checks s call csel d _)

/-- A call gate in protected mode, once its selector is known not to be null. -/
theorem farSteps_gate {s : State} (hf : s.flat = true) {sel : Word16} (hn : namesSystem s sel = true)
    (ht : [4, 12].contains (namedDesc s sel).type = true) (via : Via) (off : Word32) :
    farProtectedSteps via sel off s = throughGate via sel (namedDesc s sel) s := by
  have haddr : (s.descAddr sel).isSome = true := by
    cases ha : s.descAddr sel with
    | none =>
      rw [namedDesc, ha] at ht
      exact absurd ht (show ¬[4, 12].contains (0 : Desc).type = true by decide)
    | some la => rfl
  simp only [namesSystem, Bool.and_eq_true] at hn
  obtain ⟨⟨hnull, hsys⟩, -⟩ := hn
  have hcode : (namedDesc s sel).isCode = false := by
    have hseg : (namedDesc s sel).isSegment = false := by simpa using hsys
    rw [Desc.isCode, hseg, Bool.false_and]
  have hgate : (!(namedDesc s sel).isSegment &&
      ((namedDesc s sel).type == 4 || (namedDesc s sel).type == 12)) = true := by
    rw [hsys]
    simpa using ht
  rw [farProtectedSteps, named_bind hf, hnull, haddr, afterChecks_of_none rfl]
  dsimp only
  rw [M_get_bind, hcode, if_neg Bool.false_ne_true, hgate, if_pos rfl]

/-! ## The refusals -/

/-- The checks after those on the gate and its segment (R502 to R504). -/
def gateRest (s : State) (call : Bool) (sel : Word16) : List Check :=
  let g := namedDesc s sel
  let sz := gateSize g
  let d := namedDesc s (gateSelector g)
  if goesInner s d then
    innerChecks s d.dpl sz.bytes (4 + gateCount g) ++
      [(inSegment d (gateOffset g sz), 13, 0), (canPeekItems s sz (gateCount g), 12, 0)]
  else entryChecks s sz.bytes (if call then 2 else 0) d (gateOffset g sz)

theorem gateChecks_eq (s : State) (call : Bool) (sel : Word16) :
    gateChecks s call sel = gatePrefix s call sel ++ gateRest s call sel := rfl

/-- A jump through a gate does not go to an inner level (R503). -/
theorem gatePrefix_jump {s : State} {call : Bool} {sel : Word16} (h : firstFailing (gatePrefix s call sel) = none)
    (hi : goesInner s (namedDesc s (gateSelector (namedDesc s sel))) = true) : call = true := by
  rw [← Option.isNone_iff_eq_none, firstFailing_isNone] at h
  simp [gatePrefix, codeChecks, hi] at h
  tauto

theorem throughGate_refused {s : State} (hf : s.flat = true) {call : Bool} {sel : Word16} {e : Byte × Word32}
    (h : firstFailing (gateChecks s call sel) = some e) :
    Raises s (throughGate (viaOf call) sel (namedDesc s sel) s) e := by
  have hsteps := throughGate_checks hf call sel
  dsimp only at hsteps
  rw [hsteps]
  rw [gateChecks_eq] at h
  rcases firstFailing_append h with hfirst | ⟨hpass, hrest⟩
  · exact ⟨s, .refl s, afterChecks_of_some hfirst ..⟩
  · rw [afterChecks_of_none hpass]
    unfold gateRest at hrest
    dsimp only at hrest
    cases hi : goesInner s (namedDesc s (gateSelector (namedDesc s sel)))
    case false =>
      rw [hi, if_neg Bool.false_ne_true] at hrest
      rw [Bool.and_false, if_neg Bool.false_ne_true, sameLevel_checks hf, afterChecks_of_some hrest]
      exact ⟨s, .refl s, rfl⟩
    case true =>
      rw [hi, if_pos rfl, List.append_cons] at hrest
      rw [gatePrefix_jump hpass hi, Bool.and_true, if_pos rfl, innerCall_checks hf]
      rcases firstFailing_append hrest with hstack | ⟨hstack, hpeek⟩
      · exact ⟨s, .refl s, afterChecks_of_some hstack ..⟩
      · rw [afterChecks_of_none hstack]
        rw [firstFailing_cons] at hpeek
        cases hp : canPeekItems s (gateSize (namedDesc s sel)) (gateCount (namedDesc s sel))
        case true =>
          rw [hp] at hpeek
          cases hpeek
        case false =>
          rw [hp] at hpeek
          cases hpeek
          obtain ⟨t, ht, hrun⟩ := stackItems_sp_unheld hf hp
          exact ⟨t, ht, M_bind_error hrun⟩

/-- No check of a gate raises exception 8. -/
theorem gateChecks_vector {s : State} {call : Bool} {sel : Word16} {v : Byte} {c : Word32}
    (h : firstFailing (gateChecks s call sel) = some (v, c)) : v ≠ 8 := by
  rw [gateChecks_eq] at h
  refine firstFailing_ne_eight h (List.forall_mem_append.2 ⟨by simp [gatePrefix, codeChecks], ?_⟩)
  unfold gateRest
  dsimp only
  split <;> simp [innerChecks, stackChecks, entryChecks]

/-! ## Far jumps and calls through a gate -/

/-- What it means that a selector names a call gate that may be used. -/
structure NamedGate (s : State) (sel : Word16) (g : Desc) : Prop where
  flat : s.flat = true
  desc : namedDesc s sel = g
  names : namesSystem s sel = true
  type : [4, 12].contains g.type = true
  priv : privOk s.cpl sel g = true
  present : g.present = true

theorem namedGate_of_callGateAt {s : State} {sel : Word16} {g : Desc} (h : callGateAt s sel = some g) :
    NamedGate s sel g := by
  unfold callGateAt at h
  split at h
  next => cases h
  next hnf =>
    obtain ⟨hn, hf⟩ : selNull sel = false ∧ s.flat = true := by simpa using hnf
    split at h
    next la ha =>
      dsimp only at h
      split at h
      next hall =>
        cases h
        simp only [Bool.and_eq_true, Bool.or_eq_true, beq_iff_eq] at hall
        obtain ⟨⟨⟨hsys, ht⟩, hpriv⟩, hpres⟩ := hall
        have hd := namedDesc_of_some ha
        refine ⟨hf, hd, ?_, ?_, hpriv, hpres⟩
        · rw [namesSystem, hd, hn, hsys]
          rcases ht with ht | ht <;> rw [ht] <;> rfl
        · rcases ht with ht | ht <;> rw [ht] <;> rfl
      next => cases h
    next => cases h

section ReadFromGate

variable {s t : State} (h : ReadFrom s t)
include h

theorem ReadFrom.gateChecks (call : Bool) (sel : Word16) : gateChecks t call sel = gateChecks s call sel := by
  obtain ⟨d, sh, rfl⟩ := h
  rfl

theorem ReadFrom.namedGate {sel : Word16} {g : Desc} (hg : NamedGate s sel g) : NamedGate t sel g := by
  obtain ⟨d, sh, rfl⟩ := h
  exact ⟨hg.flat, hg.desc, hg.names, hg.type, hg.priv, hg.present⟩

theorem ReadFrom.goesInner (d : Desc) : goesInner t d = goesInner s d := by
  obtain ⟨tr, sh, rfl⟩ := h
  rfl

theorem ReadFrom.canPeekItems (sz : Size) (n : Nat) : canPeekItems t sz n = canPeekItems s sz n := by
  obtain ⟨d, sh, rfl⟩ := h
  rfl

theorem ReadFrom.innerInTss (n : BitVec 2) : innerInTss t n = innerInTss s n := by
  obtain ⟨d, sh, rfl⟩ := h
  rfl

theorem ReadFrom.innerCallFrame (g : Desc) : innerCallFrame t g = innerCallFrame s g := by
  obtain ⟨d, sh, rfl⟩ := h
  rfl

theorem ReadFrom.pe : t.cr0.pe = s.cr0.pe := by
  obtain ⟨d, sh, rfl⟩ := h
  rfl

end ReadFromGate

section GateTransfer

variable {s : State} {call : Bool} {sel : Word16} {g d : Desc} {la : Word32} (hg : NamedGate s sel g)
  (hc : NamedCode s (gateSelector g) d la) (hle : lvlLe d.dpl s.cpl = true)
include hg hc hle

theorem gatePrefix_none (hi : call = true ∨ goesInner s d = false) :
    firstFailing (gatePrefix s call sel) = none := by
  have hallowed : (lvlLe d.dpl s.cpl && (call || !goesInner s d)) = true := by
    rcases hi with hi | hi <;> simp [hi, hle]
  have hcode := hc.codeChecks_none
  rw [← Option.isNone_iff_eq_none, firstFailing_isNone] at hcode ⊢
  rw [gatePrefix, hg.desc, hc.desc, hallowed, List.all_cons, List.all_cons, hg.priv, hg.present, hcode]
  rfl

omit hle in
/-- A jump through a gate to an inner level is refused (R503). -/
theorem gateJump_refused (hi : goesInner s d = true) :
    firstFailing (gateChecks s false sel) = some (13, selCode (gateSelector g)) := by
  have hprefix : gatePrefix s false sel = (true, 13, selCode sel) :: (true, 11, selCode sel) :: (true, 13, 0) ::
      (true, 13, selCode (gateSelector g)) :: (true, 13, selCode (gateSelector g)) ::
      (false, 13, selCode (gateSelector g)) :: [(true, 11, selCode (gateSelector g))] := by
    simp [gatePrefix, codeChecks, hg.desc, hg.priv, hg.present, hc.notNull, hc.addr, hc.desc, hc.code, hc.present, hi]
  rw [gateChecks_eq, hprefix]
  rfl

variable (hoff : inSegment d (gateOffset g (gateSize g)) = true)
include hoff

/-- Through a gate at the same level (R503). -/
theorem throughGate_same (hi : goesInner s d = false)
    (hpush : call = true → canPushItems s (gateSize g).bytes 2 = true) :
    throughGate (viaOf call) sel (namedDesc s sel) s = .ok .jump
      (codeLoaded (callPushed s call (gateSize g)) (gateSelector g) d la s.cpl (gateOffset g (gateSize g))) := by
  have hroom : canPushItems s (gateSize g).bytes (if call then 2 else 0) = true := by
    cases call
    case false => rfl
    case true => exact hpush rfl
  have hsteps := throughGate_checks hg.flat call sel
  dsimp only at hsteps
  rw [hsteps, afterChecks_of_none (gatePrefix_none hg hc hle (.inr hi)), hg.desc, hc.desc, hc.place, hi, Bool.and_false,
    if_neg Bool.false_ne_true, sameLevel_checks hg.flat, afterChecks_of_none (entryChecks_none hroom hoff)]

/-- A call through a gate to an inner level (R504). -/
theorem throughGate_inner {sd : Desc} {sla : Word32} (hpe : s.cr0.pe = true) (hi : goesInner s d = true)
    (hin : innerInTss s d.dpl = true) (hs : NamedStack s d.dpl (innerPointer s d.dpl).1 sd sla)
    (hpeek : canPeekItems s (gateSize g) (gateCount g) = true)
    (hpush : canPushItems (onInnerStack (afterItems s (gateSize g) (gateCount g)) d.dpl sd sla) (gateSize g).bytes
      (innerCallFrame s g).length = true) :
    throughGate (viaOf true) sel (namedDesc s sel) s = .ok .jump (codeLoaded
      (pushedItems (onInnerStack (afterItems s (gateSize g) (gateCount g)) d.dpl sd sla) (gateSize g)
        (innerCallFrame s g)) (gateSelector g) d la d.dpl (gateOffset g (gateSize g))) := by
  have hfrom := readFrom_afterItems s (gateSize g) (gateCount g)
  have hstack : (innerChecks s d.dpl (gateSize g).bytes (4 + gateCount g)).all (fun c => c.1) = true := by
    have hs' : NamedStack (afterItems s (gateSize g) (gateCount g)) d.dpl
        (innerPointer (afterItems s (gateSize g) (gateCount g)) d.dpl).1 sd sla := by
      rw [hfrom.innerPointer]
      exact hfrom.namedStack hs
    have hpass := innerChecks_pass (hfrom.pe.trans hpe) ((hfrom.innerInTss _).trans hin) hs' hpush
    rwa [hfrom.innerChecks, innerCallFrame_length] at hpass
  have hchecks : firstFailing (innerChecks s d.dpl (gateSize g).bytes (4 + gateCount g) ++
      [(inSegment d (gateOffset g (gateSize g)), 13, 0)]) = none := by
    refine firstFailing_eq_none ?_
    rw [List.all_append, hstack, hoff]
    rfl
  have hsteps := throughGate_checks hg.flat true sel
  dsimp only at hsteps
  rw [hsteps, afterChecks_of_none (gatePrefix_none hg hc hle (.inl rfl)), hg.desc, hc.desc, hc.place, hi, Bool.and_true,
    if_pos rfl, innerCall_checks hg.flat, afterChecks_of_none hchecks, innerCallRest_run hg.flat hpeek hs hpush]

end GateTransfer

section ExecGate

variable {s : State} {call : Bool} {f : FarForm} (hp : s.prefixesOk false) (hm : s.protectedMode = true)
  (hr : f.ready s = true)
include hp hm hr

theorem exec_far_gate_refused (hf : s.flat = true) (hn : namesSystem s (f.pointer s).2 = true)
    (ht : [4, 12].contains (namedDesc s (f.pointer s).2).type = true) {v : Byte} {c : Word32}
    (hc : firstFailing (gateChecks s call (f.pointer s).2) = some (v, c)) :
    exec (f.instr call) s = deliver s (s.faultEvent v (some c)) := by
  obtain ⟨body, hexec, hbody⟩ := exec_far_protected (call := call) hm hr
  have hfrom := far_readFrom s f
  have hgate := farSteps_gate (hfrom.flat.trans hf) ((hfrom.namesSystem _).trans hn)
    (by rw [hfrom.namedDesc]; exact ht) (viaOf call) (f.pointer s).1
  obtain ⟨t, hto, hrun⟩ := throughGate_refused (hfrom.flat.trans hf) ((hfrom.gateChecks ..) ▸ hc)
  rw [hgate, hrun] at hbody
  exact (hexec.trans (transfer_exc hp (gateChecks_vector hc) hbody)).trans (by rw [(hfrom.trans hto).rollback])

theorem exec_far_gate_next {g : Desc} (hg : NamedGate s (f.pointer s).2 g) {t : State}
    (hrun : throughGate (viaOf call) (f.pointer s).2 (namedDesc (f.after s.begun) (f.pointer s).2) (f.after s.begun) =
      .ok .jump t) :
    exec (f.instr call) s = .next (retire s t .jump) := by
  obtain ⟨body, hexec, hbody⟩ := exec_far_protected (call := call) hm hr
  have hgu := (far_readFrom s f).namedGate hg
  rw [farSteps_gate hgu.flat hgu.names (by rw [hgu.desc]; exact hgu.type), hrun] at hbody
  exact hexec.trans (transfer_next hp hbody)

end ExecGate

end Sys2Proof.Machine

open Sys2Proof Sys2Proof.Machine Sys2Proof.Claims

/-- Settles O44: a gate is its own checks, those of the segment it names, and those of the level it goes to. -/
theorem callGateTransfer : Obligations.CallGateTransfer := by
  unfold Obligations.CallGateTransfer
  refine ⟨?transfers, fun s call f v c hp hm hf hr hn ht hc => exec_far_gate_refused hp hm hr hf hn ht hc⟩
  intro s call f g d la hp hm hr hgate hcode hle sz off u hoff
  have hg := namedGate_of_callGateAt hgate
  have hc := namedCode_of_codeAt hcode
  have hfrom := far_readFrom s f
  have hgu := hfrom.namedGate hg
  have hcu := hfrom.namedCode hc
  have hleu : lvlLe d.dpl u.cpl = true := by rw [hfrom.cpl]; exact hle
  refine ⟨fun hsame hpush => ?same, fun hconf hdpl hjump => ?jump, fun sd sla hconf hdpl hcall hin hs hpeek => ?inner⟩
  case same =>
    have hi : goesInner s d = false := by
      rcases hsame with h | h <;> simp [goesInner, h]
    refine exec_far_gate_next hp hm hr hg ?_
    rw [throughGate_same hgu hcu hleu hoff ((hfrom.goesInner d).trans hi)
      (fun h => (hfrom.canPushItems ..).trans (hpush h)), hfrom.cpl]
  case jump =>
    have hi : goesInner s d = true := by simp [goesInner, hconf, hdpl]
    have hfails := gateJump_refused hg hc hi
    rw [selectorCode_eq]
    rw [← hjump] at hfails
    exact exec_far_gate_refused hp hm hr hg.flat hg.names (by rw [hg.desc]; exact hg.type) hfails
  case inner =>
    intro t hpush
    have hi : goesInner s d = true := by simp [goesInner, hconf, hdpl]
    have hpe : s.cr0.pe = true := ((protectedMode_iff s).1 hm).1
    have hs' : NamedStack u d.dpl (innerPointer u d.dpl).1 sd sla := by
      rw [hfrom.innerPointer]
      exact hfrom.namedStack (namedStack_of_stackAt hs)
    subst hcall
    refine exec_far_gate_next hp hm hr hg ?_
    rw [throughGate_inner hgu hcu hleu hoff (hfrom.pe.trans hpe) ((hfrom.goesInner d).trans hi)
      ((hfrom.innerInTss _).trans hin) hs' ((hfrom.canPeekItems ..).trans hpeek)
      (by rw [hfrom.innerCallFrame]; exact hpush), hfrom.innerCallFrame]
    rfl
end

section
/-!
PROOF. The entry to a handler, in real mode to its end; the delivery and the software interrupts that come to it. It settles O47.
-/
namespace Sys2Proof.Machine

open Sys2Proof.Claims

/-! ## Entries, deliveries and software interrupts -/

/-- An entry that reaches the handler delivers the event. -/
theorem deliver_entered {s t : State} {ev : Event} (h : enter ev s = .ok () t) : deliver s ev = .next t := by
  rw [deliver, deliverFuel, h]

theorem deliver_stopped {s t : State} {ev : Event} {f : Fault} (h : enter ev s = .error (.fault f) t) :
    deliver s ev = .fault f := by
  rw [deliver, deliverFuel, h]

section Soft

variable {s t : State} {i : Instr} {n : Byte} (hp : s.prefixesOk false) (hn : softVector s i = some n)
include hp hn

/-- INT n, INT 3 and INTO whose entry reaches the handler. -/
theorem exec_softInt_entered (h : enter (softEvent s n) s.begun = .ok () t) :
    exec i s = .next (retire s t .loaded) := by
  obtain ⟨body, hexec, hbody⟩ := exec_softInt hn
  rw [M_bind_ok h] at hbody
  exact hexec.trans (transfer_next hp hbody)

/-- The steps of INT n, INT 3 and INTO end as the entry does. -/
theorem exec_softInt_stopped {e : Stop} (h : enter (softEvent s n) s.begun = .error e t) :
    exec i s = conclude s (.error e t) := by
  obtain ⟨body, hexec, hbody⟩ := exec_softInt hn
  rw [M_bind_error h] at hbody
  rw [hexec, transfer_eq_conclude hp, hbody]

/-- An exception that the entry raises before it changes anything is one of the instruction (R510). -/
theorem exec_softInt_exc {v : Byte} {c : Option Word32} (hv : v ≠ 8)
    (h : enter (softEvent s n) s.begun = .error (.exc { vector := v, code := c, newTask := false }) s.begun) :
    exec i s = deliver s (s.faultEvent v c) :=
  (exec_softInt_stopped hp hn h).trans (conclude_exc hv)

end Soft

/-! ## Real mode -/

theorem realEntryReady_iff (s : State) (v : Byte) : realEntryReady s v = true ↔
    s.realMode = true ∧ s.flat = true ∧ 4 * v.toNat + 3 ≤ s.idtr.limit.toNat ∧ canPushItems s 2 3 = true := by
  simp only [realEntryReady, Bool.and_eq_true, decide_eq_true_eq, and_assoc]

theorem realEntryReady_begun (s : State) (v : Byte) : realEntryReady s.begun v = realEntryReady s v := by
  rw [realEntryReady, canPushItems_begun]
  rfl

theorem enter_real {s : State} (h : s.realMode = true) (ev : Event) :
    enter ev s = (do enterReal ev; enterEnd ev : M Unit) s := by
  rw [enter, M_get_bind, if_pos h]
  rfl

/-- What the handler starts from after an entry in real mode, but for what every entry resets. -/
def realPushed (s : State) (v : Byte) (ret : Word32) : State :=
  farJumped ((pushedItems s .s16 [s.flags.toWord, s.cs.selector.zeroExtend 32, ret]).withFlags
      { s.flags with intf := false, tf := false, rf := false })
    ((vectorEntry s v).extractLsb' 16 16) (((vectorEntry s v).extractLsb' 0 16).zeroExtend 32)

theorem enterReal_run {s : State} {ev : Event} (h : realEntryReady s ev.vector = true) :
    enterReal ev s = .ok () (realPushed s ev.vector ev.ret) := by
  obtain ⟨-, hf, hlimit, hpush⟩ := (realEntryReady_iff ..).1 h
  have hitems : pushAll .s16 [s.flags.toWord, selItem s.cs, ev.ret] s =
      .ok () (pushedItems s .s16 [s.flags.toWord, selItem s.cs, ev.ret]) := pushAll_flat _ hpush
  have hflags := (stackOnly_pushedItems s .s16 [s.flags.toWord, selItem s.cs, ev.ret]).field State.flags
    fun _ _ _ _ => rfl
  rw [enterReal, M_get_bind]
  dsimp only
  rw [if_neg (Nat.not_lt.2 hlimit), M_bind_ok (sysRead_dword_flat hf _), M_bind_ok hitems, M_modify_bind, farReal_run,
    hflags]
  rfl

theorem realEntered_eq (s : State) (v : Byte) (ret : Word32) :
    taskHandlerStarted (realPushed s v ret) v = realEntered s v ret := by
  have hdr7 : (realPushed s v ret).dr7 = s.dr7 :=
    (stackOnly_pushedItems s .s16 [s.flags.toWord, s.cs.selector.zeroExtend 32, ret]).field State.dr7 fun _ _ _ _ => rfl
  rw [taskHandlerStarted, hdr7]
  rfl

theorem enter_real_completes {s : State} {ev : Event} (h : realEntryReady s ev.vector = true) :
    enter ev s = .ok () (realEntered s ev.vector ev.ret) := by
  obtain ⟨hreal, -⟩ := (realEntryReady_iff ..).1 h
  rw [enter_real hreal, M_bind_ok (enterReal_run h), enterEnd_run, realEntered_eq]

/-- A vector beyond the limit of the table is exception 8 (R655). -/
theorem enter_real_refused {s : State} {ev : Event} (hreal : s.realMode = true)
    (h : s.idtr.limit.toNat < 4 * ev.vector.toNat + 3) : enter ev s = .error (checkStop 8 0) s := by
  rw [enter_real hreal]
  refine M_bind_error ?_
  rw [enterReal, M_get_bind]
  dsimp only
  rw [if_pos h]
  rfl

end Sys2Proof.Machine

open Sys2Proof Sys2Proof.Machine Sys2Proof.Claims

/-- Settles O47: the entry reads the vector, pushes three words and jumps. -/
theorem realModeEntry : Obligations.RealModeEntry := by
  unfold Obligations.RealModeEntry
  exact fun s ev h => deliver_entered (enter_real_completes h)
end

section
/-!
PROOF. Interrupt and trap gates: the checks of R646 on the entry of the interrupt table and on the handler's segment, and the
entry at the same and at an inner level. It settles O48 and O49.
-/
namespace Sys2Proof.Machine

open Sys2Proof.Claims

/-! ## The entry of the interrupt table -/

theorem enter_protected {s : State} (h : s.cr0.pe = true) (ev : Event) :
    enter ev s = (do enterProtected ev; enterEnd ev : M Unit) s := by
  rw [enter, M_get_bind, if_neg (by simp [State.realMode, h])]
  rfl

/-- Step 1 of R646. -/
theorem enterProtected_checks {s : State} (hf : s.flat = true) (ev : Event) :
    enterProtected ev s = afterChecks (idtChecks s ev) s
      ((if (gateAt s ev.vector).type == 5 then enterTask (gateAt s ev.vector) ev
        else enterGate (gateAt s ev.vector) ev) s) := by
  have hread : readDesc (s.idtr.base + BitVec.ofNat 32 (8 * ev.vector.toNat)) s = .ok (gateAt s ev.vector) s :=
    readDesc_flat hf _
  have hgate (g : Desc) : (g.isSegment || !(g.type == 5 || g.type == 6 || g.type == 7 || g.type == 14 || g.type == 15)) =
      !(!g.isSegment && [5, 6, 7, 14, 15].contains g.type) := by
    simp only [List.contains_cons, List.contains_nil, Bool.or_false, Bool.or_assoc, Bool.not_and, Bool.not_not]
  have hsoft (b : Bool) : (ev.kind == .software && !b) = !(ev.kind != .software || b) := by
    rw [Bool.not_or, bne, Bool.not_not]
  rw [enterProtected, M_get_bind, idtChecks]
  simp only [afterChecks_cons, afterChecks_nil]
  by_cases hlimit : s.idtr.limit.toNat < 8 * ev.vector.toNat + 7
  · rw [if_pos hlimit, if_neg (by simpa using hlimit)]
    rfl
  · rw [if_neg hlimit, M_bind_ok hread, if_pos (decide_eq_true (Nat.le_of_not_lt hlimit)), hgate, hsoft]
    cases !(gateAt s ev.vector).isSegment && [5, 6, 7, 14, 15].contains (gateAt s ev.vector).type
    case false => rfl
    case true =>
      cases ev.kind != .software || lvlLe s.cpl (gateAt s ev.vector).dpl
      case false => rfl
      case true => cases (gateAt s ev.vector).present <;> rfl

theorem enter_idt_refused {s : State} {ev : Event} (hpe : s.cr0.pe = true) (hf : s.flat = true) {v : Byte} {c : Word32}
    (h : firstFailing (idtChecks s ev) = some (v, c)) :
    enter ev s = .error (.exc { vector := v, code := some c, newTask := false }) s := by
  rw [enter_protected hpe]
  refine M_bind_error ?_
  rw [enterProtected_checks hf, afterChecks_of_some h]

theorem gateUsable_iff (s : State) (ev : Event) : gateUsable s ev = true ↔
    let g := gateAt s ev.vector
    s.cr0.pe = true ∧ s.flat = true ∧ 8 * ev.vector.toNat + 7 ≤ s.idtr.limit.toNat ∧ g.isSegment = false ∧
      [6, 7, 14, 15].contains g.type = true ∧ (ev.kind != .software || lvlLe s.cpl g.dpl) = true ∧ g.present = true := by
  simp only [gateUsable, Bool.and_eq_true, decide_eq_true_eq, Bool.not_eq_true', and_assoc]

/-- The step 1 checks of R646 let a usable interrupt or trap gate pass. -/
theorem enter_gate {s : State} {ev : Event} (h : gateUsable s ev = true) :
    enter ev s = (do enterGate (gateAt s ev.vector) ev; enterEnd ev : M Unit) s := by
  obtain ⟨hpe, hf, hlimit, hsys, htype, hpriv, hpres⟩ := (gateUsable_iff s ev).1 h
  have hnot5 : ((gateAt s ev.vector).type == 5) = false := by
    rw [beq_eq_false_iff_ne]
    intro h5
    rw [h5] at htype
    exact absurd htype (by decide)
  have hmember : [5, 6, 7, 14, 15].contains (gateAt s ev.vector).type = true := by
    rw [List.contains_cons, htype, Bool.or_true]
  have hpass : firstFailing (idtChecks s ev) = none :=
    firstFailing_eq_none (by simp only [idtChecks, List.all_cons, List.all_nil, hlimit, hsys, hmember, hpriv, hpres,
      decide_true, Bool.not_false, Bool.and_true])
  have hprot : enterProtected ev s = enterGate (gateAt s ev.vector) ev s := by
    rw [enterProtected_checks hf, afterChecks_of_none hpass, hnot5, if_neg Bool.false_ne_true]
  rw [enter_protected hpe, M_bind, hprot, M_bind]

/-! ## The handler's segment -/

/-- The load of CS, the flags and the jump to the handler (R646, R650). -/
def handlerJump (g d : Desc) (la : Word32) (cpl : BitVec 2) : M Unit := do
  loadCs (gateSelector g) d la cpl
  modify fun s => { s with flags := s.flags.onEntry (g.type % 2 == 0) }
  branchTo (gateOffset g (gateSize g))

theorem handlerJump_started {t : State} (hf : t.flat = true) (g d : Desc) (la : Word32) (cpl : BitVec 2) (ev : Event) :
    (do handlerJump g d la cpl; enterEnd ev : M Unit) t = .ok () (handlerStarted t g d la cpl ev.vector) := by
  have hsame := accessedSet_same t d la
  have hflags : (accessedSet t d la).flags = t.flags := hsame.field State.flags fun _ _ _ => rfl
  have hdr7 : (accessedSet t d la).dr7 = t.dr7 := hsame.field State.dr7 fun _ _ _ => rfl
  have hodd : (!(g.type % 2 == 0)) = (g.type % 2 == 1) := by
    rcases Nat.mod_two_eq_zero_or_one g.type with h | h <;> rw [h] <;> rfl
  have hjump : handlerJump g d la cpl t = .ok ()
      { codeLoaded t (gateSelector g) d la cpl (gateOffset g (gateSize g)) with
        flags := t.flags.onEntry (g.type % 2 == 0) } := by
    rw [handlerJump, M_bind_ok (loadCs_run hf ..), ← hflags]
    rfl
  rw [M_bind_ok hjump, enterEnd_run, taskHandlerStarted, handlerStarted, EFlags.onEntry, hodd, ← hdr7]
  rfl

/-- The entry at the same level, after the checks on the segment (R646). -/
def sameEntry (s : State) (ev : Event) (g d : Desc) (la : Word32) : M Unit := do
  requireRoom (gateSize g) (eventFrame s ev).length
  require0 (inSegment d (gateOffset g (gateSize g))) 13
  pushAll (gateSize g) (eventFrame s ev)
  handlerJump g d la s.cpl

/-- The entry at an inner level, after the checks on its stack and on the entry point (R646 to R648). -/
def innerRest (s : State) (ev : Event) (g d : Desc) (la : Word32) (i : InnerStack) : M Unit := do
  switchStack i d.dpl
  pushAll (gateSize g) (innerFrame s ev)
  if s.v86 then
    modify fun s => { s with es := s.es.nulled, ds := s.ds.nulled, fs := s.fs.nulled, gs := s.gs.nulled }
  handlerJump g d la d.dpl

/-- An 80286 gate from virtual-8086 mode (R648). -/
def narrowEntry (s : State) (ev : Event) : Bool := s.v86 && gateSize (gateAt s ev.vector) == .s16

/-- The checks on the segment that a gate names, once it has been found (R646, R648). -/
theorem handlerSegment_checks (s : State) (csel : Word16) (d : Desc) (f : Unit → M Unit) :
    (do requireSel (d.isCode && lvlLe d.dpl s.cpl) 13 csel
        requireSel d.present 11 csel
        requireSel (!s.v86 || (goesInner s d && d.dpl == 0)) 13 csel
        f () : M Unit) s =
      afterChecks [(d.isCode, 13, selCode csel), (lvlLe d.dpl s.cpl, 13, selCode csel), (d.present, 11, selCode csel),
        (!s.v86 || (goesInner s d && d.dpl == 0), 13, selCode csel)] s (f () s) := by
  simp only [requireSel_bind, afterChecks_cons, afterChecks_nil]
  cases d.isCode
  case false => rfl
  case true => cases lvlLe d.dpl s.cpl <;> rfl

/-- The end of an entry at an inner level follows the checks on its stack (R646, R647). -/
theorem innerEntry_checks {s : State} (hf : s.flat = true) (ev : Event) (g d : Desc) (f : InnerStack → M Unit) :
    (do let i ← innerStack d.dpl (gateSize g).bytes (innerFrame s ev).length
        require0 (inSegment d (gateOffset g (gateSize g))) 13
        f i : M Unit) s =
      afterChecks (innerChecks s d.dpl (gateSize g).bytes (innerFrame s ev).length ++
        [(inSegment d (gateOffset g (gateSize g)), 13, 0)]) s (f (namedInner s d.dpl) s) := by
  rw [bind_afterChecks (innerStack_checks hf ..), afterChecks_append]
  dsimp only
  rw [require0_bind, afterChecks_cons, afterChecks_nil]

/-- The entry through a gate once the handler's segment has been checked. -/
def handlerEntry (s : State) (ev : Event) (g d : Desc) (la : Word32) : M Unit := do
  if s.v86 && gateSize g == .s16 then stopFault .v86Gate16
  if goesInner s d then
    let i ← innerStack d.dpl (gateSize g).bytes (innerFrame s ev).length
    require0 (inSegment d (gateOffset g (gateSize g))) 13
    innerRest s ev g d la i
  else sameEntry s ev g d la

/-- Steps 3 and 4 of R646. -/
theorem enterGate_checks {s : State} (hf : s.flat = true) (ev : Event) :
    let g := gateAt s ev.vector
    let csel := gateSelector g
    let d := namedDesc s csel
    let la := namedAddr s csel
    enterGate g ev s = afterChecks (handlerChecks s ev) s
      (if narrowEntry s ev then .error (.fault .v86Gate16) s
      else if goesInner s d then
        afterChecks (innerChecks s d.dpl (gateSize g).bytes (innerFrame s ev).length ++
          [(inSegment d (gateOffset g (gateSize g)), 13, 0)]) s (innerRest s ev g d la (namedInner s d.dpl) s)
      else sameEntry s ev g d la s) := by
  intro g csel d la
  have hsplit : handlerChecks s ev = [(!selNull csel, 13, 0), ((s.descAddr csel).isSome, 13, selCode csel)] ++
      [(d.isCode, 13, selCode csel), (lvlLe d.dpl s.cpl, 13, selCode csel), (d.present, 11, selCode csel),
        (!s.v86 || (goesInner s d && d.dpl == 0), 13, selCode csel)] := rfl
  rw [hsplit, afterChecks_append, enterGate, M_get_bind]
  dsimp only
  rw [named_bind hf]
  refine congrArg (afterChecks _ s) ((handlerSegment_checks s csel d fun _ => handlerEntry s ev g d la).trans
    (congrArg (afterChecks _ s) ?_))
  rw [handlerEntry]
  cases hn : narrowEntry s ev
  case true => exact congrFun (if_pos hn) s
  case false =>
    refine (congrFun (if_neg (ne_true_of_eq_false hn)) s).trans ?_
    rw [if_neg Bool.false_ne_true]
    cases hi : goesInner s d
    case true =>
      rw [if_pos rfl, if_pos rfl]
      exact innerEntry_checks hf ev g d (innerRest s ev g d la)
    case false => rfl

theorem sameEntry_checks {s : State} (hf : s.flat = true) (ev : Event) (g d : Desc) (la : Word32) :
    sameEntry s ev g d la s =
      afterChecks (entryChecks s (gateSize g).bytes (eventFrame s ev).length d (gateOffset g (gateSize g))) s
        (handlerJump g d la s.cpl (pushedItems s (gateSize g) (eventFrame s ev))) :=
  entry_checks hf (eventFrame s ev) d (gateOffset g (gateSize g)) fun _ => handlerJump g d la s.cpl

/-! ## The refusals -/

section Refused

variable {s : State} {ev : Event} (h : gateUsable s ev = true)
include h

theorem enter_gate_refused {v : Byte} {c : Word32}
    (hc : firstFailing (if narrowEntry s ev then handlerChecks s ev else gateEntryChecks s ev) = some (v, c)) :
    enter ev s = .error (.exc { vector := v, code := some c, newTask := false }) s := by
  obtain ⟨-, hf, -⟩ := (gateUsable_iff s ev).1 h
  rw [enter_gate h]
  refine M_bind_error ((enterGate_checks hf ev).trans ?_)
  cases hn : narrowEntry s ev
  case true =>
    rw [hn, if_pos rfl] at hc
    rw [afterChecks_of_some hc]
  case false =>
    rw [hn, if_neg Bool.false_ne_true] at hc
    rw [if_neg Bool.false_ne_true]
    rcases firstFailing_append hc with hfirst | ⟨hpass, hrest⟩
    · rw [afterChecks_of_some hfirst]
    · rw [afterChecks_of_none hpass]
      cases hi : goesInner s (namedDesc s (gateSelector (gateAt s ev.vector)))
      case true =>
        rw [show (!(namedDesc s _).conforming && _) = true from hi, if_pos rfl] at hrest
        rw [if_pos rfl, afterChecks_of_some hrest]
      case false =>
        rw [show (!(namedDesc s _).conforming && _) = false from hi, if_neg Bool.false_ne_true] at hrest
        rw [if_neg Bool.false_ne_true, sameEntry_checks hf, afterChecks_of_some hrest]

theorem enter_gate_narrow (hn : narrowEntry s ev = true) (hc : firstFailing (handlerChecks s ev) = none) :
    enter ev s = .error (.fault .v86Gate16) s := by
  obtain ⟨-, hf, -⟩ := (gateUsable_iff s ev).1 h
  rw [enter_gate h]
  refine M_bind_error ((enterGate_checks hf ev).trans ?_)
  rw [afterChecks_of_none hc, hn, if_pos rfl]

end Refused

/-- No check of an interrupt or trap gate raises exception 8. -/
theorem gateEntryChecks_vector {s : State} {ev : Event} {v : Byte} {c : Word32}
    (h : firstFailing (if narrowEntry s ev then handlerChecks s ev else gateEntryChecks s ev) = some (v, c)) : v ≠ 8 := by
  have hhandler : ∀ x ∈ handlerChecks s ev, x.2.1 ≠ 8 := by simp [handlerChecks, codeChecks]
  split at h
  · exact firstFailing_ne_eight h hhandler
  · refine firstFailing_ne_eight h (List.forall_mem_append.2 ⟨hhandler, ?_⟩)
    split <;> simp [innerChecks, stackChecks, entryChecks]

/-! ## The entries -/

theorem handlerChecks_none {s : State} {ev : Event} {d : Desc} {la : Word32}
    (hc : NamedCode s (gateSelector (gateAt s ev.vector)) d la) (hle : lvlLe d.dpl s.cpl = true)
    (hv : s.v86 = true → goesInner s d = true ∧ d.dpl = 0) : firstFailing (handlerChecks s ev) = none := by
  have hmode : (!s.v86 || (goesInner s d && d.dpl == 0)) = true := by
    cases hs : s.v86
    case false => rfl
    case true =>
      obtain ⟨hi, hdpl⟩ := hv hs
      simp [hi, hdpl]
  have hcode := hc.codeChecks_none
  rw [← Option.isNone_iff_eq_none, firstFailing_isNone] at hcode ⊢
  rw [handlerChecks, List.all_append, hc.desc, hle, hcode]
  exact Bool.and_eq_true_iff.2 ⟨rfl, by simpa [goesInner] using hmode⟩

theorem enter_same {s : State} {ev : Event} {d : Desc} {la : Word32} (h : sameLevelReady s ev d la) :
    enter ev s = .ok () (sameLevelEntered s ev d la) := by
  obtain ⟨husable, hvm, hcode, hle, hsame, hoff, hpush⟩ := h
  have hc := namedCode_of_codeAt hcode
  have hv86 : s.v86 = false := by rw [State.v86, hvm, Bool.and_false]
  have hi : goesInner s d = false := by rcases hsame with h | h <;> simp [goesInner, h]
  have hnarrow : narrowEntry s ev = false := by rw [narrowEntry, hv86, Bool.false_and]
  have hpass : firstFailing (handlerChecks s ev) = none := handlerChecks_none hc hle fun h => by simp [hv86] at h
  have hgate : enterGate (gateAt s ev.vector) ev s = handlerJump (gateAt s ev.vector) d la s.cpl
      (pushedItems s (gateSize (gateAt s ev.vector)) (eventFrame s ev)) := by
    refine (enterGate_checks hc.flat ev).trans ?_
    rw [afterChecks_of_none hpass, hnarrow, if_neg Bool.false_ne_true, hc.desc, hc.place, hi, if_neg Bool.false_ne_true,
      sameEntry_checks hc.flat, afterChecks_of_none (entryChecks_none hpush hoff)]
  have hstart := handlerJump_started ((stackOnly_pushedItems s (gateSize (gateAt s ev.vector)) (eventFrame s ev)).flat.trans
    hc.flat) (gateAt s ev.vector) d la s.cpl ev
  rw [enter_gate husable, M_bind, hgate, ← M_bind, hstart]
  rfl

theorem dataNulled_flat (s : State) (b : Bool) : (dataNulled s b).flat = s.flat := by cases b <;> rfl

/-- The change to the inner stack, the frame and the null data segments (R646 to R648). -/
theorem innerRest_run {s : State} {ev : Event} {g d sd : Desc} {la sla : Word32} (hf : s.flat = true)
    (hs : NamedStack s d.dpl (innerPointer s d.dpl).1 sd sla)
    (hpush : canPushItems (onInnerStack s d.dpl sd sla) (gateSize g).bytes (innerFrame s ev).length = true) :
    innerRest s ev g d la (namedInner s d.dpl) s = handlerJump g d la d.dpl
      (dataNulled (pushedItems (onInnerStack s d.dpl sd sla) (gateSize g) (innerFrame s ev)) s.v86) := by
  have hswitch := switchStack_run hf d.dpl
  rw [namedInner_eq hs] at hswitch
  rw [innerRest, M_bind_ok hswitch, M_bind_ok (pushAll_flat (innerFrame s ev) hpush), dataNulled]
  cases s.v86 <;> rfl

theorem enter_inner {s : State} {ev : Event} {d sd : Desc} {la sla : Word32} (h : innerReady s ev d sd la sla) :
    enter ev s = .ok () (innerEntered s ev d sd la sla) := by
  obtain ⟨husable, hcode, hconf, hle, hdpl, hv86, hin, hstack, hoff, hpush⟩ := h
  obtain ⟨hpe, -⟩ := (gateUsable_iff s ev).1 husable
  have hc := namedCode_of_codeAt hcode
  have hs := namedStack_of_stackAt hstack
  have hi : goesInner s d = true := by simp [goesInner, hconf, hdpl]
  have hnarrow : narrowEntry s ev = false := by
    rw [narrowEntry]
    cases hm : s.v86
    case false => rfl
    case true =>
      obtain ⟨-, hsize⟩ := hv86 hm
      rw [hsize]
      rfl
  have hpass : firstFailing (handlerChecks s ev) = none := handlerChecks_none hc hle fun h => ⟨hi, (hv86 h).1⟩
  have hinner : firstFailing (innerChecks s d.dpl (gateSize (gateAt s ev.vector)).bytes (innerFrame s ev).length ++
      [(inSegment d (gateOffset (gateAt s ev.vector) (gateSize (gateAt s ev.vector))), 13, 0)]) = none := by
    refine firstFailing_eq_none ?_
    rw [List.all_append, innerChecks_pass hpe hin hs hpush, hoff]
    rfl
  have hgate : enterGate (gateAt s ev.vector) ev s = handlerJump (gateAt s ev.vector) d la d.dpl (dataNulled
      (pushedItems (onInnerStack s d.dpl sd sla) (gateSize (gateAt s ev.vector)) (innerFrame s ev)) s.v86) := by
    refine (enterGate_checks hc.flat ev).trans ?_
    rw [afterChecks_of_none hpass, hnarrow, if_neg Bool.false_ne_true, hc.desc, hc.place, hi, if_pos rfl,
      afterChecks_of_none hinner, innerRest_run hc.flat hs hpush]
  have hflat := (stackOnly_pushedItems (onInnerStack s d.dpl sd sla) (gateSize (gateAt s ev.vector))
    (innerFrame s ev)).flat.trans (onInnerStack_flat hc.flat ..)
  rw [enter_gate husable, M_bind, hgate, ← M_bind, handlerJump_started ((dataNulled_flat ..).trans hflat)]
  rfl

/-! ## The shadow, which is over when an instruction begins, does not count -/

theorem sameLevelReady_begun {s : State} {ev : Event} {d : Desc} {la : Word32} (h : sameLevelReady s ev d la) :
    sameLevelReady s.begun ev d la := by
  obtain ⟨husable, hvm, hcode, hle, hsame, hoff, hpush⟩ := h
  exact ⟨husable, hvm, hcode, hle, hsame, hoff, (canPushItems_begun ..).trans hpush⟩

theorem setSp_begun {t u : State} (h : u = t.begun) (v : Word32) : u.setSp v = (t.setSp v).begun := by
  rw [h]
  exact setAddrReg_begun t t.ssz esp v

theorem onInnerStack_begun (s : State) (n : BitVec 2) (d : Desc) (la : Word32) :
    onInnerStack s.begun n d la = (onInnerStack s n d la).begun := by
  unfold onInnerStack
  rw [accessedSet_begun]
  refine setSp_begun ?_ _
  rfl

theorem innerReady_begun {s : State} {ev : Event} {d sd : Desc} {la sla : Word32} (h : innerReady s ev d sd la sla) :
    innerReady s.begun ev d sd la sla := by
  obtain ⟨husable, hcode, hconf, hle, hdpl, hv86, hin, hstack, hoff, hpush⟩ := h
  refine ⟨husable, hcode, hconf, hle, hdpl, hv86, hin, hstack, hoff, ?_⟩
  rw [onInnerStack_begun, canPushItems_begun]
  exact hpush

theorem entryChecks_begun (s : State) (n k : Nat) (d : Desc) (off : Word32) :
    entryChecks s.begun n k d off = entryChecks s n k d off := by
  rw [entryChecks, canPushItems_begun]
  rfl

theorem gateEntryChecks_begun (s : State) (ev : Event) : gateEntryChecks s.begun ev = gateEntryChecks s ev := by
  rw [gateEntryChecks, entryChecks_begun]
  rfl

end Sys2Proof.Machine

open Sys2Proof Sys2Proof.Machine Sys2Proof.Claims

/-- Settles O48: the checks on the segment pass, then the frame is pushed where it has room. -/
theorem gateEntrySameLevel : Obligations.GateEntrySameLevel := by
  unfold Obligations.GateEntrySameLevel
  exact ⟨fun s d la => ⟨fun ev h => deliver_entered (enter_same h),
      fun i v hp hn h => exec_softInt_entered hp hn (enter_same (sameLevelReady_begun h))⟩,
    fun s ev v c hpe hf h => enter_idt_refused hpe hf h⟩

/-- Settles O49: the checks on the segment, on the inner stack and on the entry point come first, in the state before. -/
theorem gateEntryInnerLevel : Obligations.GateEntryInnerLevel := by
  unfold Obligations.GateEntryInnerLevel
  refine ⟨fun s d sd la sla => ⟨fun ev h => deliver_entered (enter_inner h),
    fun i v hp hn h => exec_softInt_entered hp hn (enter_inner (innerReady_begun h))⟩, fun s ev husable => ?_⟩
  intro narrow
  refine ⟨fun v c hc => ⟨enter_gate_refused husable hc, fun i hp hn hev => ?_⟩,
    fun hn hc => ⟨deliver_stopped (enter_gate_narrow husable hn hc), fun i hp hsoft hev => ?_⟩⟩
  · have hbegun : enter ev s.begun = .error (.exc { vector := v, code := some c, newTask := false }) s.begun := by
      refine enter_gate_refused (s := s.begun) husable ?_
      rw [gateEntryChecks_begun]
      exact hc
    rw [hev] at hbegun
    exact exec_softInt_exc hp hn (gateEntryChecks_vector hc) hbegun
  · have hbegun := enter_gate_narrow (s := s.begun) husable hn hc
    rw [hev] at hbegun
    exact exec_softInt_stopped hp hsoft hbegun
end

section
/-!
PROOF. INT n, INT 3, INTO in real mode and where their gate is refused, IRET outside protected mode, BOUND. It settles O51.
-/
namespace Sys2Proof.Machine

open Sys2Proof.Claims

/-! ## Software interrupts -/

/-- In real mode INT n is not sensitive to IOPL. -/
theorem softVector_int_real {s : State} (h : s.realMode = true) (v : Byte) : softVector s (.int v) = some v := by
  have hpe : s.cr0.pe = false := by simpa [State.realMode] using h
  simp [softVector, State.v86, hpe]

theorem exec_softInt_real {s : State} {i : Instr} {v : Byte} (hp : s.prefixesOk false) (hn : softVector s i = some v)
    (h : realEntryReady s v = true) :
    exec i s = .next (retire s (realEntered s.begun v s.nextEip) .loaded) :=
  exec_softInt_entered hp hn (enter_real_completes (ev := softEvent s v) ((realEntryReady_begun s v).trans h))

theorem exec_into_passed {s : State} (hp : s.prefixesOk false) (h : s.flags.ovf = false) :
    exec .into s = .next (retire s s.begun .next) :=
  transfer_next hp ((M_get_bind _ _).trans (congrFun (if_neg (ne_true_of_eq_false h)) s.begun))

/-- The exception of a software interrupt that its entry refuses is the first check of step 1 of R646 that fails. -/
theorem idtChecks_of_softRefused {s : State} {v x : Byte} (h : softRefused s v = some x) :
    firstFailing (idtChecks s (softEvent s v)) = some (x, BitVec.ofNat 32 (8 * v.toNat + 2)) := by
  have hsoft : ((softEvent s v).kind != .software) = false := rfl
  have hvector : (softEvent s v).vector = v := rfl
  rw [idtChecks, hsoft, hvector, Bool.false_or, lvlLe]
  simp only [firstFailing_cons, decide_eq_true_eq]
  unfold softRefused at h
  dsimp only at h
  split at h
  next hlimit =>
    rw [if_neg (Nat.not_le.2 hlimit)]
    cases h
    rfl
  next hlimit =>
    rw [if_pos (Nat.le_of_not_lt hlimit)]
    split at h
    next hgate =>
      rw [← Bool.not_not (gateAt s v).isSegment, ← Bool.not_and, Bool.not_eq_true'] at hgate
      rw [hgate, if_neg Bool.false_ne_true]
      cases h
      rfl
    next hgate =>
      rw [← Bool.not_not (gateAt s v).isSegment, ← Bool.not_and, Bool.not_eq_true', Bool.not_eq_false] at hgate
      rw [hgate, if_pos rfl]
      split at h
      next hdpl =>
        rw [if_neg (Nat.not_le.2 hdpl)]
        cases h
        rfl
      next hdpl =>
        rw [if_pos (Nat.le_of_not_lt hdpl)]
        cases hpres : (gateAt s v).present
        case true =>
          rw [hpres] at h
          cases h
        case false =>
          rw [hpres] at h
          cases h
          rfl

theorem exec_softInt_gateless {s : State} {i : Instr} {v x : Byte} (hp : s.prefixesOk false) (hpe : s.cr0.pe = true)
    (hf : s.flat = true) (hn : softVector s i = some v) (h : softRefused s v = some x) :
    exec i s = deliver s (s.faultEvent x (some (BitVec.ofNat 32 (8 * v.toNat + 2)))) := by
  have hchecks := idtChecks_of_softRefused h
  have hx : x ≠ 8 := firstFailing_ne_eight hchecks (by simp [idtChecks])
  exact exec_softInt_exc hp hn hx (enter_idt_refused (s := s.begun) hpe hf hchecks)

/-! ## IRET outside protected mode -/

theorem spAbove_items (s : State) (n k : Nat) : s.spAbove s.sp (k * n) = above s n k := by
  rw [above, Nat.mul_comm]
  rfl

theorem iretReal_run {s : State} (hallowed : s.v86Allowed = true) (h : canPeekItems s s.osz 3 = true)
    (ht : targetOk s (item s s.osz 0) = true) :
    iretReal s.osz s = .ok () (farJumped
      (((afterItems s s.osz 3).setSp (above s s.osz.bytes 3)).withFlags (s.iretFlags s.osz (item s s.osz 2)))
      ((item s s.osz 1).truncate 16) (item s s.osz 0)) := by
  have hfrom := readFrom_afterItems s s.osz 3
  have hread0 := stackRead_item (.refl s) h (show 0 < 3 by decide)
  have hread1 := stackRead_item (readFrom_afterPeek s s.osz (above s s.osz.bytes 0)) h (show 1 < 3 by decide)
  have hread2 := stackRead_item ((readFrom_afterPeek s s.osz (above s s.osz.bytes 0)).trans
    (readFrom_afterPeek _ s.osz (above s s.osz.bytes 1))) h (show 2 < 3 by decide)
  have hitems : ((s.afterPeek s.osz (above s s.osz.bytes 0)).afterPeek s.osz (above s s.osz.bytes 1)).afterPeek s.osz
      (above s s.osz.bytes 2) = afterItems s s.osz 3 := by
    rw [afterItems_eq]
    rfl
  have hplace : s.spAbove s.sp s.osz.bytes = above s s.osz.bytes 1 := spAbove_sp ..
  rw [State.v86Allowed] at hallowed
  rw [targetOk] at ht
  rw [above_zero] at hread0 hread1 hread2 hitems
  have htop : (afterItems s s.osz 3).spAbove (afterItems s s.osz 3).sp (3 * s.osz.bytes) = above s s.osz.bytes 3 := by
    rw [← spAbove_items]
    obtain ⟨d, sh, hd⟩ := hfrom
    rw [hd]
    rfl
  have hflags (w : Word32) : (afterItems s s.osz 3).iretFlags s.osz w = s.iretFlags s.osz w := by
    obtain ⟨d, sh, hd⟩ := hfrom
    rw [hd]
    rfl
  rw [iretReal, M_get_bind, require0_passed hallowed, M_bind_ok hread0, hplace, M_bind_ok hread1, spAbove_items,
    M_bind_ok hread2, require0_passed ht, M_modify_bind, hitems, farReal_run, htop, hflags]
  rfl

theorem exec_iret_real {s : State} (hp : s.prefixesOk false) (hm : s.protectedMode = false) (hallowed : s.v86Allowed = true)
    (h : canPeekItems s s.osz 3 = true) (ht : targetOk s (item s s.osz 0) = true) :
    exec .iret s = .next (retire s (iretRealAfter s.begun) .loaded) := by
  have hrun := iretReal_run (s := s.begun) hallowed ((canPeekItems_begun ..).trans h) (by rwa [item_begun])
  have hop : iretOp s.begun = .ok () (iretRealAfter s.begun) := by
    rw [iretOp, M_get_bind, if_neg (show ¬s.begun.protectedMode = true from ne_true_of_eq_false hm), M_bind_ok hrun]
    rfl
  exact transfer_next hp (M_bind_ok hop)

/-! ## BOUND -/

/-- The index is between the bounds (R519). -/
theorem bound_inside_iff {n : Nat} (i lower upper : BitVec n) :
    (!(i.slt lower) && !(upper.slt i)) = true ↔ lower.toInt ≤ i.toInt ∧ i.toInt ≤ upper.toInt := by
  simp [BitVec.slt]

theorem readFrom_afterLoad (s : State) (r : SReg) (off : Word32) (n : Nat) : ReadFrom s (s.afterLoad r off n) :=
  ⟨_, s.shadow, rfl⟩

theorem ReadFrom.canAccess {s t : State} (h : ReadFrom s t) (r : SReg) (off : Word32) (n : Nat) (write : Bool) :
    t.canAccess r off n write = s.canAccess r off n write := by
  obtain ⟨d, sh, rfl⟩ := h
  exact canAccess_congr rfl rfl (fun r => by cases r <;> rfl) ..

theorem ReadFrom.operand {s t : State} (h : ReadFrom s t) (w : Width) (r : SReg) (off : Word32) :
    t.operand w r off = s.operand w r off := by
  obtain ⟨d, sh, rfl⟩ := h
  cases r <;> rfl

/-- BOUND is a test behind the reads of the two bounds. -/
theorem exec_bound {s : State} {r : Fin 8} {m : MemOp} {w : Width} {p : SReg × Word32} (hw : w = s.osz.width)
    (hea : p = s.ea m) (hlow : s.canAccess p.1 p.2 w.bytes false = true)
    (hhigh : s.canAccess p.1 (p.2 + BitVec.ofNat 32 w.bytes) w.bytes false = true) :
    ∃ body : M Unit, exec (.bound r m) s = plain body s ∧
      body s.begun = require (!((s.reg w r).slt (s.operand w p.1 p.2)) &&
          !((s.operand w p.1 (p.2 + BitVec.ofNat 32 w.bytes)).slt (s.reg w r))) 5
        ((s.begun.afterLoad p.1 p.2 w.bytes).afterLoad p.1 (p.2 + BitVec.ofNat 32 w.bytes) w.bytes) := by
  subst hw hea
  have hfrom := readFrom_begun s
  have hfrom' := hfrom.trans (readFrom_afterLoad s.begun (s.ea m).1 (s.ea m).2 s.osz.width.bytes)
  have hlower := lread_flat ((hfrom.canAccess ..).trans hlow)
  have hupper := lread_flat ((hfrom'.canAccess ..).trans hhigh)
  rw [hfrom.operand] at hlower
  rw [hfrom'.operand] at hupper
  exact ⟨_, rfl, (M_get_bind _ _).trans <| (M_bind_ok hlower).trans (M_bind_ok hupper)⟩

end Sys2Proof.Machine

open Sys2Proof Sys2Proof.Machine Sys2Proof.Claims

/-- Settles O51: a software interrupt is the entry of its event, with nothing done before it. -/
theorem interruptInstructions : Obligations.InterruptInstructions := by
  unfold Obligations.InterruptInstructions
  refine ⟨fun s sz v => rfl, fun s hp => ⟨fun v h => ?int, fun h => exec_softInt_real hp rfl h, fun h hof => ?into,
    fun h => exec_into_passed hp h, fun i v x hpe hf hn h => exec_softInt_gateless hp hpe hf hn h,
    fun hm hallowed h ht => exec_iret_real hp hm hallowed h ht, fun r m => ?bound⟩⟩
  case int =>
    obtain ⟨hreal, -⟩ := (realEntryReady_iff ..).1 h
    exact exec_softInt_real hp (softVector_int_real hreal v) h
  case into => exact exec_softInt_real hp (if_pos hof) h
  case bound =>
    intro w p hi hlow hhigh
    obtain ⟨body, hexec, hbody⟩ := exec_bound (r := r) (w := w) (p := p) rfl rfl hlow hhigh
    have hfrom := ((readFrom_begun s).trans (readFrom_afterLoad s.begun p.1 p.2 w.bytes)).trans
      (readFrom_afterLoad _ p.1 hi w.bytes)
    split
    next hin =>
      rw [(bound_inside_iff ..).2 hin, require_true_run] at hbody
      exact hexec.trans (plain_next hp hbody)
    next hout =>
      rw [Bool.eq_false_iff.2 (mt (bound_inside_iff ..).1 hout), require_false_run] at hbody
      exact (hexec.trans (plain_exc hp (by decide) hbody)).trans (by rw [hfrom.rollback])
end

section
/-!
PROOF. An exception in the delivery of an event: its class beside that of the event, exception 8 and the shutdown. It settles
O50.
-/
namespace Sys2Proof.Machine

open Sys2Proof.Claims

/-! ## The classes of R633 -/

theorem contributory_contains (v : Byte) : contributory.contains v = decide (classOf v = .contributory) := by
  unfold classOf
  split
  next h => rw [h]; rfl
  next =>
    split
    next h => simpa [contributory] using h
    next h => simpa [contributory] using h

theorem page_beq (v : Byte) : (v == 14) = decide (classOf v = .page) := by
  unfold classOf
  split
  next h => rw [h]; rfl
  next h => split <;> simpa using h

/-- Which exception makes a double fault (R633). -/
theorem isDouble_eq (ev : Event) (v : Byte) : isDouble ev.class v = makesDouble ev v := by
  unfold isDouble makesDouble Event.class
  congr 1
  cases ev.kind
  case exception =>
    rw [contributory_contains, contributory_contains, page_beq, page_beq]
    cases classOf ev.vector <;> cases classOf v <;> rfl
  all_goals rfl

/-- The error code of the second exception has EXT unless the first event is a software interrupt (R642). -/
theorem secondCode_eq (ev : Event) (e : Exc) :
    (if ev.kind = .software then e.code else extCode e.vector e.code) =
      if ev.kind ≠ .software ∧ contributory.contains e.vector then e.code.map (· ||| 1) else e.code := by
  simp only [contributory_contains, decide_eq_true_eq, extCode]
  by_cases h : ev.kind = .software
  · rw [if_pos h, if_neg fun hc => hc.1 h]
  · rw [if_neg h]
    exact if_congr (and_iff_right h).symm rfl rfl

/-! ## The delivery of the second exception -/

/-- The event of exception 8: it saves the EIP of the first event (R640). -/
def doubleEvent (s : State) (ret : Word32) : Event :=
  { vector := 8, kind := .exception, ret := ret, code := some 0, rf := s.freeBit doubleSlot }

/-- `deliverDouble` writes the event out. -/
theorem doubleEvent_eq (s : State) (ret : Word32) :
    { s.faultEvent 8 (some 0) with ret := ret, rf := s.freeBit doubleSlot } = doubleEvent s ret := rfl

theorem deliverDouble_entered {s t : State} {ret : Word32} (h : enter (doubleEvent s ret) s = .ok () t) :
    deliverDouble s ret = .next t := by
  rw [deliverDouble, doubleEvent_eq, h]

theorem deliverDouble_shutDown {s t : State} {ret : Word32} {x : Exc}
    (h : enter (doubleEvent s ret) s = .error (.exc x) t) (hx : x.newTask = false) :
    deliverDouble s ret = .next (shutDownState (undone s t)) := by
  rw [deliverDouble, doubleEvent_eq, h]
  dsimp only
  rw [hx, if_neg Bool.false_ne_true]
  rfl

section Failed

variable {s t : State} {ev : Event} {e : Exc} (h : enter ev s = .error (.exc e) t)
include h

/-- An exception of the new task waits there (R520). -/
theorem deliver_postponed (hn : e.newTask = true) : deliver s ev = .next (t.postpone
    { e with code := if ev.kind ≠ .software ∧ contributory.contains e.vector then e.code.map (· ||| 1) else e.code }) := by
  rw [deliver, deliverFuel, h]
  dsimp only
  rw [if_pos hn, secondCode_eq]

variable (hn : e.newTask = false)
include hn

/-- An exception that makes no double fault is delivered in the place of the event (R633). -/
theorem deliver_second (hd : makesDouble ev e.vector = false) {v : State}
    (hv : enter (s.faultEvent e.vector
      (if ev.kind ≠ .software ∧ contributory.contains e.vector then e.code.map (· ||| 1) else e.code)) (s.rollback t) =
        .ok () v) :
    deliver s ev = .next v := by
  rw [deliver, deliverFuel, h]
  dsimp only
  rw [hn, if_neg Bool.false_ne_true, isDouble_eq, hd, if_neg Bool.false_ne_true, secondCode_eq, deliverFuel, hv]

theorem deliver_double (hd : makesDouble ev e.vector = true) :
    deliver s ev = deliverDouble (undone s t) ev.ret := by
  rw [deliver, deliverFuel, h]
  dsimp only
  rw [hn, if_neg Bool.false_ne_true, isDouble_eq, hd, if_pos rfl]
  rfl

end Failed

/-! ## The limit of the table in real mode -/

section RealTable

variable {s : State} (hreal : s.realMode = true)
include hreal

theorem deliver_beyondTable {ev : Event} (h : s.idtr.limit.toNat < 4 * ev.vector.toNat + 3) :
    deliver s ev = deliverDouble s ev.ret :=
  deliver_double (enter_real_refused hreal h) rfl rfl

/-- The exception 8 of INT n saves the EIP of the next instruction (R640, R655). -/
theorem exec_int_beyondTable (hp : s.prefixesOk false) {v : Byte} (h : s.idtr.limit.toNat < 4 * v.toNat + 3) :
    exec (.int v) s = deliverDouble s s.nextEip :=
  exec_softInt_stopped hp (softVector_int_real hreal v)
    (enter_real_refused (s := s.begun) (ev := softEvent s v) hreal h)

theorem deliverDouble_beyondTable (ret : Word32) (h : s.idtr.limit.toNat < 35) :
    deliverDouble s ret = .next (shutDownState s) :=
  deliverDouble_shutDown (enter_real_refused (ev := doubleEvent s ret) hreal h) rfl

end RealTable

end Sys2Proof.Machine

open Sys2Proof Sys2Proof.Machine Sys2Proof.Claims

/-- Settles O50: the second exception is delivered in the state that the failed entry leaves, in its own place or as
exception 8. -/
theorem doubleFault : Obligations.DoubleFault := by
  unfold Obligations.DoubleFault
  refine ⟨fun s t ev e h => ?failed, fun s ev hreal hf h => ⟨fun hready => ⟨?_, fun hp => ?_⟩, fun hlimit => ?_⟩⟩
  case failed =>
    intro u code second abort
    exact ⟨fun hn => deliver_postponed h hn, fun hn hd v hv => deliver_second h hn hd hv,
      fun hn hd => ⟨fun v hv => (deliver_double h hn hd).trans (deliverDouble_entered hv),
        fun x v hv hx => (deliver_double h hn hd).trans (deliverDouble_shutDown hv hx)⟩⟩
  · rw [deliver_beyondTable hreal h]
    exact deliverDouble_entered (enter_real_completes (ev := doubleEvent s ev.ret) hready)
  · rw [exec_int_beyondTable hreal hp h]
    exact deliverDouble_entered (enter_real_completes (ev := doubleEvent s s.nextEip) hready)
  · rw [deliver_beyondTable hreal h, deliverDouble_beyondTable hreal _ hlimit]
end
